-- ==== Sys2Proof/Word.lean ====
section
/-!
DEFINITION. The words the machine computes on: register and lane widths (R30), and their plainest arithmetic.
-/

namespace Sys2Proof

/-- A general register, special register or bundle address (R30). -/
abbrev Word := BitVec 64
/-- One byte of memory or of an instruction. -/
abbrev Byte := BitVec 8
/-- A vector register: 64 lanes of 32 bits (R30). -/
abbrev VWord := BitVec 2048
/-- A lane mask: one bit per byte lane (R30). -/
abbrev MaskWord := BitVec 256
/-- An accumulator bank: 32 x 32 elements of binary32, element (i, j) at bit 32 * (32 * i + j) (R235). -/
abbrev AccWord := BitVec 32768
/-- One slot of a bundle (R38). -/
abbrev SlotWord := BitVec 32

/-- The word that holds n modulo 2^64 (wrap64 of R29). -/
abbrev word (n : Nat) : Word := BitVec.ofNat 64 n

end Sys2Proof
end

