-- ==== Sys2Proof/Config.lean ====
section
/-!
DEFINITION. What the spec leaves to each implementation or leaves open: constants without a body, so that no proof can see
a value of one. Each is named in the assumption log.
-/

namespace Sys2Proof.Config

/-- Which of the units that could act next does act, by step number (R47, R103, R267: the spec orders them only where a rule
says so). Log 2, DESIGN CHOICE. -/
opaque pick : Nat → Nat

/-- How many clk pass in a step (R43, R82, R171, R250, R362: latencies and contention). Log 2, DESIGN CHOICE. -/
opaque ticks : Nat → Nat

/-- The binary32 results of VRCP, VRSQ, VEXP2 and VLOG2 (0 to 3) inside the bounds of R155, by input. Log 17, DESIGN CHOICE. -/
opaque approx : Nat → BitVec 32 → BitVec 32

/-- The AES-256-GCM tag of a tile as one write-back encrypts it (R230), by an arbitrary number. Log 9, DEDUCED. -/
opaque tag : Nat → BitVec 96

/-- The most steps for which a write that may be performed is passed over: a write is performed within a finite time (R200). Log 2, DESIGN CHOICE. -/
opaque patience : Nat

/-- Cycles of the reference clock that pass in a step under a clock plan other than the nominal one (R4, R367). Log 2, DESIGN CHOICE. -/
opaque refTicks : Nat → Nat

/-- Which last-level-cache port homes a tile: 0 or 1 of a die's two ports, or one of 16 (R218). Log 2, DESIGN CHOICE. -/
opaque homePort : Nat → Nat

/-- The Ed25519 signature of a digest under the device key, which the spec does not give (R438, R444). Log 57, PRESUMED. -/
opaque sign : Nat → Nat

/-- Certificate chain of an SPDM slot (R438). Log 57, PRESUMED. -/
opaque certificate : Nat → Nat

/-- The place of each unit's data in the engine image of a save (R334, R335), byte by byte. Log 29, DESIGN CHOICE. -/
opaque engineByte : Nat → Byte

/-- The fault kind of a page-fault record (R226), by the faulting address. Log 45, DEDUCED. -/
opaque faultKind : Nat → Word

/-- How much pod time steers in a step toward the master's (R399). Log 51, DESIGN CHOICE. -/
opaque steer : Nat → Nat

/-- What host memory holds where a dirty line was lost (R371), by an arbitrary number and the address. Log 54, DEDUCED. -/
opaque hostByte : Nat → Nat → Byte

/-- What a sensor shows (R449), by package reset, ms and sensor. Log 59, DESIGN CHOICE. -/
opaque sensor : Nat → Nat → Nat → Nat

/-- Clock rate of a plan (R354, R447). Log 59, DESIGN CHOICE. -/
opaque planRate : Nat → Nat

/-- Power of a package under a plan (R354, R447). Log 59, DESIGN CHOICE. -/
opaque planPower : Nat → Nat

end Sys2Proof.Config
end

