-- ==== Sys2Proof/Syntax.lean ====
section
/-!
DEFINITION. The instructions and steps of the EQ-T8 package: one constructor of `Instr` for every row of
spec/opcode_table.json. A slot's constructor carries its operand fields without the E bit, which frames the bundle (R42)
and is no part of the operation. A step of the machine or of its surroundings has no slot word: its constructor is bare
and what it concerns stands in `State.args` when it runs.
-/

namespace Sys2Proof

/-- A g register number, 0 to 63 (R30); 0 reads zero and 63 is the scalar queue port. -/
abbrev GReg := BitVec 6
/-- A v register number, 0 to 63 (R30); 63 is the vector queue port. -/
abbrev VReg := BitVec 6
/-- A mask register number, 0 to 15 (R30). -/
abbrev KReg := BitVec 4
/-- An accumulator bank number, 0 to 15 (R30). -/
abbrev AccReg := BitVec 4
/-- A result-queue number, 0 to 7 (R30). -/
abbrev RqReg := BitVec 3
/-- A hardware loop level, 0 to 3 (R83). -/
abbrev LoopLevel := BitVec 2

/-- The vector types of R69. -/
inductive VTy where
  | i32 | w32 | i16 | w16 | f32 | f16 | b16
deriving DecidableEq, Repr

/-- The narrow vector types of R69. -/
inductive NTy where
  | i8 | w8 | i16 | w16
deriving DecidableEq, Repr

/-- The conditions of CMP and CMPI (R69). -/
inductive Cond where
  | eq | ne | lt | ge | ltw | gew
deriving DecidableEq, Repr

/-- The widths of SEXT and ZEXT (R69). -/
inductive ExtWidth where
  | w8 | w16 | w32
deriving DecidableEq, Repr

/-- The scopes of R69; a group scope names an entry of the scope-group table (R62). -/
inductive Scope where
  | core | sorus | die | package | pod
  | group (n : BitVec 5)
deriving DecidableEq, Repr

/-- The roundings a VCVT names (R69); `status` is the mode in VSTAT.RM. -/
inductive CvtRound where
  | status | nearest | zero | up | down
deriving DecidableEq, Repr

/-- The full/empty modes of a copy (R69, R278). -/
inductive FeMode where
  | fesrc | fefull | feempty | fekeep
deriving DecidableEq, Repr

/-- One constructor per row of spec/opcode_table.json. In a slot, `sp` is the space bit (R61: false scratchpad, true global)
and `sz` the low bits of the size code. Constructors with operands come first: the runtime's constructor tags are eight bits. -/
inductive Instr where
  -- S unit: arithmetic and logic (R72 to R79)
  | add (d a b : GReg)
  | sub (d a b : GReg)
  | mul (d a b : GReg)
  | mulh (d a b : GReg)
  | mulhw (d a b : GReg)
  | div (d a b : GReg)
  | divw (d a b : GReg)
  | rem (d a b : GReg)
  | remw (d a b : GReg)
  | and (d a b : GReg)
  | or (d a b : GReg)
  | xor (d a b : GReg)
  | shl (d a b : GReg)
  | shr (d a b : GReg)
  | sha (d a b : GReg)
  | min (d a b : GReg)
  | max (d a b : GReg)
  | minw (d a b : GReg)
  | maxw (d a b : GReg)
  | clz (d a : GReg)
  | ctz (d a : GReg)
  | popc (d a : GReg)
  | sext (d a : GReg) (w : ExtWidth)
  | zext (d a : GReg) (w : ExtWidth)
  | bfx (d a b : GReg) (signed : Bool)
  | bfi (d a b : GReg)
  | sel (d a b : GReg)
  | cmp (d a b : GReg) (c : Cond)
  | addi (d a : GReg) (imm : BitVec 9)
  | andi (d a : GReg) (imm : BitVec 9)
  | ori (d a : GReg) (imm : BitVec 9)
  | xori (d a : GReg) (imm : BitVec 9)
  | shli (d a : GReg) (n : BitVec 6)
  | shri (d a : GReg) (n : BitVec 6)
  | shai (d a : GReg) (n : BitVec 6)
  | cmpiEq (d a : GReg) (imm : BitVec 9)
  | cmpiNe (d a : GReg) (imm : BitVec 9)
  | cmpiLt (d a : GReg) (imm : BitVec 9)
  | cmpiGe (d a : GReg) (imm : BitVec 9)
  | cmpiLtw (d a : GReg) (imm : BitVec 9)
  | cmpiGew (d a : GReg) (imm : BitVec 9)
  | movi (d : GReg) (imm : BitVec 15)
  | movhi (d : GReg) (imm : BitVec 15)
  -- S unit: control (R80 to R88)
  | br (off : BitVec 21)
  | call (off : BitVec 21)
  | brcZ (d : GReg) (off : BitVec 15)
  | brcNz (d : GReg) (off : BitVec 15)
  | jmp (a : GReg)
  | loop (n : LoopLevel) (a : GReg) (dist : BitVec 9)
  | loopi (n : LoopLevel) (count : BitVec 8) (dist : BitVec 7)
  -- S unit: special registers, traps, injection (R89 to R95)
  | rdsr (d : GReg) (n : BitVec 12)
  | wrsr (d : GReg) (n : BitVec 12)
  | trap (code : BitVec 15)
  | sysc (code : BitVec 15)
  | brk (code : BitVec 15)
  | accFlip (a b : GReg)
  | spadFlip (a b : GReg)
  | sectorPoison (a b : GReg)
  | tagBreak (a b : GReg)
  | raise (a b : GReg)
  -- S unit: synchronising forms (R116, R117)
  | ldw (d a : GReg) (imm : BitVec 9) (sp : Bool)
  | ldc (d a : GReg) (imm : BitVec 9) (sp : Bool)
  | stf (d a : GReg) (imm : BitVec 9) (sp : Bool)
  | sts (d a : GReg) (imm : BitVec 9) (sp : Bool)
  | feq (d a : GReg) (imm : BitVec 9) (sp : Bool)
  | feset (a : GReg) (imm : BitVec 9) (sp : Bool)
  | feclr (a : GReg) (imm : BitVec 9) (sp : Bool)
  -- S unit: tasks, watches, scopes (R182 to R192)
  | spawn (d a b : GReg)
  | park (a : GReg)
  | dcset (a b : GReg)
  | dcdec (a : GReg)
  | mon (n : BitVec 4) (a : GReg) (imm : BitVec 9) (sp : Bool)
  | waitm (d a : GReg)
  | acq (sc : Scope)
  | rel (sc : Scope)
  | fence (sc : Scope)
  | fenceX (mask : BitVec 6) (sc : Scope)
  | promote (a : GReg) (sc : Scope)
  -- S unit: barriers, windows, partitions (R283, R379, R386, R389, R430)
  | barwt (a b : GReg)
  | wdecl (d a b : GReg)
  | wdrop (a : GReg)
  | acqt (a : GReg) (sc : Scope)
  | relt (a : GReg) (sc : Scope)
  | ptbindCores (a b : GReg)
  | ptbindEngines (a b : GReg)
  | ptbindMemports (a b : GReg)
  | ptbindQueues (a b : GReg)
  | ptbindS2root (a b : GReg)
  | ptbindKey (a b : GReg)
  | ptbindDump (a b : GReg)
  | ptbindFaper (a b : GReg)
  | ptbindNaper (a b : GReg)
  | ptbindPeer (a b : GReg)
  | ptbindKport (a b : GReg)
  | ptbindRwin (a b : GReg)
  | ptbindIntr (a b : GReg)
  | ptbindInj (a b : GReg)
  | ptquotaSlice (a b : GReg)
  | ptquotaPrio (a b : GReg)
  | ptquotaRate (a b : GReg)
  | ptquotaActiveq (a b : GReg)
  | ptsealSeal (a : GReg)
  | ptsealStop (a : GReg)
  | ptsealFree (a : GReg)
  -- A unit (R108 to R115): sz is the low two bits of the size code
  | la (a : GReg) (imm : BitVec 9) (sz : BitVec 2) (sp : Bool)
  | lav (a : GReg) (imm : BitVec 9) (sz : BitVec 2) (sp : Bool)
  | sa (a : GReg) (imm : BitVec 9) (sz : BitVec 2) (sp : Bool)
  | sav (a : GReg) (imm : BitVec 9) (sz : BitVec 2) (sp : Bool)
  | laxIndex (a b : GReg) (sz : BitVec 3) (sp : Bool)
  | laxIncrement (a b : GReg) (sz : BitVec 3) (sp : Bool)
  | saxIndex (a b : GReg) (sz : BitVec 3) (sp : Bool)
  | saxIncrement (a b : GReg) (sz : BitVec 3) (sp : Bool)
  | lavStrided (a b : GReg) (es : BitVec 2) (sp : Bool)
  | savStrided (a b : GReg) (es : BitVec 2) (sp : Bool)
  | lagv (a : GReg) (b : VReg) (es : BitVec 2) (sp : Bool)
  | sasv (a : GReg) (b : VReg) (es : BitVec 2) (sp : Bool)
  | pref (a : GReg) (imm : BitVec 9)
  | amoAdd (a b : GReg) (eight sp : Bool)
  | amoAnd (a b : GReg) (eight sp : Bool)
  | amoOr (a b : GReg) (eight sp : Bool)
  | amoXor (a b : GReg) (eight sp : Bool)
  | amoSwap (a b : GReg) (eight sp : Bool)
  | amoSmin (a b : GReg) (eight sp : Bool)
  | amoSmax (a b : GReg) (eight sp : Bool)
  | amoUmin (a b : GReg) (eight sp : Bool)
  | amoUmax (a b : GReg) (eight sp : Bool)
  | amoFadd (a b : GReg) (sp : Bool)
  | cas (a b : GReg) (eight sp : Bool)
  | laLand (a b : GReg) (sz : BitVec 2) (sp : Bool)
  | lavLand (a b : GReg) (sz : BitVec 2) (sp : Bool)
  -- V unit: two-source forms (R147, R148), unmasked and masked (R66)
  | vadd (d a b : VReg) (t : VTy)
  | vaddMasked (d : VReg) (k : KReg) (b : VReg) (t : VTy)
  | vsub (d a b : VReg) (t : VTy)
  | vsubMasked (d : VReg) (k : KReg) (b : VReg) (t : VTy)
  | vmul (d a b : VReg) (t : VTy)
  | vmulMasked (d : VReg) (k : KReg) (b : VReg) (t : VTy)
  | vmulh (d a b : VReg) (t : VTy)
  | vmulhMasked (d : VReg) (k : KReg) (b : VReg) (t : VTy)
  | vmin (d a b : VReg) (t : VTy)
  | vminMasked (d : VReg) (k : KReg) (b : VReg) (t : VTy)
  | vmax (d a b : VReg) (t : VTy)
  | vmaxMasked (d : VReg) (k : KReg) (b : VReg) (t : VTy)
  | vand (d a b : VReg)
  | vandMasked (d : VReg) (k : KReg) (b : VReg)
  | vor (d a b : VReg)
  | vorMasked (d : VReg) (k : KReg) (b : VReg)
  | vxor (d a b : VReg)
  | vxorMasked (d : VReg) (k : KReg) (b : VReg)
  | vshl (d a b : VReg) (t : VTy)
  | vshlMasked (d : VReg) (k : KReg) (b : VReg) (t : VTy)
  | vshr (d a b : VReg) (t : VTy)
  | vshrMasked (d : VReg) (k : KReg) (b : VReg) (t : VTy)
  | vsha (d a b : VReg) (t : VTy)
  | vshaMasked (d : VReg) (k : KReg) (b : VReg) (t : VTy)
  | vperm (d a b : VReg) (t : VTy)
  | vpermMasked (d : VReg) (k : KReg) (b : VReg) (t : VTy)
  | vpack (d a b : VReg) (t : NTy)
  | vpackMasked (d : VReg) (k : KReg) (b : VReg) (t : NTy)
  -- V unit: one-source forms (R153)
  | vabs (d a : VReg) (k : KReg) (t : VTy)
  | vneg (d a : VReg) (k : KReg) (t : VTy)
  | vnot (d a : VReg) (k : KReg)
  | vrcp (d a : VReg) (k : KReg) (t : VTy)
  | vrsq (d a : VReg) (k : KReg) (t : VTy)
  | vexp2 (d a : VReg) (k : KReg) (t : VTy)
  | vlog2 (d a : VReg) (k : KReg) (t : VTy)
  | vredSum (d a : VReg) (k : KReg) (t : VTy)
  | vredMax (d a : VReg) (k : KReg) (t : VTy)
  | vredMin (d a : VReg) (k : KReg) (t : VTy)
  | vscan (d a : VReg) (k : KReg) (t : VTy)
  | vmov (d a : VReg) (k : KReg)
  | vsat (d a : VReg) (k : KReg) (t : NTy)
  | vunpkLo (d a : VReg) (k : KReg) (t : NTy)
  | vunpkHi (d a : VReg) (k : KReg) (t : NTy)
  | vbcast (d : VReg) (a : GReg) (k : KReg) (t : VTy)
  -- V unit: fused, dot, select, compare, convert, move (R151 to R166)
  | vfmaF32 (d a b : VReg) (k : KReg)
  | vfmaF16 (d a b : VReg) (k : KReg)
  | vfmaB16 (d a b : VReg) (k : KReg)
  | vfmsF32 (d a b : VReg) (k : KReg)
  | vfmsF16 (d a b : VReg) (k : KReg)
  | vfmsB16 (d a b : VReg) (k : KReg)
  | vfnmaF32 (d a b : VReg) (k : KReg)
  | vfnmaF16 (d a b : VReg) (k : KReg)
  | vfnmaB16 (d a b : VReg) (k : KReg)
  | vdot4I8 (d a b : VReg) (k : KReg)
  | vdot4W8 (d a b : VReg) (k : KReg)
  | vsel (d a b : VReg) (k : KReg)
  | vcmpEq (d : KReg) (a b : VReg) (t : VTy)
  | vcmpNe (d : KReg) (a b : VReg) (t : VTy)
  | vcmpLt (d : KReg) (a b : VReg) (t : VTy)
  | vcmpLe (d : KReg) (a b : VReg) (t : VTy)
  | vcvt (d a : VReg) (selector : BitVec 6) (r : CvtRound)
  | vshuf (d a : VReg) (kind : BitVec 3) (p : BitVec 6)
  | vins (d : VReg) (a b : GReg) (t : VTy)
  | vext (d : GReg) (a : VReg) (b : GReg) (t : VTy)
  | vmovi (d : VReg) (imm : BitVec 15)
  | kand (d a b : KReg)
  | kor (d a b : KReg)
  | knot (d a : KReg)
  | kpop (d : GReg) (a : KReg)
  | vacr (d : VReg) (a : AccReg) (u : BitVec 4)
  | vacrRow (d : VReg) (a : AccReg) (i : BitVec 5)
  | vacw (d : AccReg) (a : VReg) (u : BitVec 4)
  | vacwRow (d : AccReg) (a : VReg) (i : BitVec 5)
  | vqpop (d : VReg) (a : RqReg)
  -- M unit (R67)
  | mma (d : AccReg) (a b : GReg)
  | mmas (d : AccReg) (a b : GReg)
  | mzero (d : AccReg)
  | mdrn (d : RqReg) (a : AccReg)
  | mchk (d : AccReg) (a b : GReg)
  | mstat (d : GReg)
  -- C unit (R68)
  | cpy (a b : GReg) (m : FeMode)
  | cpyn (a b : GReg) (m : FeMode)
  | cpyp (a b : GReg) (m : FeMode)
  | cpym (a b : GReg) (m : FeMode)
  | cpyg (a b : GReg) (m : FeMode)
  | cpyq (a : RqReg) (b : GReg) (m : FeMode)
  | rngset (a b : GReg)
  | rngadvRelease (a b : GReg)
  | rngadvCommit (a b : GReg)
  | barinit (a b : GReg)
  | barexp (a b : GReg)
  | tfetch (a b : GReg)
  | lnkSendPut (a b : GReg)
  | lnkSendGet (a b : GReg)
  | lnkSendAtomic (a b : GReg)
  | lnkSendMessage (a b : GReg)
  | lnkRecv (a b : GReg)
  | lnkRadd (a b : GReg)
  | lnkRed (a b : GReg)
  | netPost (a b : GReg)
  | netArm (a b : GReg)
  | netCqr (d a : GReg)
  -- WRSR of a register with a behaviour of its own
  | launch (d : GReg)
  | genraise (d : GReg)
  | s2genraise (d : GReg)
  | bankFormatRegister (d : GReg) (bank : BitVec 9)
  | sgbase (d : GReg)
  | frqs (d : GReg)
  | frqh (d : GReg)
  | featack0 (d : GReg)
  | rgnctlQuery (d : GReg)
  | rgnctlPreempt (d : GReg)
  | rgnctlResume (d : GReg)
  -- slots without operands
  | nop
  | ret
  | idle
  | rft
  | sstep
  | tdone
  | yield
  | mwait
  -- STEPS of the core, of the package and of its surroundings: no slot word; their operands stand in `State.args`
  -- S unit: synchronising forms (R116, R117)
  | waitingFormRetry
  -- S unit: tasks, watches, scopes (R182 to R192)
  | waitmTimeout
  -- A unit (R108 to R115): sz is the low two bits of the size code
  | loadDataArrival
  | storePerformed
  | landing
  | landingLate
  -- M unit (R67)
  | mmasFire
  -- C unit (R68)
  | copyChunk
  -- traps and interrupts (R313, R316, R377)
  | trapEntry
  | intExt
  | preempt
  -- steps of regions, tasks and launches: a region or task is named by its place in State
  | barrierRelease
  | conductorSlotSend
  | computeStepStart
  | taskedBoundary
  | deadlineOver
  | taskDispatch
  | taskAgeing
  | parkWake
  | completionRecord
  | verdict
  | wqEntryLaunch
  | leaseAcquisition
  | pageFaultResponse
  | queueInactive
  | dbtail
  | wqcfg
  -- tiles and pages (R218, R231, R439)
  | tileFill
  | tileWriteback
  | keyRotationEnd
  | pageMigration
  | multicastArrival
  -- window directory (R382, R384): window, tile, participant
  | gets
  | getm
  | drop
  | noticeEToM
  | invalidation
  | windowFill
  -- fabric and network (R399 to R423)
  | packageLost
  | flitReplay
  | lnkDown
  | lossBeyondReplay
  | remoteWrite
  | remoteAtomic
  | atomicResend
  | messageArrival
  | reductionDelivery
  | timeMessage
  | circuitSlotStart
  | packetPlacement
  | selectiveAck
  | retransmitTimeout
  -- time slices, saves, halts (R331, R340, R435 to R437)
  | sliceEnd
  | sliceStart
  | graceEnd
  | forcedSaveComplete
  | regionHalt
  | stopComplete
  -- scan rotation and errors (R344, R349 to R351)
  | scanSlot
  | swap
  | swapTimeout
  | scanEnd
  | memUncorr
  -- host, attestation, bring-up (R369 to R371, R438, R444 to R449)
  | hostMemAccess
  | hostSnoop
  | tdispMessage
  | hostLinkDown
  | clockPlanInstall
  | getVersion
  | getCapabilities
  | negotiateAlgorithms
  | getDigests
  | getCertificate
  | challenge
  | getMeasurements
  | keyExchange
  | finish
  | firmwareUpdate
  | packageReset
  | thermalTrip
  | tokenAccrual
  | linkTraining
  | acknowledgement
  | ageingReport
  | managementRequest
deriving DecidableEq, Repr

end Sys2Proof
end

