-- ==== Sys2Proof/Machine/State.lean ====
section
/-!
DEFINITION. The state of the EQ-T8 package as plain data, and the package right after reset (`State.reset`).
A field's comment names the rule that gives it and its value at reset.
-/

namespace Sys2Proof.Machine

/-- One byte-addressed store with the side bits it carries: bytes (an unlisted address reads 0), the numbers of the 8-byte
words whose full/empty bit is full (R97), of the 32-byte sectors that are poisoned (R344), and of the 4 KiB blocks whose
has-parked flag is set (R121). Every list is strictly rising and no listed byte is 0. Log 5, DESIGN CHOICE. -/
structure Store where
  bytes  : List Host.Cell := []
  full   : List Nat := []
  poison : List Nat := []
  parked : List Nat := []
  /-- the link to the host die is down: host memory answers with poison and discards writes (R371, R444). Reset false. -/
  dark   : Bool := false
deriving DecidableEq, Repr

/-- The kinds of frame that link engines exchange (R401, R405): `poison` is the request that R401 sends after a loss. -/
inductive FabKind where
  | put | get | atomic | message | radd | red | poison
deriving DecidableEq, Repr

/-- A request between link engines (R404 to R408): what identifies its source (R324, R406), what it names and what it carries. -/
structure FabReq where
  kind     : FabKind
  /-- source package, compute die, logical core, SEQ, bundle address and slot (R324) -/
  srcPkg   : Nat
  srcDie   : Nat
  srcCore  : Nat
  seq      : Nat
  bundle   : Word
  slot     : Nat
  /-- source engine (its port), the command, and the 16-bit number of R406 -/
  engine   : Nat
  cmd      : Nat
  ident    : Nat
  /-- the port it leaves or arrives by, and its destination package -/
  port     : Nat
  dst      : Nat
  /-- global memory, or the scratchpad of package core `core` -/
  toGlobal : Bool
  core     : Nat
  /-- address, offset within the command, bytes asked for, whole length -/
  addr     : Nat
  off      : Nat
  len      : Nat
  total    : Nat
  /-- bytes with their full/empty and poison bits -/
  data     : List (Byte × Bool × Bool)
  /-- the bytes come from words, whose full/empty bits they carry (R278, R405) -/
  bits     : Bool := true
  /-- atomics: operation, eight bytes, operand, swap value -/
  op       : Nat
  eight    : Bool
  operand  : Word
  swapVal  : Word
  /-- sums: format code, window, round -/
  fmt      : Nat
  window   : Nat
  round    : Nat
deriving DecidableEq, Repr

/-- An answer to a request (R405): the command, the part it answers, an error code of R276 or 0, and data for a get or an atomic;
TINFO and address for a refusal (R324). -/
structure FabAck where
  dst   : Nat
  cmd   : Nat
  off   : Nat
  len   : Nat
  code  : Nat
  data  : List (Byte × Bool × Bool)
  tinfo : Word
  addr  : Word
deriving DecidableEq, Repr

/-- A network packet that arrives at this package (R422). -/
structure NetPacket where
  peer   : Nat
  seq    : Nat
  req    : Nat
  addr   : Nat
  total  : Nat
  bytes  : List Byte
  fef    : Bool
  rce    : Bool
  rctr   : Nat
  part   : Nat
  /-- the Ethernet port that it leaves or comes by, the station at the other end, and the transport key slot that secures it (R415, R431) -/
  port   : Nat := 0
  station : Nat := 0
  key    : Nat := 0
  /-- the context at the target whose counter is meant (R420) -/
  asid   : Nat := 0
deriving DecidableEq, Repr

/-- A selective acknowledgement (R423): the sequence numbers held, and requests refused here (R421). -/
structure NetSack where
  part    : Nat
  peer    : Nat
  held    : List Nat
  refused : List Nat
deriving DecidableEq, Repr

/-- What a host access to device memory asks for (R370). -/
structure HostAccess where
  iface : Nat
  write : Bool
  addr  : Nat
  bytes : List Byte
  size  : Nat
deriving DecidableEq, Repr

/-- The states of a trusted device interface (R370). -/
inductive TdispState where
  | configUnlocked | configLocked | run | error
deriving DecidableEq, Repr

/-- The reset causes of R449. -/
inductive ResetCause where
  | powerOn | management | thermalTrip | watchdog
deriving DecidableEq, Repr

/-- A hardware loop level's registers and the order in which the active levels were set up, latest first (R83). -/
structure Loops where
  /-- lc0 to lc3 (R30). Reset 0. -/
  lc    : Vector Word 4 := Vector.replicate 4 0
  /-- ls0 to ls3 (R30). Reset 0. -/
  ls    : Vector Word 4 := Vector.replicate 4 0
  /-- le0 to le3 (R30). Reset 0. -/
  le    : Vector Word 4 := Vector.replicate 4 0
  /-- set-up order of the active levels, most recent first (R83). Reset empty. -/
  order : List LoopLevel := []
deriving DecidableEq, Repr

/-- One bank of trap registers, 0x040 to 0x049 and 0x070 to 0x07C (R307 to R312). -/
structure TrapBank where
  /-- TCAUSE (R308), 64 bits. Reset 0. -/
  tcause : Word := 0
  /-- TPC (R307), [56:0]. Reset 0. -/
  tpc    : Word := 0
  /-- TMASK (R307), [7:0]. Reset 0. -/
  tmask  : Word := 0
  /-- TVAL (R307). Reset 0. -/
  tval   : Word := 0
  /-- TVAL2 (R307). Reset 0. -/
  tval2  : Word := 0
  /-- TINFO (R309). Reset 0. -/
  tinfo  : Word := 0
  /-- TNPC (R307), [56:2]. Reset 0. -/
  tnpc   : Word := 0
  /-- TSTATE (R310): PIE, IE, ACTIVE. Reset 0. -/
  tstate : Word := 0
  /-- TVEC (R307), [56:6]; 0 means no handler. Reset 0. -/
  tvec   : Word := 0
  /-- TSCR (R307). Reset 0. -/
  tscr   : Word := 0
  /-- LSHLC0 to LSHLC3 (R312). Reset 0. -/
  lshlc  : Vector Word 4 := Vector.replicate 4 0
  /-- LSHLS0 to LSHLS3 (R312). Reset 0. -/
  lshls  : Vector Word 4 := Vector.replicate 4 0
  /-- LSHLE0 to LSHLE3 (R312). Reset 0. -/
  lshle  : Vector Word 4 := Vector.replicate 4 0
  /-- LSHORD (R312), [10:8] NACT and [7:0] ORDER. Reset 0. -/
  lshord : Word := 0
deriving DecidableEq, Repr

/-- A cause on its way to a trap entry or a fault record, with the values it carries (R313, R314). -/
structure Trap where
  code      : Nat
  prec      : Bool := false
  impr      : Bool := false
  walk      : Bool := false
  tpc       : Word := 0
  tnpc      : Word := 0
  tmask     : Word := 0
  tval      : Word := 0
  tval2     : Word := 0
  tinfo     : Word := 0
  /-- the bundle has committed: TRAP, SYSC, XINJ kind 4 (R53) -/
  committed : Bool := false
  /-- the handling level named by a routing entry (R377), for INT_EXT -/
  level     : Option (BitVec 2) := none
deriving DecidableEq, Repr

/-- One entry of a load-data queue (R31): reserved at issue, filled when the load is performed (R102). -/
structure DataEntry (w : Nat) where
  id     : Nat
  val    : Option (BitVec w) := none
  poison : Bool := false
  addr   : Word := 0
deriving DecidableEq, Repr

/-- What a load-address entry asks for (R102). -/
inductive LaKind where
  | load | store | fetchLine | amo (op : Nat) | cas
deriving DecidableEq, Repr

/-- A run of bytes of an access: from byte `off` of the data entry, `len` bytes at address `at'` of the store. -/
structure Piece where
  off : Nat
  at' : Nat
  len : Nat
deriving DecidableEq, Repr

/-- One entry of the load-address queue (R31, R102). -/
structure LaEntry where
  id      : Nat
  kind    : LaKind
  sp      : Bool
  vec     : Bool
  pieces  : List Piece
  ea      : Word := 0
  eight   : Bool := false
  operand : Word := 0
  swapVal : Word := 0
  /-- arrival cycle of a landing form (R115) -/
  arrival : Option Word := none
  /-- data paired with a store: none not yet, `some none` an empty push (R54) -/
  data    : Option (Option VWord) := none
  bundle  : Word := 0
  slot    : Nat := 0
  seq     : Nat := 0
  /-- MODEL: step at which it issued, by the counter of free values (R200). Log 2, DESIGN CHOICE. -/
  born    : Nat := 0
deriving DecidableEq, Repr

/-- An ACQ, REL or FENCE that may still hold accesses back (R192): the identifier given to the first access issued after it,
and what it is. -/
structure Fence where
  at'  : Nat
  acq  : Bool
  rel  : Bool
deriving DecidableEq, Repr

/-- A landing-buffer entry: data performed before its arrival cycle (R180). -/
structure LandEntry where
  id     : Nat
  vec    : Bool
  val    : VWord
  poison : Bool
  addr   : Word
  cycle  : Word
deriving DecidableEq, Repr

/-- A slot in a back engine's queue, with the g and k values it read at issue (R48). -/
structure QSlot where
  instr  : Instr
  bundle : Word
  slot   : Nat
  seq    : Nat
  gsrc   : List (GReg × Word) := []
  ksrc   : List (KReg × MaskWord) := []
  /-- special registers that a WRSR of its own bundle has changed, with the values that still rule here (R89) -/
  olds   : List (Nat × Word) := []
  /-- a C slot: the context of `Core.issued` as it issued (R89, R220); empty for the other slots -/
  ctx    : List Word := []
deriving DecidableEq, Repr

/-- The kinds of command a copy engine runs (R273, R388). -/
inductive CopyKind where
  | cpy | cpyn | cpyp | cpym | cpyg | cpyq | tfetch
deriving DecidableEq, Repr

/-- An active copy command (R266, R267): its descriptor, its completion target and the cursor it has reached. -/
structure CopyCmd where
  id       : Nat
  kind     : CopyKind
  mode     : FeMode
  desc     : List Word
  target   : Word
  descAddr : Word
  /-- the next chunk in iteration order (R332) -/
  cursor   : Nat := 0
  /-- destination bytes counted so far -/
  counted  : Nat := 0
  /-- entries popped by a CPYQ, with their poison (R273) -/
  entries  : List (VWord × Bool) := []
  /-- the destination ring entry it holds (R289) -/
  ringD    : Option Nat := none
  /-- the source ring entry it reads (R289) -/
  ringS    : Option Nat := none
  /-- multicast: the entry that each receiver has reserved, by its core (R291) -/
  landed   : List (Nat × Nat) := []
  /-- the code with which it fails once what it has sent has been written (R275, R277) -/
  doom     : Option Nat := none
  /-- multicast: the next chunk of each receiver that has been sent one, by its core -/
  sent     : List (Nat × Nat) := []
  /-- mode .fesrc: destination words written in part so far, by destination core and number, with the source's bit for their first byte
  (R278) -/
  bits     : List ((Nat × Nat) × Bool) := []
  /-- region and context registers of the issuing task -/
  region   : Option Nat := none
  ctx      : List Word := []
  /-- issued by the conductor (R281) -/
  cond     : Bool := false
  task     : Nat := 0
  asid     : Nat := 0
  bundle   : Word := 0
  slot     : Nat := 0
  seq      : Nat := 0
  /-- special registers that a WRSR of its own bundle has changed, with the values that still rule here (R89) -/
  olds     : List (Nat × Word) := []
deriving DecidableEq, Repr

/-- A circular buffer (R287). -/
structure Ring where
  isSet  : Bool := false
  base   : Nat := 0
  esize  : Nat := 0
  count  : Nat := 0
  bars   : Nat := 0
  prod   : Nat := 0
  cons   : Nat := 0
  rsv    : Nat := 0
  /-- completed entries that PROD has not passed yet (R289) -/
  filled : List Nat := []
deriving DecidableEq, Repr

/-- A watch entry (R190): the word it is armed on and the reason waiting to be reported (0 none). -/
structure Watch where
  armed  : Bool := false
  sp     : Bool := false
  addr   : Nat := 0
  reason : Nat := 0
deriving DecidableEq, Repr

/-- Local states of a window tile (R381). -/
inductive TileState where
  | i | s | e | o | m
deriving DecidableEq, Repr

/-- One window declaration of a core (R378, R379). -/
structure WinDecl where
  slot  : Nat
  wid   : Nat
  who   : Nat
  lbase : Nat
  nt    : Nat
  tl    : Nat
  write : Bool
  image : Word
  tiles : List TileState
deriving DecidableEq, Repr

/-- A receive posted by LNK.RECV (R407): where it lands, its length, and its command's target and place. -/
structure Receive where
  lsp    : Bool
  pieces : List Piece
  len    : Nat
  target : Word
  desc   : Word
  task   : Nat
  asid   : Nat
  bundle : Word
  slot   : Nat
  seq    : Nat
  region : Option Nat := none
  cond   : Bool := false
  /-- its task has ended: it is to be killed (R348) -/
  doom   : Bool := false
deriving DecidableEq, Repr

/-- How a core stands between bundles: halted until dispatch (R30), running, stopped by IDLE (R88), or holding a bundle or a
task that waits (R118, R182, R185, R191). -/
inductive RunState where
  | halted
  | running
  /-- stopped by the IDLE of the bundle at this address until a wake event (R88) -/
  | idle (bundle : Word)
  /-- BARWT waits for its phase (R285) -/
  | barwt
  /-- a synchronising access that failed `tries` times, latest at clk `at'` (R120) -/
  | feWait (tries : Nat) (at' : Nat)
  /-- WAITM: its mask of entries, the clk at which it times out, its destination (R191) -/
  | waitm (entries : BitVec 16) (until' : Nat) (d : GReg)
  /-- a WRSR of GENRAISE or S2GENRAISE has raised the generation and waits for the accesses translated before: per core, those below an
  identifier, and the copy chunks on their way to memory, by number (R365) -/
  | raising (marks : List (Nat × Nat)) (chunks : List Nat)
  /-- the SSTEP of the bundle at this address has committed and the core drains before it arrives (R182) -/
  | arriving (bundle : Word)
  /-- arrived at the package barrier (R177) -/
  | atBarrier
  /-- TDONE, YIELD or PARK has committed and the core drains: 0 done, 1 yield, 2 park with its word operand (R185, R188) -/
  | leaving (how : Nat) (operand : Word)
  /-- free: no task (R185) -/
  | free
  /-- retired from a scheduled region by TDONE (R185) -/
  | retired
  /-- stopped by a save or a halt (R331) -/
  | stopped
deriving DecidableEq, Repr

/-- What a slot's execution did to the flow of its bundle; `step` reads it after each slot. -/
inductive Mark where
  /-- the slot took effect -/
  | ok
  /-- the slot's bundle cannot issue yet (R49) -/
  | stall
  /-- the slot waits and what it waits for has been noted; the bundle has not committed (R118, R191) -/
  | wait
  /-- the slot raised a precise trap (R53) -/
  | trap (t : Trap)
deriving DecidableEq, Repr

/-- The state of one compute core (R30, R31 and the special registers of R32). -/
structure Core where
  /-- compute die 0 to 7 (R33) -/
  die      : Nat := 0
  /-- PHYS, physical core 0 to 131 of the die (R33) -/
  phys     : Nat := 0
  /-- LCORE, logical core 0 to 127, 0x7F when spare (R33). Reset PHYS. -/
  lcore    : Nat := 0
  /-- SPARE (R33) -/
  spare    : Bool := false
  /-- a conductor core, physical identifier 1056 + die (R176, R179) -/
  cond     : Bool := false
  /-- g0 to g63 (R30); entries 0 and 63 hold nothing. Reset 0. -/
  g        : Vector Word 64 := Vector.replicate 64 0
  /-- v0 to v63 (R30); entry 63 holds nothing. Reset 0. -/
  v        : Vector VWord 64 := Vector.replicate 64 0
  /-- k0 to k15 (R30); entry 0 holds nothing, k0 reads all ones. Reset 0. -/
  k        : Vector MaskWord 16 := Vector.replicate 16 0
  /-- lc, ls, le and their set-up order (R30, R83). Reset 0. -/
  loops    : Loops := {}
  /-- acc0 to acc15 (R30, R235). Reset +0.0 in every element. -/
  acc      : Vector AccWord 16 := Vector.replicate 16 0
  /-- the SAT flag of each bank (R245). Reset 0. -/
  accSat   : BitVec 16 := 0
  /-- the POISON flag of each bank (R245). Reset 0. -/
  accPois  : BitVec 16 := 0
  /-- rq0 to rq7: entries of 2,048 bits with a 16-bit header, oldest first (R30, R246). Reset empty. -/
  rq       : Vector (List (VWord × BitVec 16)) 8 := Vector.replicate 8 []
  /-- bf0 to bf383 (R210). Reset 0. -/
  bf       : Vector Word 384 := Vector.replicate 384 0
  /-- bundle address, a multiple of 4 (R30). Reset not meaningful; 0 here. -/
  pc       : Word := 0
  /-- PLV.LEVEL (R34). Reset 0, firmware. -/
  level    : BitVec 2 := 0
  /-- the count of bundles issued since reset (SEQ of R309). Reset 0. -/
  seq      : Nat := 0
  /-- load-address queue, oldest first (R31). Reset empty. -/
  laq      : List LaEntry := []
  /-- scalar load-data queue (R31). Reset empty. -/
  sldq     : List (DataEntry 64) := []
  /-- vector load-data queue (R31). Reset empty. -/
  vldq     : List (DataEntry 2048) := []
  /-- scalar store-data pushes not yet paired; none is an empty push (R31, R54). Reset empty. -/
  ssdq     : List (Option Word) := []
  /-- vector store-data pushes not yet paired (R31, R54). Reset empty. -/
  vsdq     : List (Option VWord) := []
  /-- vector engine queue: the V slots of each bundle (R31). Reset empty. -/
  veq      : List (List QSlot) := []
  /-- the entry at the head of the vector queue has begun (R331). Reset false. -/
  vbusy    : Bool := false
  /-- matrix engine queue (R31). Reset empty. -/
  meq      : List QSlot := []
  /-- copy engine queue: the C slots of each bundle (R31). Reset empty. -/
  ceq      : List (List QSlot) := []
  /-- active copy commands, in acceptance order (R266). Reset empty. -/
  copies   : List CopyCmd := []
  /-- rings 0 to 15 (R287). Reset not set up. -/
  rings    : Vector Ring 16 := Vector.replicate 16 {}
  /-- landing buffer (R180). Reset empty. -/
  landBuf  : List LandEntry := []
  /-- watch entries 0 to 15 (R190). Reset disarmed. -/
  watches  : Vector Watch 16 := Vector.replicate 16 {}
  /-- window declarations (R378). Reset none. -/
  wins     : List WinDecl := []
  /-- receive list (R407), at most 16. Reset empty. -/
  recvs    : List Receive := []
  /-- messages held at the deckle die for this core (R407). Reset empty. -/
  msgs     : List FabReq := []
  /-- the scratchpad, 384 KiB, with its full/empty, poison and has-parked bits (R208, R97, R121, R344). Reset value not given; zero, empty here. -/
  spad     : Store := {}
  /-- the trap banks of FW, HV and SV (R307). Reset 0. -/
  banks    : Vector TrapBank 3 := Vector.replicate 3 {}
  /-- imprecise traps that are due at the next bundle boundary, in issue order (R54, R317). Reset none. -/
  held     : List Trap := []
  /-- traps held until a handler returns with RFT, each with the number of entries whose RFT is still to come, its own
  handler's the last (R53, R54). Reset none. -/
  later    : List (Nat × Trap) := []
  /-- a precise or committed trap that waits for the drain of R53. Reset none. -/
  pend     : Option Trap := none
  /-- interrupts that are due: PREEMPT and INT_EXT (R316). Reset none. -/
  irqs     : List Trap := []
  /-- FEBUDGET (R119). Reset 0x100. -/
  febudget : Word := 0x100
  /-- MASPLIT (R123). Reset 0. -/
  masplit  : Word := 0
  /-- the slot whose access is split in the bundle that now issues (R124). -/
  splitNow : Option Nat := none
  /-- VSTAT (R144). Reset SFMT 0x04, the rest 0. -/
  vstat    : Word := 0x40000
  /-- sticky bits of MXSTAT: NAN, POIS, SAT at bits 3, 2, 1 (R260). Reset 0. -/
  mxstat   : Word := 0
  /-- RQHDR0 to RQHDR7 (R260). Reset 0. -/
  rqhdr    : Vector (BitVec 16) 8 := Vector.replicate 8 0
  /-- STEPCLK (R176). Reset 0. -/
  stepclk  : Word := 0
  /-- DLREG (R176). Reset 0. -/
  dlreg    : Word := 0
  /-- STEPNO (R176), 16 bits. Reset 0. -/
  stepno   : Word := 0
  /-- TASKID (R176), 19 bits. Reset 0. -/
  taskid   : Word := 0
  /-- PKBASE (R176). Reset 0. -/
  pkbase   : Word := 0
  /-- SGBASE (R176). Reset 0. -/
  sgbase   : Word := 0
  /-- the core's copy of the scope-group table: core mask and package mask of each entry (R192, R206). Reset empty. -/
  groups   : List (BitVec 1024 × BitVec 2048) := []
  /-- LANDSTAT.FROZEN (R176), 32 bits. Reset 0. -/
  frozen   : Word := 0
  /-- clk at which the present freeze began (R180). Reset none. -/
  freeze   : Option Nat := none
  /-- SKEW0 to SKEW7 of a conductor core (R176). Reset calibrated (R364). -/
  skew     : Vector Word 8 := Vector.replicate 8 0
  /-- HEAPBASE (R220). Reset 0. -/
  heapbase : Word := 0
  /-- HEAPLIM (R220). Reset 0. -/
  heaplim  : Word := 0
  /-- HEAPOFF (R220). Reset 0. -/
  heapoff  : Word := 0
  /-- PTROOT (R220). Reset 0. -/
  ptroot   : Word := 0
  /-- ASID.ID (R220), 10 bits. Reset 0. -/
  asid     : Nat := 0
  /-- PFQBASE (R220). Reset 0. -/
  pfqbase  : Word := 0
  /-- S2ROOT (R220). Reset 0. -/
  s2root   : Word := 0
  /-- KEYSEL (R220), 10 bits. Reset 0. -/
  keysel   : Word := 0
  /-- PTID.PART (R427). Reset 0. -/
  part     : Nat := 0
  /-- PTRES.RES (R427). Reset 0. -/
  ptres    : Nat := 0
  /-- RGNSEL (R427). Reset 0. -/
  rgnsel   : Word := 0
  /-- the region that the core runs or belongs to, by its identifier. Reset none. -/
  region   : Option Nat := none
  /-- the partition that last ran on the core (R351). Reset none. -/
  ranFor   : Option Nat := none
  /-- how the core stands (R30, R88, R118). Reset halted. -/
  run      : RunState := .halted
  /-- a committed wait that a trap entry broke into (SSTEP, TDONE, YIELD, PARK or the package barrier), and the level that
  returns to it (R182, R185, R317). Reset none. -/
  after    : Option (RunState × BitVec 2) := none
  /-- an open promotion: the word's address and the scope (R205). Reset none. -/
  promo    : Option (Nat × Scope) := none
  /-- identifier given to the next load-address entry; entries are ordered by it. -/
  nextId   : Nat := 0
  /-- every ACQ, REL and FENCE that has not taken effect yet, oldest first (R192, R202, R206). Reset none. -/
  fences   : List Fence := []
  -- the bundle that now issues or the back slot that now executes
  /-- address of the bundle that the executing slot belongs to. -/
  curBundle : Word := 0
  /-- number of the executing slot within its bundle. -/
  curSlot  : Nat := 0
  /-- SEQ of the bundle that the executing slot belongs to. -/
  curSeq   : Nat := 0
  /-- number of slots of the bundle that now issues. -/
  curLen   : Nat := 1
  /-- next bundle address selected so far by the bundle that now issues (R80). -/
  next     : Word := 0
  /-- g values as the executing slot's bundle found them, where a slot of it has written since, or as read at issue (R21, R48). -/
  early    : List (GReg × Word) := []
  /-- v values as the executing entry found them (R21, R143). -/
  earlyV   : List (VReg × VWord) := []
  /-- k values as read at issue (R48). -/
  earlyK   : List (KReg × MaskWord) := []
  /-- special registers that a WRSR of the executing slot's bundle has changed, with the values that rule the slot (R89). -/
  olds     : List (Nat × Word) := []
  /-- entries of the load-address queue that the bundle which now issues has taken or given data, by identifier (R50, R104). -/
  mine     : List Nat := []
  /-- what the executing slot did. -/
  mark     : Mark := .ok
deriving DecidableEq, Repr

/-- One page range of a region's leases with its frozen translation (R224, R225). -/
structure Lease where
  start  : Nat
  pages  : Nat
  x      : Bool
  w      : Bool
  r      : Bool
  /-- physical page of each leased page, as acquired; shorter than `pages` while acquisition runs -/
  frames : List Nat := []
  /-- access kinds that both stages allow, page by page: R, W, X -/
  perms  : List (Bool × Bool × Bool) := []
deriving DecidableEq, Repr

/-- Where a region stands (R225, R326, R331, R339). -/
inductive RegionState where
  /-- leases are being acquired; entry and page reached -/
  | acquiring (entry page : Nat)
  /-- waits for the supervisor's answer in the page-fault record at this address (R226) -/
  | pageFault (entry page : Nat) (record : Nat)
  /-- waits for free cores (R194) -/
  | waitingCores
  | running
  /-- a pre-emption request is outstanding since this clk (R331) -/
  | requested (since : Nat)
  /-- cores are stopped and images are being written (R331) -/
  | saving
  /-- saved: by force, or at a boundary (R329, R331) -/
  | saved (forced : Bool)
  /-- halted, its dump not yet written (R340) -/
  | halting
  | complete
deriving DecidableEq, Repr

/-- What the loader holds for a control block: the scratchpad image of its program, pieces whose elements have a format of their own, by code, and
the load-time bank formats (R18, R139, R175). -/
structure Program where
  asid    : Nat
  block   : Nat
  scratch : List (Nat × List Byte) := []
  typed   : List (Nat × Nat × List Byte) := []
  formats : List (Nat × Word) := []
deriving DecidableEq, Repr

/-- One sorus: the tree that holds it and its dependence counters that are not zero (R187). -/
structure Sorus where
  die      : Nat
  idx      : Nat
  tree     : Option Nat := none
  counters : List (Nat × BitVec 32) := []
deriving DecidableEq, Repr

/-- A region: its control block's effective fields (R173, R174) and what the launch engine knows of it. -/
structure Region where
  id        : Nat
  block     : Nat
  asid      : Nat
  part      : Nat
  level     : BitVec 2
  parent    : Option Nat := none
  /-- root of its region tree (R194) -/
  root      : Nat := 0
  scheduled : Bool := false
  fe        : Bool := false
  entry     : Nat := 0
  ncores    : Nat := 1
  roots     : Nat := 1
  banks     : Nat := 384
  accs      : Nat := 16
  engines   : Nat := 31
  priority  : Nat := 0
  fdom      : Nat := 0
  deadline  : Nat := 0
  leaseList : Nat := 0
  nleases   : Nat := 0
  rate      : Nat := 0
  ceiling   : Nat := 0
  arg       : Word := 0
  sched     : Nat := 0
  tasks     : Nat := 0
  compl     : Nat := 0
  /-- fields that are given, by OVR bit (R173) -/
  has       : BitVec 15 := 0
  leases    : List Lease := []
  /-- physical cores of its budget, in rank order -/
  budget    : List Nat := []
  state     : RegionState := .acquiring 0 0
  /-- status of the first failure (R321) -/
  status    : Nat := 0
  /-- offset of its dump area in the pool, 0 when it has none (R338, R352) -/
  dump      : Nat := 0
  /-- next long word of the communication step (R179) -/
  streamPos : Nat := 0
  /-- clk of the step, as the conductor counts them (R176, R179) -/
  time      : Nat := 0
  /-- T of the end long word, once read (R177) -/
  endT      : Option Nat := none
  /-- the least DLREG of the cores that it has lent to children (R181, R194) -/
  left      : Nat := 0
  /-- a request holds the launch back (R326) -/
  hold      : Bool := false
  /-- a resume is due (R339, R436) -/
  resumeDue : Bool := false
  /-- cause of a halt under way (R340) -/
  halt      : Option Nat := none
  /-- T of the previous header of the step (R179) -/
  lastT     : Option Nat := none
  /-- in a communication step: the barrier has released and the next compute step has not begun (R177) -/
  inComm    : Bool := false
  /-- a stop at the boundary of compute step n is due (R329) -/
  boundary  : Option Nat := none
  /-- resume with the restart stream of this boundary (R329) -/
  restart   : Option (Nat × Nat) := none
  /-- the launch came from this work queue: queue, TAG, IRQ, VEC (R374) -/
  fromQ     : Option (Nat × Word × Bool × Nat) := none
  /-- physical cores that ran part of it (R352) -/
  usedCores : List Nat := []
  /-- started cores or tasks not done (R193) -/
  count     : Nat := 0
  /-- the SKEW delays it started with (R364) -/
  skew      : List Nat := []
  /-- slots of the step's long words that have not started, with their long word's T (R333) -/
  unsent    : List (Word × Word × Nat) := []
  /-- dies whose scan controllers ask for a stop at a boundary (R350) -/
  scanReq   : List Nat := []
  /-- cores that the region held when it was saved, by rank, as the couching engine keeps them (R334, R335) -/
  images    : List (Nat × Core) := []
  /-- sori whose counters its save area holds: 16 * die + sorus (R334) -/
  sori      : List Nat := []
  /-- the counters of those sori, where the region has no save area (R327) -/
  kept      : List Sorus := []
  /-- no dump is written: the pool had no room for its save (R338) -/
  noDump    : Bool := false
deriving DecidableEq, Repr

/-- A task as its sorus scheduler holds it (R183 to R186). -/
structure Task where
  id      : Nat
  record  : Nat
  region  : Nat
  die     : Nat
  sorus   : Nat
  entry   : Nat
  save    : Word
  base    : Nat
  cur     : Nat
  /-- STATE of R183: 0 new, 1 ready, 2 running, 3 parked, 4 waiting on a counter, 5 done -/
  st      : Nat
  /-- clk since it became ready or was last raised (R186) -/
  since   : Nat
  /-- the counter it waits on (R184) -/
  waits   : Option Nat := none
  /-- WAITW of a parked task, and the store word it names (R188) -/
  waitw   : Word := 0
  parkKey : Option (Nat × Nat) := none
  /-- a task that has not started: values of g2 and g3 (R175, R184) -/
  fresh   : Option (Word × Word) := none
  /-- context registers of 0x0700 that it starts with (R337) -/
  ctx     : List Word := []
  level   : BitVec 2 := 3
  /-- a wake has found it while its region was pre-empted: it becomes ready when the region resumes (R189, R330) -/
  woken   : Bool := false
deriving DecidableEq, Repr

/-- A wake that a write posted for one tile or block (R121): the core of a scratchpad block, or none for device memory, and the
words of the block whose bits the write changed, with their new bits (R189). -/
structure Wake where
  core  : Option Nat
  block : Nat
  words : List (Nat × Bool)
deriving DecidableEq, Repr

/-- The states of a partition (R429). -/
inductive PartState where
  | free | opened | sealed | stopping | stopped
deriving DecidableEq, Repr

/-- An aperture entry (R431, kinds 7 and 8): remote start, pages, physical base, write and read permission. -/
structure Aper where
  start : Nat
  pages : Nat
  base  : Nat
  w     : Bool
  r     : Bool
deriving DecidableEq, Repr

/-- A ring of fault records (R319): the FRQS or FRQH word and the writer's private position. -/
structure FaultRing where
  reg : Word := 0
  pos : Nat := 0
deriving DecidableEq, Repr

/-- A Kwantorin port (R398, R409, R431): modes 0 down, 1 switched, 2 circuit. -/
structure Port where
  mode   : Nat := 0
  isUp   : Bool := false
  part   : Option Nat := none
  /-- EN, GUARD, T0 and the slots (destination, duration) of a circuit port -/
  en     : Bool := false
  guard  : Nat := 0
  t0     : Nat := 0
  slots  : List (Nat × Nat) := []
  /-- the slot that is open, for a circuit port -/
  openSlot : Option Nat := none
deriving DecidableEq, Repr

/-- A partition: its bindings, quotas and state (R429 to R434). -/
structure Partition where
  st       : PartState := .free
  /-- CORES: package core numbers, rising. Unbound at reset. -/
  cores    : Option (List Nat) := none
  /-- ENGINES, 5 bits; unbound until PTBIND. -/
  engines  : Option (BitVec 5) := none
  memports : Option (BitVec 16) := none
  /-- QUEUES: first and count -/
  queues   : Option (Nat × Nat) := none
  s2root   : Option Nat := none
  key      : Option Nat := none
  /-- DUMP: pool base as bound, its physical pages in order, and MiB -/
  dump     : Option (Nat × List Nat × Nat) := none
  faper    : List Aper := []
  naper    : List Aper := []
  /-- PEER: port, station address, key slot; none when unbound -/
  peers    : Option (List (Nat × Nat × Nat)) := none
  /-- KPORT: the ports bound to this partition, each as it was bound -/
  kports   : List (Nat × Port) := []
  /-- RWIN: window number, home va, N, FMT, blocks -/
  rwins    : List (Nat × Nat × Nat × Nat × Nat) := []
  inj      : Bool := false
  slice    : Nat := 0
  /-- a SLICE written while sealed, for the next slice (R429) -/
  sliceDue : Option Nat := none
  /-- clk at which its slice began (R435) -/
  sliceAt  : Nat := 0
  prio     : Nat := 15
  rate     : Nat := 0
  ceiling  : Nat := 0
  activeq  : Nat := 0
  /-- order of sealing (R435) -/
  sealNo   : Nat := 0
  /-- second-stage generation and its raises since the seal (R227, R438) -/
  s2gen    : Nat := 0
  s2raises : Nat := 0
  /-- physical pages written since the seal (R437) -/
  dirty    : List Nat := []
  /-- measurement fixed at seal (R438) -/
  measure  : Nat := 0
  /-- FRQH of the partition (R319). Reset 0. -/
  frqh     : FaultRing := {}
  /-- a stop has still to finish (R437) -/
  stopDue  : Bool := false
  /-- it holds its cores: spatial, or its slice is running (R435) -/
  holds    : Bool := false
  /-- its slice has ended and its saves are awaited (R435) -/
  ending   : Bool := false
  /-- dump areas in use, oldest first: offset in the pool, MiB, physical address of a halt dump's completion record (R338) -/
  areas    : List (Nat × Nat × Option Nat) := []
deriving DecidableEq, Repr

/-- An address space as the vat die holds it (R220, R319). Log 46, DESIGN CHOICE. -/
structure Asid where
  /-- ASID.GEN (R223). Reset 0. -/
  gen  : Nat := 0
  /-- FRQS of the ASID (R319). Reset 0. -/
  frqs : FaultRing := {}
  /-- the context's PKBASE, SGBASE, HEAPBASE, HEAPLIM, HEAPOFF, PTROOT and PFQBASE (R220). Reset 0. -/
  ctx  : List Word := []
  /-- page-fault records written at PFQBASE (R226). -/
  pfq  : Nat := 0
  /-- network counters bound by NET.ARM: number, physical address (R419). Reset none. -/
  ctrs : List (Nat × Nat) := []
  /-- error rings of the counters, oldest first (R421). Reset empty. -/
  cqs  : List (Nat × List Word) := []
deriving DecidableEq, Repr

/-- Device-memory tile metadata beyond the bits in the store, and its place in the last-level cache (R218, R230 to R232). Log 9, DEDUCED. -/
structure Tile where
  version : Nat := 0
  /-- the tile is encrypted under its tenant's other epoch, not under KEYSTAT.EPOCH (R231) -/
  epoch   : Bool := false
  /-- the integrity tag of its latest encryption (R5, R230) -/
  tag     : BitVec 96 := 0
  /-- the key slot that its latest encryption used; none for a tile as bring-up has cleared it (R230, R444) -/
  under   : Option Nat := none
  /-- the KEYID that travels with it in the last-level cache (R230) -/
  keyid   : Nat := 0
  /-- the stored tile has an error that the tag check finds (R232) -/
  broken  : Bool := false
  /-- the next fill fails its tag check (R94, R95) -/
  inject  : Bool := false
  inCache : Bool := false
  dirty   : Bool := false
  /-- pinned until ROT clears (R231) -/
  pinned  : Bool := false
  /-- full words, poisoned sectors and has-parked flag of the tile in DRAM, where a failed fill has others installed (R232) -/
  stored  : Option (List Nat × List Nat × Bool) := none
deriving DecidableEq, Repr

/-- A tenant's key slot: KEYSTAT.EPOCH and ROT (R220, R231). -/
structure Key where
  epoch : Bool := false
  rot   : Bool := false
deriving DecidableEq, Repr

/-- A token bucket of one port and one context (R233, R234). -/
structure Bucket where
  port    : Nat
  ctx     : Nat
  prio    : Nat
  rate    : Nat
  ceiling : Nat
  tokens  : Nat
  /-- share of tokens accrued, in 2250ths of a token (R234) -/
  credit  : Nat := 0
  /-- tokens that a request larger than the ceiling has still to spend (R233) -/
  debt    : Nat := 0
deriving DecidableEq, Repr

/-- A link command that an engine has accepted (R403 to R410). -/
structure LinkCmd where
  id       : Nat
  op       : FabKind
  /-- physical identifier of the issuing core -/
  core     : Nat
  desc     : List Word
  target   : Word
  descAddr : Word
  port     : Nat
  pkg      : Nat
  len      : Nat
  /-- the local side lies in global memory; its runs of bytes -/
  lsp      : Bool
  pieces   : List Piece
  /-- bytes sent in frames so far, bytes settled by answers, and offsets of the answers that came -/
  sent     : Nat := 0
  acked    : Nat := 0
  back     : List Nat := []
  /-- popped result-queue entries with their poison (QEN) -/
  entries  : List (VWord × Bool) := []
  /-- bits that came for the first byte of a word of which the rest comes in another frame, by that byte's offset (R278, R405) -/
  bits     : List (Nat × Bool) := []
  /-- the 16-bit number of R406 and how often an atomic was sent -/
  seqNo    : Nat := 0
  sends    : Nat := 0
  /-- it has failed, and waits for the answers to the frames it sent (R325) -/
  dead     : Bool := false
  /-- the code with which it fails once its region's image is no longer held (R332) -/
  doom     : Option Nat := none
  cond     : Bool := false
  region   : Option Nat := none
  asid     : Nat := 0
  part     : Nat := 0
  task     : Nat := 0
  bundle   : Word := 0
  slot     : Nat := 0
  seq      : Nat := 0
deriving DecidableEq, Repr

/-- What has come of one contribution to a block (R408): its source package, engine and sequence number, the contributors that it carries, the
addresses of its parts, and the bytes still to come. -/
structure RedSource where
  src   : Nat × Nat × Nat
  n     : Nat
  parts : List Nat := []
  left  : Nat
deriving DecidableEq, Repr

/-- What the switches have gathered for one round of one block of a reduction window (R408). -/
structure RedBlock where
  part  : Nat
  win   : Nat
  round : Nat
  block : Nat
  /-- the contributions counted so far -/
  srcs  : List RedSource := []
  /-- merged elements of 32 bits, by element number -/
  sums  : List (Nat × Nat) := []
  /-- elements that poisoned data has reached -/
  bad   : List Nat := []
  /-- parts to be answered when the block is delivered, without their data -/
  reqs  : List FabReq := []
  done  : Bool := false
deriving DecidableEq, Repr

/-- One packet of a request: its number within the request, its peer sequence number, how often it was sent (R423), and the bytes
of its first send. -/
structure Pkt where
  idx   : Nat
  seq   : Nat
  sends : Nat := 0
  acked : Bool := false
  bytes : List Byte := []
deriving DecidableEq, Repr

/-- A network request accepted and not complete (R416 to R423). -/
structure NetReq where
  id     : Nat
  core   : Nat
  region : Option Nat := none
  asid   : Nat
  part   : Nat
  words  : List Word
  /-- runs of a source in global memory, fixed at acceptance -/
  pieces : List Piece := []
  pkts   : List Pkt
  bundle : Word := 0
  slot   : Nat := 0
  seq    : Nat := 0
  task   : Nat := 0
  /-- the code with which it fails once its region's image is no longer held (R332) -/
  doom   : Option Nat := none
deriving DecidableEq, Repr

/-- What this package has received from one network peer (R420, R422, R423). -/
structure PeerRx where
  part  : Nat
  peer  : Nat
  held  : List Nat := []
  /-- per request: its identity and the bytes placed -/
  reqs  : List (Nat × Nat) := []
  /-- numbers of packets that are being placed -/
  placing : List Nat := []
  /-- requests that have been refused: they never complete here (R420) -/
  refused : List Nat := []
deriving DecidableEq, Repr

/-- Directory states of a window tile (R384). -/
inductive DirState where
  | i | s | e | m | o
deriving DecidableEq, Repr

/-- A request that waits at the home of a tile (R383, R384). -/
structure DirReq where
  /-- 0 GetS, 1 GetM, 2 Drop -/
  kind   : Nat
  who    : Nat
  /-- a drop from another package brings the copy, says whether it had moved to M, and whether it leaves the window -/
  data   : List (Byte × Bool × Bool) := []
  hadM   : Bool := false
  leaves : Bool := false
deriving DecidableEq, Repr

/-- A directory entry (R383). -/
structure DirTile where
  st     : DirState := .i
  owner  : Nat := 0
  sharers : List Nat := []
  /-- last release marker -/
  marker : Nat := 0
  /-- the request in progress: requester and kind (0 GetS, 1 GetM) -/
  busy   : Option (Nat × Nat) := none
  /-- participants whose invalidation or forward has not been answered -/
  waits  : List Nat := []
  /-- requests that wait behind it, in the order of their arrival -/
  queue  : List DirReq := []
  /-- the copy that an owner in another package has sent for the request in progress -/
  carry  : List (Byte × Bool × Bool) := []
deriving DecidableEq, Repr

/-- A window homed at this package (R378, R383). -/
structure DirWin where
  wid      : Nat
  image    : Nat
  /-- physical pages that hold the image, in order -/
  frames   : List Nat
  tl       : Nat
  nt       : Nat
  /-- a tile has been lost (R393) -/
  degraded : Bool := false
  /-- participant number, physical core, may write -/
  parts    : List (Nat × Nat × Bool) := []
  /-- participants in other packages: participant number, package (R391) -/
  away     : List (Nat × Nat) := []
  tiles    : List DirTile
deriving DecidableEq, Repr

/-- The scan rotation controller of one die (R349 to R351). -/
structure ScanDie where
  /-- SSEQ. Reset 0. -/
  sseq    : Nat := 0
  /-- physical cores retired for good -/
  retired : List Nat := []
  /-- physical cores in the order of their last passed scan, latest first -/
  passed  : List Nat := []
  /-- the physical core picked for this slot, and the clk of the swap request -/
  pick    : Option (Nat × Nat) := none
  /-- the physical core drained and now in scan -/
  inScan  : Option Nat := none
  /-- refused cores, first in line (R350) -/
  refused : List Nat := []
  /-- cores tried in this slot (R350) -/
  tried   : List Nat := []
  stopped : Bool := false
deriving DecidableEq, Repr

/-- A completion record that awaits its verdict (R353): its physical address, the cores it marks and those cleared since. -/
structure Await where
  /-- identifier of the launch, and its partition -/
  no      : Nat
  part    : Nat
  compl   : Nat
  /-- physical address of its word 29 -/
  word29  : Nat
  cores   : List Nat
  epochs  : List Nat
  cleared : List Nat := []
deriving DecidableEq, Repr

/-- A host work queue (R372 to R376). -/
structure WorkQueue where
  base : Word := 0
  cfg  : Word := 0
  err  : Bool := false
  code : Nat := 0
  head : Nat := 0
  tail : Nat := 0
  /-- clk at which the active queue last came to have no entry to read (R376) -/
  idle : Nat := 0
deriving DecidableEq, Repr

/-- A trusted device interface: its state and its HDM access table (R370): start, end, read, write, KEYID. -/
structure Iface where
  st    : TdispState := .configUnlocked
  table : List (Nat × Nat × Bool × Bool × Nat) := []
deriving DecidableEq, Repr

/-- An answer to a host access (R370): the bytes, CXL poison, and the error response. -/
structure HostReply where
  iface  : Nat
  write  : Bool
  bytes  : List Byte
  poison : Bool
  error  : Bool
deriving DecidableEq, Repr

/-- A page that the migration controller has been asked to move (R439). -/
structure MigReq where
  asid   : Nat
  part   : Nat
  va     : Nat
  toHost : Bool
deriving DecidableEq, Repr

/-- A word that a chunk, a frame or a packet writes: its number in its space, the bits of it that are written, the full/empty bit that it
takes with them, and the element format of an addition in place of a write (R267, R278, R299, R405, R422). -/
structure FlightWord where
  no   : Nat
  val  : Word
  mask : Word
  bit  : Option Bool
  sum  : Option Nat := none
deriving DecidableEq, Repr

/-- A multicast chunk on its way to a receiver (R291, R292, R324). -/
structure Mcast where
  /-- receiving physical core, ring, and the entry that the chunk is made for -/
  core   : Nat
  ring   : Nat
  entry  : Nat
  /-- the entry was not reserved yet when the chunk left -/
  first  : Bool
  /-- its bytes in the receiver's scratchpad: the lowest address and their number, the words, and the sectors of `Flight` -/
  at'    : Nat
  bytes  : Nat
  words  : List FlightWord
  bad    : List Nat
  clean  : List Nat
  /-- sending core, its command and what the command gives the chunk -/
  src    : Nat
  cmd    : Nat
  region : Option Nat
  cond   : Bool
  bar    : Option Nat
  bundle : Word
  slot   : Nat
  seq    : Nat
  /-- size of the whole message in destination bytes at this receiver -/
  total  : Nat
  last   : Bool
deriving DecidableEq, Repr

/-- Boot and firmware state of the vat die (R444, R445). Log 4, DESIGN CHOICE. -/
structure Boot where
  /-- the package has left step 1 -/
  isUp     : Bool := true
  /-- digest and version of the firmware that booted -/
  digest   : Nat := 0
  version  : Nat := 0
  /-- security version in fuses -/
  fuse     : Nat := 0
  /-- image in the inactive flash bank: bytes, version, whether its signature checks -/
  inactive : Option (List Byte × Nat × Bool) := none
  cause    : ResetCause := .powerOn
  /-- package resets so far -/
  resets   : Nat := 0
deriving DecidableEq, Repr

/-- Messages of the SPDM requester that the responder answers (R438). -/
inductive SpdmReply where
  | version (v : Nat)
  | capabilities
  | algorithms (sig hash : Nat)
  | digests (slots : List Nat)
  | certificate (slot : Nat) (chain : Nat)
  | challengeAuth (nonce : Word) (sig : Nat)
  | measurements (blocks : List (Nat × Nat)) (sig : Nat)
  | keyExchange (session : Nat) (sig : Nat)
  | finish (session : Nat)
  | error
deriving DecidableEq, Repr

/-- State of the SPDM responder (R438). -/
structure Spdm where
  version      : Bool := false
  capabilities : Bool := false
  algorithms   : Bool := false
  /-- sessions: identifier and whether FINISH has completed it -/
  sessions     : List (Nat × Bool) := []
  nextSession  : Nat := 1
deriving DecidableEq, Repr

/-- Answers on the management interface (R445, R448, R449). -/
inductive MgmtReply where
  | identity (digest version : Nat)
  | status (isUp : Bool)
  | power (watts : List Nat)
  | temperature (degrees : List Nat)
  | ageing (margins : List Int)
  /-- SSEQ and spares left of each die, and whether its rotation has stopped -/
  | scan (dies : List (Nat × Nat × Bool))
  | resetCause (cause : ResetCause)
deriving DecidableEq, Repr

/-- What a step without a slot word concerns; each meaning says which of these it reads. -/
structure Args where
  n      : Nat := 0
  m      : Nat := 0
  p      : Nat := 0
  w      : Word := 0
  flag   : Bool := false
  list   : List Nat := []
  bytes  : List Byte := []
  margin : Int := 0
  req    : Option FabReq := none
  ack    : Option FabAck := none
  pkt    : Option NetPacket := none
  host   : Option HostAccess := none
  tdisp  : TdispState := .error
  cause  : ResetCause := .powerOn
deriving DecidableEq, Repr

/-- A step that is under way or due: what runs, on which core (physical identifier), with what, and not before which clk. -/
structure Due where
  instr : Instr
  core  : Nat := 0
  args  : Args := {}
  at'   : Nat := 0
deriving DecidableEq, Repr

/-- Whose writes they are: a copy command's, those of this core's link commands and receives, or those that other packages and peers send. -/
inductive FlightPath where
  | copy | link | away
deriving DecidableEq, Repr

/-- The words of a chunk, frame or packet that are still to be written, and what their last word brings (R267, R275, R289, R299, R405,
R407, R422). -/
structure Flight where
  no      : Nat
  /-- the core whose scratchpad or copy engine writes -/
  core    : Nat
  /-- the commanding core, its command and its region; a command of the conductor -/
  src     : Nat
  cmd     : Nat
  region  : Option Nat
  cond    : Bool
  /-- scratchpad, or physical memory -/
  sp      : Bool
  words   : List FlightWord
  /-- sectors that poisoned data reaches, and sectors written whole with clean data, by number (R280, R345) -/
  bad     : List Nat
  clean   : List Nat
  /-- words whose full/empty bit has changed, for the wake behind the chunk (R278) -/
  changed : List (Nat × Bool) := []
  /-- bytes that the last word counts, and the barriers that count them, by core -/
  bytes   : Nat
  counts  : List (Nat × Nat)
  /-- the multicast ring entry that completes with it (R291) -/
  fill    : Option (Nat × Nat) := none
  path    : FlightPath := .copy
  /-- the partition whose pages are written, where it is not the core's -/
  part    : Option Nat := none
  /-- barriers of the issuing core that counted the chunk as it left; a phase of one of them has completed since; the core has observed that
  (R285, R295 to R297) -/
  early   : List Nat := []
  flipped : Bool := false
  seen    : Bool := false
  /-- the messages it is one of, which complete in the order of their arrival (R407) -/
  lane    : Option (List Nat) := none
  /-- the receive whose counter goes down with it (R407) -/
  recv    : Option Receive := none
  /-- the answers that leave behind it, and the acts owed then -/
  acks    : List FabAck := []
  after   : List Due := []
deriving DecidableEq, Repr

/-- The state of one package. -/
structure State where
  /-- the core whose slot or step runs; every other core stands in `others` -/
  core     : Core := {}
  /-- the other cores by physical identifier 132 * die + PHYS, or 1056 + die for a conductor core; one that is not listed is as
  core reset leaves it (R30, R33). Reset none. -/
  others   : List (Nat × Core) := []
  /-- device memory and host memory by physical address (R215), with full/empty, poison and has-parked bits (R5). Reset cleared (R444). -/
  mem      : Store := {}
  /-- operands of a step without a slot word. -/
  args     : Args := {}
  /-- clk since package reset. -/
  clk      : Nat := 0
  /-- package time (R367). Reset 0. -/
  pktime   : Nat := 0
  /-- pod time in ns (R399). Reset 0. -/
  podtime  : Nat := 0
  /-- pod time is within 20 ns of the master's, or the package is outside any pod (R36). Reset false. -/
  podSync  : Bool := false
  /-- a link has trained, so pod time runs (R399). Reset false. -/
  podRuns  : Bool := false
  /-- the package belongs to a pod (R398). Reset outside a pod. -/
  inPod    : Bool := false
  /-- package number in the pod (R398). Reset 0. -/
  pkg      : Nat := 0
  /-- packages declared lost (R402). Reset none. -/
  lost     : List Nat := []
  /-- MODEL: counter from which free values are drawn. Log 2, DESIGN CHOICE. -/
  free     : Nat := 0
  /-- messages from the surroundings, oldest first. Log 48, DESIGN CHOICE. -/
  inbox    : List Due := []
  /-- steps of the package that are due, oldest first. -/
  todo     : List Due := []
  /-- steps that fall due at a clk. -/
  timers   : List Due := []
  /-- wakes posted and not yet served (R121). Reset none. -/
  wakes    : List Wake := []
  /-- live regions (R194). Reset none. -/
  regions  : List Region := []
  /-- programs handed to the loader (R18, R175). Reset none. Log 1, DESIGN CHOICE. -/
  programs : List Program := []
  /-- tasks not done (R183). Reset none. -/
  tasks    : List Task := []
  /-- sorus schedulers with a tree, a counter or a task (R187). Reset none. -/
  soruses  : List Sorus := []
  /-- identifier given to the next region. -/
  nextRgn  : Nat := 0
  /-- the 64 partitions (R429). Reset FREE. -/
  parts    : Vector Partition 64 := Vector.replicate 64 {}
  /-- seals made so far (R435). -/
  seals    : Nat := 0
  /-- address spaces that differ from reset (R220). Reset none. -/
  asids    : List (Nat × Asid) := []
  /-- tiles whose metadata or place differs from reset (R230). Reset none. -/
  tiles    : List (Nat × Tile) := []
  /-- key slots that differ from reset (R230, R231). Reset none. -/
  keys     : List (Nat × Key) := []
  /-- token buckets (R233). Reset none. -/
  buckets  : List Bucket := []
  /-- MODEL: last-level-cache ports that the act now made has asked, and the priority of its request (R233). Reset none. -/
  asked    : List Nat := []
  askPrio  : Nat := 0
  /-- Kwantorin ports that differ from reset (R398). Reset down. -/
  ports    : List (Nat × Port) := []
  /-- link commands accepted and not complete (R403). Reset none. -/
  links    : List LinkCmd := []
  /-- identifier given to the next link command. -/
  nextLink : Nat := 0
  /-- sequence numbers of the link engines, by port, and of their atomics and poison requests, by 96 + port (R406). Reset 0. -/
  linkSeq  : List (Nat × Nat) := []
  /-- replay cache: source package, engine, sequence, result with its poison (R406). Reset empty. -/
  replay   : List (Nat × Nat × Nat × Word × Bool) := []
  /-- requests and answers sent to other packages, oldest first. Reset none. Log 48, DESIGN CHOICE. -/
  fabOut   : List FabReq := []
  /-- answers sent to other packages, oldest first. Reset none. -/
  ackOut   : List FabAck := []
  /-- time messages sent: port and pod time (R399). Reset none. -/
  timeOut  : List (Nat × Nat) := []
  /-- rounds gathered by the reduction windows (R408). Reset none. -/
  reds     : List RedBlock := []
  /-- network requests not complete (R418). Reset none. -/
  nets     : List NetReq := []
  /-- identifier given to the next network request. -/
  nextNet  : Nat := 0
  /-- next packet sequence number of each peer, 2^16 * partition + entry (R423). Reset 0. -/
  peerSeq  : List (Nat × Nat) := []
  /-- what has arrived from each peer (R423). Reset none. -/
  peerRx   : List PeerRx := []
  /-- packets sent, oldest first. Reset none. -/
  netOut   : List NetPacket := []
  /-- selective acknowledgements sent, oldest first. Reset none. -/
  sackOut  : List NetSack := []
  /-- windows homed here (R383). Reset none. -/
  dir      : List DirWin := []
  /-- multicast chunks on their way (R291). Reset none. -/
  mcasts   : List Mcast := []
  /-- chunks, frames and packets being written, in no order (R267, R299). Reset empty. -/
  flights  : List Flight := []
  /-- scan rotation controllers of dies 0 to 7 (R349). Reset as the field defaults. -/
  scans    : Vector ScanDie 8 := Vector.replicate 8 {}
  /-- completion records without a verdict (R353). Reset none. -/
  awaits   : List Await := []
  /-- clock plan in force (R354). Installed at boot; 0 is never assigned. -/
  plan     : BitVec 16 := 1
  /-- a plan that waits until R354 allows it. Reset none. -/
  planDue  : Option (BitVec 16) := none
  /-- work queues that differ from reset (R372). Reset 0. -/
  wqs      : List (Nat × WorkQueue) := []
  /-- active work queues (R376). Reset none. -/
  active   : List Nat := []
  /-- queues pending for a place, in doorbell order (R376). Reset none. -/
  pendingQ : List Nat := []
  /-- MSI-X vectors sent to the host (R375). Reset none. -/
  msix     : List Nat := []
  /-- interrupt routing entries that are set, with the partition that bound each (R377, R431). Reset 0. -/
  routes   : List (Nat × Word × Nat) := []
  /-- trusted device interfaces that differ from reset (R370). Reset CONFIG_UNLOCKED. -/
  ifaces   : List (Nat × Iface) := []
  /-- answers to host accesses, oldest first. Reset none. -/
  hostOut  : List HostReply := []
  /-- host lines of 64 bytes that a sorus cache holds dirty, with the partition that wrote them (R217, R369, R371). Reset none. -/
  hostDirty : List (Nat × Nat) := []
  /-- pages that the migration controller has moved: the page that the tables name, and where it lies now (R229, R439). Reset none. -/
  moved    : List (Nat × Nat) := []
  /-- free pages handed to the migration controller: in device and in host memory (R225, R439). Reset none. -/
  spareDev  : List Nat := []
  spareHost : List Nat := []
  /-- pages the migration controller is asked to move, in order of arrival (R439). Reset none. -/
  migs     : List MigReq := []
  /-- FEAT0.OFFER (R427). Set by firmware at boot. -/
  feat0    : BitVec 7 := 0x3F
  /-- FEATACK0.ACK (R428). Reset 0. -/
  featack  : BitVec 7 := 0
  /-- FEATACK0 has been written since package reset (R428). Reset false. -/
  featSet  : Bool := false
  /-- boot and firmware (R444, R445). -/
  boot     : Boot := {}
  /-- SPDM responder (R438). Reset as the field defaults. -/
  spdm     : Spdm := {}
  /-- SPDM answers, oldest first. Reset none. -/
  spdmOut  : List SpdmReply := []
  /-- ageing margin of each die in mV, as last reported (R449). -/
  margins  : Vector Int 8 := Vector.replicate 8 100
  /-- firmware has been asked for a new clock plan (R449). Reset false. -/
  planAsk  : Bool := false
  /-- power limit that the management controller has set, in W (R447). Reset none. -/
  limit    : Option Nat := none
  /-- the limit is still to be met by a plan (R447, R448). Reset false. -/
  limitDue : Bool := false
  /-- answers sent on the management interface, oldest first. Reset none. -/
  mgmtOut  : List MgmtReply := []
  /-- dies whose scan rotation firmware has reported as stopped (R351). Reset none. -/
  scanDown : List Nat := []
deriving DecidableEq, Repr

/-- Reasons the machine stops. -/
inductive Fault where
  /-- raised by no step: a message of the surroundings that names a die, core, port, partition, window or address that the package
  does not have is passed over. Safe. Log 78, DESIGN CHOICE. -/
  | noSuchUnit
deriving DecidableEq, Repr

/-- Reasons the model gives no meaning. -/
inductive Refusal where
  /-- raised by the dispatcher alone, for an instruction without a meaning in this model; carries its mnemonic. Safe. -/
  | notModelled (mnemonic : String)
deriving DecidableEq, Repr

/-- The outcome of one step. -/
abbrev Outcome := Host.Outcome State Fault Refusal

/-- Core `id` right after core reset (R30, R33). Log 4, DESIGN CHOICE. Log 84, DESIGN CHOICE. -/
def Core.atReset (id : Nat) : Core :=
  if id < 1056 then
    { die := id / 132, phys := id % 132, spare := decide (128 ≤ id % 132),
      lcore := if id % 132 < 128 then id % 132 else 0x7F }
  else
    { die := id - 1056, phys := 0, lcore := 0x7F, cond := true, skew := #v[4, 28, 76, 76, 76, 76, 76, 28] }

/-- The package right after reset: booted (R444), every core halted, every partition FREE (R429). Log 1, DESIGN CHOICE. Log 4, DESIGN CHOICE. -/
def State.reset : State :=
  { core := Core.atReset 0, timers := (List.range 8).map fun n => { instr := .scanSlot, args := { n := n }, at' := 3375000 } }

end Sys2Proof.Machine
end

