-- ==== Sys2Proof/Machine/Mem.lean ====
section
/-!
DEFINITION. The stores: bytes, full/empty bits, poison and has-parked flags in one canonical form, little-endian accesses
(R6), the physical address map (R215) and the numbers of words, sectors, blocks and tiles (R11).
-/

namespace Sys2Proof.Machine

/-- What an unlisted address reads as: the cleared tile of R444; for scratchpad and host memory a choice of the model. Log 5, DESIGN CHOICE. -/
def unlisted : Byte := 0

/-! ### Sorted lists -/

/-- Read a cell. Log 5, DESIGN CHOICE. -/
def cellGet : List Host.Cell → Nat → Byte
  | [], _ => unlisted
  | (a, b) :: r, x => if x = a then b else cellGet r x

/-- Write a cell, keeping the addresses rising and dropping the value an unlisted address reads as. -/
def cellPut : List Host.Cell → Nat → Byte → List Host.Cell
  | [], x, v => if v = unlisted then [] else [(x, v)]
  | (a, b) :: r, x, v =>
    if x < a then (if v = unlisted then (a, b) :: r else (x, v) :: (a, b) :: r)
    else if x = a then (if v = unlisted then r else (x, v) :: r)
    else (a, b) :: cellPut r x v

/-- Membership of a number. -/
def numHas (l : List Nat) (x : Nat) : Bool := l.any fun y => decide (x = y)

/-- Put a number into a rising list. -/
def numAdd : List Nat → Nat → List Nat
  | [], x => [x]
  | a :: r, x => if x < a then x :: a :: r else if x = a then a :: r else a :: numAdd r x

/-- Take a number out. -/
def numDel (l : List Nat) (x : Nat) : List Nat := l.filter fun y => decide (y ≠ x)

/-- Put a number in or take it out. -/
def numSet (l : List Nat) (x : Nat) (v : Bool) : List Nat := if v then numAdd l x else numDel l x

/-- Strictly rising numbers. -/
def risingFrom : Nat → List Nat → Bool
  | _, [] => true
  | m, a :: r => decide (m ≤ a) && risingFrom (a + 1) r

/-- Cells with strictly rising addresses and no value that an unlisted address reads as. -/
def cellsFrom : Nat → List Host.Cell → Bool
  | _, [] => true
  | m, (a, b) :: r => decide (m ≤ a) && (b != unlisted) && cellsFrom (a + 1) r

/-- The one canonical form of a store. -/
def Memory.wf (m : Store) : Bool :=
  cellsFrom 0 m.bytes && risingFrom 0 m.full && risingFrom 0 m.poison && risingFrom 0 m.parked

/-- Look a key up. -/
def assocGet {α : Type} (l : List (Nat × α)) (x : Nat) : Option α := (l.find? fun e => decide (e.1 = x)).map fun e => e.2

/-- Set a key, keeping the keys rising. -/
def assocPut {α : Type} : List (Nat × α) → Nat → α → List (Nat × α)
  | [], x, v => [(x, v)]
  | (a, b) :: r, x, v => if x < a then (x, v) :: (a, b) :: r else if x = a then (x, v) :: r else (a, b) :: assocPut r x v

/-- Forget a key. -/
def assocDel {α : Type} (l : List (Nat × α)) (x : Nat) : List (Nat × α) := l.filter fun e => decide (e.1 ≠ x)

/-! ### The physical address space (R215) -/

/-- Tier 1: eight dies of 32 GiB. -/
def inTier1 (pa : Nat) : Bool := decide (pa < 0x4000000000)
/-- Tier 2: 384 GiB. -/
def inTier2 (pa : Nat) : Bool := decide (0x4000000000 ≤ pa ∧ pa < 0xA000000000)
/-- Device memory. -/
def inDevice (pa : Nat) : Bool := inTier1 pa || inTier2 pa
/-- Host memory. -/
def inHost (pa : Nat) : Bool := decide (0x8000000000000 ≤ pa ∧ pa < 0x8008000000000)
/-- Every other address is a hole. -/
def inHole (pa : Nat) : Bool := !(inDevice pa || inHost pa)
/-- The die that owns a tier-1 address. -/
def dieOf (pa : Nat) : Nat := pa / 0x800000000

/-! ### Bytes and words -/

/-- The number that a byte string holds, least significant byte first (R6). -/
def leNat : List Byte → Nat
  | [] => 0
  | b :: r => b.toNat + 256 * leNat r

/-- The n low bytes of a number, least significant first (R6). -/
def leBytes : Nat → Nat → List Byte
  | 0, _ => []
  | n + 1, v => BitVec.ofNat 8 v :: leBytes n (v / 256)

/-- Word number of an address (R11). -/
def wordNo (a : Nat) : Nat := a / 8
/-- Sector number of an address (R11). -/
def sectorNo (a : Nat) : Nat := a / 32
/-- Tile or scratchpad block number of an address (R11, R121). -/
def tileNo (a : Nat) : Nat := a / 4096

/-- Bytes a to a + n - 1. -/
def Store.read (m : Store) (a : Nat) : Nat → List Byte
  | 0 => []
  | n + 1 => cellGet m.bytes a :: m.read (a + 1) n

/-- Write bytes from address a on. -/
def putBytes (l : List Host.Cell) : Nat → List Byte → List Host.Cell
  | _, [] => l
  | a, b :: r => putBytes (cellPut l a b) (a + 1) r

/-- The full/empty bit of the word that holds address a (R97). -/
def Store.fe (m : Store) (a : Nat) : Bool := numHas m.full (wordNo a)

/-- Set that bit. -/
def Store.setFe (m : Store) (a : Nat) (v : Bool) : Store := { m with full := numSet m.full (wordNo a) v }

/-- The poison bit of the sector that holds address a (R344); host memory that does not answer reads as poison (R371). -/
def Store.poisoned (m : Store) (a : Nat) : Bool := numHas m.poison (sectorNo a) || (m.dark && inHost a)

/-- Set that bit. -/
def Store.setPoison (m : Store) (a : Nat) (v : Bool) : Store := { m with poison := numSet m.poison (sectorNo a) v }

/-- The has-parked flag of the tile or block that holds address a (R121). -/
def Store.isParked (m : Store) (a : Nat) : Bool := numHas m.parked (tileNo a)

/-- Set that flag. -/
def Store.setParked (m : Store) (a : Nat) (v : Bool) : Store := { m with parked := numSet m.parked (tileNo a) v }

/-- Some byte of a to a + n - 1 lies in a poisoned sector. -/
def Store.anyPoison (m : Store) (a : Nat) : Nat → Bool
  | 0 => false
  | n + 1 => m.poisoned a || m.anyPoison (a + 1) n

/-- Sectors that a write of n bytes from a covers whole, starting at sector s (R345). -/
def clearSectors (l : List Nat) (a n : Nat) : Nat → Nat → List Nat
  | _, 0 => l
  | s, k + 1 => clearSectors (if a ≤ 32 * s ∧ 32 * s + 32 ≤ a + n then numDel l s else l) a n (s + 1) k

/-- One write of unpoisoned bytes: it clears the poison of every sector it writes whole, and of no other (R345). -/
def Store.write (m : Store) (a : Nat) (bs : List Byte) : Store :=
  { m with bytes := putBytes m.bytes a bs,
           poison := clearSectors m.poison a bs.length (sectorNo a) (bs.length / 32 + 2) }

/-- The loader's write of part of a program image: the bytes, and the full/empty bit of every word they write (R19). -/
def Store.load (m : Store) (a : Nat) (bs : List Byte) (fe : Bool) : Store :=
  (List.range ((a + bs.length + 7) / 8 - a / 8)).foldl (fun (m : Store) i => m.setFe (8 * (a / 8 + i)) fe) (m.write a bs)

/-- An 8-byte word, little-endian. -/
def Store.word (m : Store) (a : Nat) : Word := BitVec.ofNat 64 (leNat (m.read a 8))

/-- Write an 8-byte word. -/
def Store.putWord (m : Store) (a : Nat) (w : Word) : Store := m.write a (leBytes 8 w.toNat)

/-- The full words, the poisoned sectors and the has-parked flag of tile n (R5). -/
def Store.tileBits (m : Store) (n : Nat) : List Nat × List Nat × Bool :=
  (m.full.filter fun w => decide (w / 512 = n), m.poison.filter fun x => decide (x / 128 = n), numHas m.parked n)

/-- Put other bits into tile n. -/
def Store.setTileBits (m : Store) (n : Nat) (b : List Nat × List Nat × Bool) : Store :=
  { m with full := b.1.foldl numAdd (m.full.filter fun w => decide (w / 512 ≠ n))
           poison := b.2.1.foldl numAdd (m.poison.filter fun x => decide (x / 128 ≠ n))
           parked := numSet m.parked n b.2.2 }

end Sys2Proof.Machine
end

