-- ==== Sys2Proof/Machine/Flags.lean ====
section
/-!
DEFINITION. The conditions that vector and matrix slots record: the sticky bits of VSTAT (R138, R144, R145) and of MXSTAT
(R260).
-/

namespace Sys2Proof.Machine

/-- Conditions at their VSTAT places (R144). -/
abbrev Conds := BitVec 64

/-- NX: inexact (R138). -/
def condNX : Conds := 0x008
/-- UF: underflow (R138). -/
def condUF : Conds := 0x010
/-- OF: overflow; it also records NX (R138, R145). -/
def condOF : Conds := 0x028
/-- DZ: an exact infinity from a finite operand (R144, R155). -/
def condDZ : Conds := 0x040
/-- NV: invalid (R138, R145). -/
def condNV : Conds := 0x080
/-- SAT: an integer result was clamped by VSAT or VPACK (R144). -/
def condSAT : Conds := 0x100

/-- A slot ORs its conditions into the sticky bits (R145). -/
def Core.record (c : Core) (f : Conds) : Core := { c with vstat := c.vstat ||| (f &&& 0x1F8) }

/-- VSTAT as its control fields rule the executing slot: a WRSR of the slot's own bundle governs later bundles only (R89, R91). -/
def Core.control (c : Core) : Word := (assocGet c.olds 0x100).getD c.vstat

/-- The rounding mode in VSTAT.RM (R134, R144). -/
def Core.mode (c : Core) : Nat := c.control.toNat % 4

/-- MXSTAT.NAN (R260). -/
def mxNAN : Word := 0x8
/-- MXSTAT.POIS (R260). -/
def mxPOIS : Word := 0x4
/-- MXSTAT.SAT (R260). -/
def mxSAT : Word := 0x2

/-- A matrix slot ORs its conditions into MXSTAT (R254, R260). -/
def Core.recordMx (c : Core) (f : Word) : Core := { c with mxstat := c.mxstat ||| f }

end Sys2Proof.Machine
end

