-- ==== Sys2Proof/Machine/Formats.lean ====
section
/-!
DEFINITION. The number formats, rounding and conversion (R126 to R139), and floating arithmetic on exact values (R146,
R151). A finite value is a sign, a magnitude m and a power q: m * 2 ^ q.
-/

namespace Sys2Proof.Machine

/-- A decoded element: NaN, an infinity or an exact value with its sign. -/
inductive Val where
  | nan
  | inf (neg : Bool)
  | fin (neg : Bool) (m : Nat) (q : Int)
deriving DecidableEq, Repr

/-- The formats of R126. A binary8 format has a precision, is signed or not and extended or not. -/
inductive Fmt where
  | int (signed : Bool) (bits : Nat)
  | f32 | f16 | b16
  | b8 (p : Nat) (signed extended : Bool)
deriving DecidableEq, Repr

/-- The format of a code; reserved codes have none (R126). -/
def fmtOf (code : Nat) : Option Fmt :=
  if code < 4 then some (.int false (8 * 2 ^ code))
  else if code < 8 then some (.int true (8 * 2 ^ (code - 4)))
  else if code = 0x08 then some .f32
  else if code = 0x09 then some .f16
  else if code = 0x0A then some .b16
  else if code = 0x10 then some (.int false 1)
  else if code = 0x11 then some (.int false 2)
  else if code = 0x12 then some (.int true 2)
  else if code = 0x13 then some (.int false 4)
  else if code = 0x14 then some (.int true 4)
  else if 0x20 ≤ code ∧ code < 0x40 ∧ code % 8 ≠ 0 then
    some (.b8 (code % 8) (code / 16 % 2 == 0) (code / 8 % 2 == 0))
  else none

/-- Width in bits (R126). -/
def Fmt.bits : Fmt → Nat
  | .int _ n => n
  | .f32 => 32
  | .f16 => 16
  | .b16 => 16
  | .b8 _ _ _ => 8

/-- An integer format. -/
def Fmt.isInt : Fmt → Bool
  | .int _ _ => true
  | _ => false

/-- What a floating format's encoding is made of: precision, exponent of the smallest normal value, bias term b of the
exponent field, width without the sign, and whether it has a sign, an infinity and a negative zero (R128, R131). -/
structure Layout where
  p       : Nat
  emin    : Int
  body    : Nat
  signed  : Bool
  hasInf  : Bool
  negZero : Bool
  /-- code of the largest positive finite value -/
  top     : Nat
  /-- codes of positive infinity and of the NaN that operations produce -/
  infCode : Nat
  nanCode : Nat
deriving DecidableEq, Repr

/-- The layout of a floating format (R128, R131, R132). -/
def Fmt.layout : Fmt → Layout
  | .f16 => { p := 11, emin := -14, body := 15, signed := true, hasInf := true, negZero := true,
              top := 0x7BFF, infCode := 0x7C00, nanCode := 0x7E00 }
  | .b16 => { p := 8, emin := -126, body := 15, signed := true, hasInf := true, negZero := true,
              top := 0x7F7F, infCode := 0x7F80, nanCode := 0x7FC0 }
  | .b8 p true ext => { p := p, emin := 1 - (2 ^ (7 - p) : Nat), body := 7, signed := true, hasInf := ext, negZero := false,
                        top := if ext then 0x7E else 0x7F, infCode := 0x7F, nanCode := 0x80 }
  | .b8 p false ext => { p := p, emin := 1 - (2 ^ (8 - p) : Nat), body := 8, signed := false, hasInf := ext, negZero := false,
                         top := if ext then 0xFD else 0xFE, infCode := 0xFE, nanCode := 0xFF }
  | _ => { p := 24, emin := -126, body := 31, signed := true, hasInf := true, negZero := true,
           top := 0x7F7FFFFF, infCode := 0x7F800000, nanCode := 0x7FC00000 }

/-- The finite value that the body of a code holds (R128, R131). -/
def Layout.body? (l : Layout) (c : Nat) : Nat × Int :=
  let t := c % 2 ^ (l.p - 1)
  let e := c / 2 ^ (l.p - 1)
  if e = 0 then (t, l.emin - (l.p : Int) + 1) else (2 ^ (l.p - 1) + t, l.emin + (e : Int) - (l.p : Int))

/-- Two's complement of the low n bits. -/
def signedOf (n v : Nat) : Int := if 2 ^ (n - 1) ≤ v % 2 ^ n then (v % 2 ^ n : Int) - 2 ^ n else (v % 2 ^ n : Int)

/-- The value of a code (R128, R130, R131). -/
def decodeVal (f : Fmt) (c : Nat) : Val :=
  match f with
  | .int s n =>
    let v := if s then signedOf n c else ((c % 2 ^ n : Nat) : Int)
    .fin (decide (v < 0)) v.natAbs 0
  | .b8 _ signed ext =>
    let l := f.layout
    let c := c % 256
    if c = l.nanCode then .nan
    else if ext && decide (c = l.infCode) then .inf false
    else if signed && ext && decide (c = 0xFF) then .inf true
    else
      let (m, q) := l.body? (c % 2 ^ l.body)
      .fin (signed && decide (128 ≤ c)) m q
  | _ =>
    let l := f.layout
    let neg := decide (2 ^ l.body ≤ c % 2 ^ (l.body + 1))
    let b := c % 2 ^ l.body
    if l.infCode < b then .nan
    else if b = l.infCode then .inf neg
    else
      let (m, q) := l.body? b
      .fin neg m q

/-- The code of m * 2 ^ q, which lies on the format's grid and is not beyond its largest value. -/
def Layout.encode (l : Layout) (neg : Bool) (m : Nat) (q : Int) : Nat :=
  let s := if neg && l.signed then 2 ^ l.body else 0
  if m = 0 then (if l.negZero then s else 0)
  else
    let e : Int := (Nat.log2 m : Int) + q
    let unit := if e < l.emin then l.emin - (l.p : Int) + 1 else e - (l.p : Int) + 1
    let n := if unit ≤ q then m * 2 ^ (q - unit).toNat else m / 2 ^ (unit - q).toNat
    s + (if e < l.emin then n else n - 2 ^ (l.p - 1) + (e - l.emin + 1).toNat * 2 ^ (l.p - 1))

/-- The code of an infinity, or NaN where the format has none (R135, R137). -/
def Layout.infinity (l : Layout) (neg : Bool) : Nat :=
  if l.hasInf then l.infCode + (if neg then 2 ^ l.body else 0) else l.nanCode

/-- The code of the largest finite value with a sign. -/
def Layout.largest (l : Layout) (neg : Bool) : Nat := l.top + (if neg && l.signed then 2 ^ l.body else 0)

/-- a * 2 ^ p < b * 2 ^ q. -/
def dyLt (a : Nat) (p : Int) (b : Nat) (q : Int) : Bool :=
  if q ≤ p then decide (a * 2 ^ (p - q).toNat < b) else decide (a < b * 2 ^ (q - p).toNat)

/-- Whether a magnitude between two neighbours goes to the upper one: the part r of 2 ^ k (k bits dropped), more below it
(`tail`), and whether the lower neighbour is even (R134). -/
def roundsUp (mode : Nat) (neg : Bool) (r k : Nat) (tail odd : Bool) : Bool :=
  if r = 0 && !tail then false
  else match mode with
    | 0 => decide (2 ^ k < 2 * r) || (decide (2 * r = 2 ^ k) && (tail || odd))
    | 1 => false
    | 2 => !neg
    | _ => neg

/-- round_to of R134 with R135: the magnitude m * 2 ^ q, strictly more below its last bit when `tail`; a zero m keeps its
sign. Answers the code and the conditions of R138. Log 19, DEDUCED. -/
def roundTo (f : Fmt) (mode : Nat) (sat : Bool) (neg : Bool) (m : Nat) (q : Int) (tail : Bool) : Nat × Conds :=
  let l := f.layout
  if m = 0 && !tail then (l.encode neg 0 0, 0)
  else
    let e : Int := if m = 0 then q else (Nat.log2 m : Int) + q
    let unit := max (l.emin - (l.p : Int) + 1) (e - (l.p : Int) + 1)
    let k := (unit - q).toNat
    let n := if unit ≤ q then m * 2 ^ (q - unit).toNat else m / 2 ^ k
    let r := if unit ≤ q then 0 else m % 2 ^ k
    let odd := if 2 ≤ l.p then decide (n % 2 = 1) else decide (n ≠ 0 ∧ ((Nat.log2 n : Int) + unit) % 2 ≠ 0)
    let n' := if roundsUp mode neg r k tail odd then n + 1 else n
    let inexact := decide (r ≠ 0) || tail
    if neg && !l.signed then
      if n' = 0 || sat then (0, condNX ||| condUF) else (l.nanCode, condNX ||| condNV)
    else
      let (tm, tq) := l.body? l.top
      if dyLt tm tq n' unit then
        let big := sat || decide (mode = 1) || (decide (mode = 2) && neg) || (decide (mode = 3) && !neg)
        (if big then l.largest neg else l.infinity neg, condOF)
      else
        (l.encode neg n' unit,
         (if inexact then condNX else 0) ||| (if inexact && dyLt n' unit 1 l.emin then condUF else 0))

/-- A magnitude rounded to an integer (R135). -/
def roundInt (mode : Nat) (neg : Bool) (m : Nat) (q : Int) : Nat × Bool :=
  if 0 ≤ q then (m * 2 ^ q.toNat, false)
  else
    let k := (-q).toNat
    let n := m / 2 ^ k
    let r := m % 2 ^ k
    (if roundsUp mode neg r k false (decide (n % 2 = 1)) then n + 1 else n, decide (r ≠ 0))

/-- Range of an integer format (R130). -/
def intRange (signed : Bool) (n : Nat) : Int × Int :=
  if signed then (-(2 ^ (n - 1) : Nat), (2 ^ (n - 1) : Nat) - 1) else (0, (2 ^ n : Nat) - 1)

/-- The code of an integer in n bits. -/
def intCode (n : Nat) (v : Int) : Nat := (v % (2 ^ n : Nat)).toNat

/-- A value converted (R136 to R138): the destination code and the conditions; an integer source wraps or saturates. Log 19, DEDUCED. -/
def convertVal (isInt : Bool) (x : Val) (dst : Fmt) (mode : Nat) (satF satI : Bool) : Nat × Conds :=
  match x, dst with
  | .fin neg m q, .int s n =>
    let (lo, hi) := intRange s n
    if isInt then
      let v : Int := if neg then -(m : Int) else m
      if lo ≤ v ∧ v ≤ hi then (intCode n v, 0)
      else (intCode n (if satI then max lo (min hi v) else v), condNX)
    else
      let (a, inexact) := roundInt mode neg m q
      let v : Int := if neg then -(a : Int) else a
      if lo ≤ v ∧ v ≤ hi then (intCode n v, if inexact then condNX else 0)
      else (intCode n (max lo (min hi v)), condNV ||| condNX)
  | .nan, .int _ _ => (0, condNV)
  | .inf neg, .int s n => (intCode n (if neg then (intRange s n).1 else (intRange s n).2), condNV)
  | .nan, f => (f.layout.nanCode, 0)
  | .inf neg, f =>
    let l := f.layout
    match f with
    | .b8 _ signed ext =>
      if ext && (signed || !neg) then (l.infinity neg, 0)
      else if neg && !signed then (if satF then 0 else l.nanCode, condNV)
      else (if satF then l.largest neg else l.nanCode, condNV)
    | _ => (l.infinity neg, 0)
  | .fin neg m q, f =>
    if m = 0 then (f.layout.encode neg 0 0, 0) else roundTo f mode satF neg m q false

/-- A conversion of an element (R136 to R138). -/
def convert (src dst : Fmt) (mode : Nat) (satF satI : Bool) (c : Nat) : Nat × Conds :=
  convertVal src.isInt (decodeVal src c) dst mode satF satI

/-! ### Arithmetic on exact values (R146, R149, R151) -/

/-- The sign of an exact zero sum: kept when both signs agree, else plus, but minus when rounding down (R134, R146). -/
def zeroSign (mode : Nat) (n1 n2 : Bool) : Bool := if n1 = n2 then n1 else decide (mode = 3)

/-- The exact sum of two finite values; an exact zero takes `zeroSign`. -/
def exactAdd (mode : Nat) (n1 : Bool) (m1 : Nat) (q1 : Int) (n2 : Bool) (m2 : Nat) (q2 : Int) : Bool × Nat × Int :=
  let q := min q1 q2
  let a : Int := (m1 * 2 ^ (q1 - q).toNat : Nat)
  let b : Int := (m2 * 2 ^ (q2 - q).toNat : Nat)
  let v := (if n1 then -a else a) + (if n2 then -b else b)
  if v = 0 then (zeroSign mode n1 n2, 0, q) else (decide (v < 0), v.natAbs, q)

/-- Add two values and round once; infinities of opposite signs are invalid (R145, R146). -/
def addVal (f : Fmt) (mode : Nat) (x y : Val) : Nat × Conds :=
  match x, y with
  | .nan, _ | _, .nan => (f.layout.nanCode, 0)
  | .inf a, .inf b => if a = b then (f.layout.infinity a, 0) else (f.layout.nanCode, condNV)
  | .inf a, _ => (f.layout.infinity a, 0)
  | _, .inf b => (f.layout.infinity b, 0)
  | .fin n1 m1 q1, .fin n2 m2 q2 =>
    let (n, m, q) := exactAdd mode n1 m1 q1 n2 m2 q2
    roundTo f mode false n m q false

/-- The other sign. -/
def Val.neg : Val → Val
  | .nan => .nan
  | .inf n => .inf (!n)
  | .fin n m q => .fin (!n) m q

/-- The exact product; none when it is zero times infinity (R145). -/
def mulExact (x y : Val) : Option Val :=
  match x, y with
  | .nan, _ | _, .nan => some .nan
  | .inf a, .inf b => some (.inf (a != b))
  | .inf a, .fin n m _ => if m = 0 then none else some (.inf (a != n))
  | .fin n m _, .inf b => if m = 0 then none else some (.inf (n != b))
  | .fin n1 m1 q1, .fin n2 m2 q2 => some (.fin (n1 != n2) (m1 * m2) (q1 + q2))

/-- Multiply and round once (R146). -/
def mulVal (f : Fmt) (mode : Nat) (x y : Val) : Nat × Conds :=
  match mulExact x y with
  | none => (f.layout.nanCode, condNV)
  | some .nan => (f.layout.nanCode, 0)
  | some (.inf n) => (f.layout.infinity n, 0)
  | some (.fin n m q) => roundTo f mode false n m q false

/-- x * y + z with one rounding; zero times infinity is invalid whatever the addend (R145, R151). Log 18, DEDUCED. -/
def fmaVal (f : Fmt) (mode : Nat) (x y z : Val) : Nat × Conds :=
  match mulExact x y, z with
  | none, _ => (f.layout.nanCode, condNV)
  | some p, z => addVal f mode p z

/-- The order of VMIN, VMAX and VCMP: minus zero below plus zero when `zeros` tells them apart (R149, R156). -/
def valLt (zeros : Bool) (x y : Val) : Bool :=
  match x, y with
  | .nan, _ | _, .nan => false
  | .inf a, .inf b => a && !b
  | .inf a, .fin _ _ _ => a
  | .fin _ _ _, .inf b => !b
  | .fin n1 m1 q1, .fin n2 m2 q2 =>
    if m1 = 0 && m2 = 0 then zeros && n1 && !n2
    else if m1 = 0 then !n2
    else if m2 = 0 then n1
    else match n1, n2 with
      | true, false => true
      | false, true => false
      | false, false => dyLt m1 q1 m2 q2
      | true, true => dyLt m2 q2 m1 q1

/-! ### Reciprocals, roots, powers and logarithms (R155) -/

/-- The largest r with r * r ≤ n, found by its bits from 2 ^ k down. -/
def isqrtFrom (n : Nat) : Nat → Nat → Nat
  | 0, r => r
  | k + 1, r => if (r + 2 ^ k) * (r + 2 ^ k) ≤ n then isqrtFrom n k (r + 2 ^ k) else isqrtFrom n k r

/-- floor of the square root. -/
def isqrt (n : Nat) : Nat := isqrtFrom n (Nat.log2 n / 2 + 1) 0

/-- Odd part of a magnitude and its power of two; n bounds the number of halvings. -/
def oddPart : Nat → Nat → Int → Nat × Int
  | 0, m, q => (m, q)
  | k + 1, m, q => if m % 2 = 0 then oddPart k (m / 2) (q + 1) else (m, q)

/-- Fraction bits of the fixed-point numbers below. -/
def fracBits : Nat := 192

/-- 1 / x: magnitude, power, and whether more follows below. -/
def exactRcp (m : Nat) (q : Int) : Nat × Int × Bool :=
  let n := 2 ^ 400
  (n / m, -400 - q, decide (n % m ≠ 0))

/-- 1 / sqrt x. -/
def exactRsq (m : Nat) (q : Int) : Nat × Int × Bool :=
  let (m, q) := if q % 2 = 0 then (m, q) else (2 * m, q - 1)
  let r := isqrt (2 ^ 400 / m)
  (r, -200 - q / 2, decide (r * r * m ≠ 2 ^ 400))

/-- Bits of log2 of a fixed-point number in [1, 2), most significant first, by squaring. -/
def logBits : Nat → Nat → Nat → Nat
  | 0, _, acc => acc
  | k + 1, m, acc =>
    let s := m * m / 2 ^ fracBits
    if 2 ^ (fracBits + 1) ≤ s then logBits k (s / 2) (2 * acc + 1) else logBits k s (2 * acc)

/-- log2 x: sign, magnitude, power, and whether more follows below. -/
def exactLog (m : Nat) (q : Int) : Bool × Nat × Int × Bool :=
  let (o, e) := oddPart 400 m q
  if o = 1 then (decide (e < 0), e.natAbs, 0, false)
  else
    let b := Nat.log2 m
    let whole : Int := (b : Int) + q
    let frac := logBits 128 (m * 2 ^ (fracBits - b)) 0
    let v : Int := whole * 2 ^ 128 + frac
    -- the exact value is v plus less than two units
    if 0 ≤ v then (false, v.toNat, -128, true) else (true, (-v).toNat - 2, -128, true)

/-- 2 to a fraction of k bits given as a number, most significant bit first: c is 2 to the next bit's weight. -/
def expBits : Nat → Nat → Nat → Nat → Nat
  | 0, _, _, acc => acc
  | k + 1, f, c, acc =>
    expBits k f (isqrt (c * 2 ^ fracBits)) (if f / 2 ^ k % 2 = 1 then acc * c / 2 ^ fracBits else acc)

/-- 2 ^ x for a finite x: magnitude, power, and whether more follows below. An x beyond 2 ^ 12 counts as 2 ^ 12. -/
def exactExp (neg : Bool) (m : Nat) (q : Int) : Nat × Int × Bool :=
  let scaled : Nat := if 0 ≤ q then m * 2 ^ (min q 40).toNat * 2 ^ 160 else m * 2 ^ 160 / 2 ^ (-q).toNat
  let rest := decide (q < -160) && decide (m % 2 ^ (-q - 160).toNat ≠ 0)
  let x : Int := ((min (2 ^ 172) scaled : Nat) : Int)
  let v : Int := if neg then (if rest then -x - 1 else -x) else x
  let whole := v / 2 ^ 160
  let frac := (v % 2 ^ 160).toNat
  (expBits 160 frac (isqrt (2 ^ (2 * fracBits + 1))) (2 ^ fracBits), whole - fracBits, rest || decide (frac ≠ 0))

/-- By how many units of its last place a magnitude computed above may lie below the exact one, where more follows. -/
def shortfall (op : Nat) : Nat := match op with | 2 => 512 | 3 => 3 | _ => 1

/-- |y - f| ≤ b * 2 ^ u for the exact value f, whose magnitude lies up to `short` units of its last place above the one given; y has its sign or
not. Log 17, DESIGN CHOICE. -/
def within (same : Bool) (my : Nat) (qy : Int) (mf : Nat) (qf : Int) (short b : Nat) (u : Int) : Bool :=
  let q := min (min qy qf) u
  let my : Int := (my * 2 ^ (qy - q).toNat : Nat)
  let y : Int := if same then my else -my
  let f : Int := (mf * 2 ^ (qf - q).toNat : Nat)
  let bound : Int := (b * 2 ^ (u - q).toNat : Nat)
  decide (y ≤ f + bound ∧ f + (short * 2 ^ (qf - q).toNat : Nat) ≤ y + bound)

/-- A result rounded to nearest even; a binary32 result that is not representable is Config's choice when it keeps the
bound of R155, else the nearest value. Log 17, DESIGN CHOICE. -/
def finishFn (op : Nat) (f : Fmt) (code : Nat) (unitInput : Bool) (neg : Bool) (m : Nat) (q : Int) (tail : Bool) : Nat × Conds :=
  let (c, fl) := roundTo f 0 false neg m q tail
  if decide (f = .f32) && decide (fl &&& condNX ≠ 0) && decide (fl &&& condOF ≠ condOF) then
    let y := (Config.approx op (BitVec.ofNat 32 code)).toNat
    let e : Int := (Nat.log2 m : Int) + q
    let u : Int := if op = 3 && unitInput then -23 else max (e - 23) (-149)
    match decodeVal .f32 y with
    | .fin ny my qy =>
      if within (ny = neg) my qy m q (if tail then shortfall op else 0) (if op < 2 ∨ (op = 3 ∧ unitInput) then 1 else 2) u then
        (y, condNX ||| (if dyLt my qy 1 (-126) then condUF else 0))
      else (c, fl)
    | _ => (c, fl)
  else (c, fl)

/-- VRCP, VRSQ, VEXP2 and VLOG2 (0 to 3) of one element (R155). Log 17, DESIGN CHOICE. -/
def elemFn (op : Nat) (f : Fmt) (code : Nat) : Nat × Conds :=
  let l := f.layout
  match op, decodeVal f code with
  | _, .nan => (l.nanCode, 0)
  | 0, .inf n => (l.encode n 0 0, 0)
  | 0, .fin n m q =>
    if m = 0 then (l.infinity n, condDZ)
    else
      let (m', q', t) := exactRcp m q
      finishFn 0 f code false n m' q' t
  | 1, .inf n => if n then (l.nanCode, condNV) else (0, 0)
  | 1, .fin n m q =>
    if m = 0 then (l.infinity n, condDZ)
    else if n then (l.nanCode, condNV)
    else
      let (m', q', t) := exactRsq m q
      finishFn 1 f code false false m' q' t
  | 2, .inf n => if n then (0, 0) else (l.infinity false, 0)
  | 2, .fin n m q =>
    let (m', q', t) := exactExp n m q
    finishFn 2 f code false false m' q' t
  | _, .inf n => if n then (l.nanCode, condNV) else (l.infinity false, 0)
  | _, .fin n m q =>
    if m = 0 then (l.infinity true, condDZ)
    else if n then (l.nanCode, condNV)
    else
      let (n', m', q', t) := exactLog m q
      finishFn 3 f code (!dyLt m q 1 (-1) && !dyLt 2 0 m q) n' m' q' t

end Sys2Proof.Machine
end

