-- ==== Sys2Proof/Machine/Operands.lean ====
section
/-!
DEFINITION. What each slot reads and writes, for the legality tests, the port limits and the scoreboard (R44, R45, R48,
R57), and the least privileged level of each opcode (R70).
-/

namespace Sys2Proof.Machine

/-- The unit class of a slot (R56), or a step that is no slot. -/
inductive UnitClass where
  | s | a | v | m | c | step
deriving DecidableEq, Repr

/-- The value of U (R56). -/
def UnitClass.code : UnitClass → Nat
  | .s => 0 | .a => 1 | .v => 2 | .m => 3 | .c => 4 | .step => 5

/-- The registers a slot uses, each listed once per field or implicit operand (R45). A pair counts as two reads (R64). -/
structure Use where
  unit : UnitClass
  gr   : List GReg := []
  gw   : List GReg := []
  vr   : List VReg := []
  vw   : List VReg := []
  kr   : List KReg := []
  kw   : List KReg := []
  acc  : List AccReg := []
  rq   : List RqReg := []
  lvl  : List LoopLevel := []
  /-- a load or atomic into the scalar (false) or vector (true) load-data queue -/
  load : Option Bool := none
  /-- a store from the scalar (false) or vector (true) store-data queue -/
  store : Option Bool := none
deriving DecidableEq, Repr

/-- A size code of 4 to 7 names the vector queues (R64). -/
def wide (sz : BitVec 3) : Bool := decide (4 ≤ sz.toNat)

/-- What each slot uses (R60 to R68). -/
def use : Instr → Use
  | .nop | .idle | .sstep | .tdone | .yield | .rft => { unit := .s }
  | .add d a b | .sub d a b | .mul d a b | .mulh d a b | .mulhw d a b | .div d a b | .divw d a b | .rem d a b
  | .remw d a b | .and d a b | .or d a b | .xor d a b | .shl d a b | .shr d a b | .sha d a b | .min d a b
  | .max d a b | .minw d a b | .maxw d a b => { unit := .s, gr := [a, b], gw := [d] }
  | .cmp d a b _ | .bfx d a b _ => { unit := .s, gr := [a, b], gw := [d] }
  | .spawn d a b | .wdecl d a b => { unit := .s, gr := [a, b], gw := [d] }
  | .bfi d a b | .sel d a b => { unit := .s, gr := [a, b, d], gw := [d] }
  | .clz d a | .ctz d a | .popc d a => { unit := .s, gr := [a], gw := [d] }
  | .sext d a _ | .zext d a _ => { unit := .s, gr := [a], gw := [d] }
  | .addi d a _ | .andi d a _ | .ori d a _ | .xori d a _ => { unit := .s, gr := [a], gw := [d] }
  | .shli d a _ | .shri d a _ | .shai d a _ => { unit := .s, gr := [a], gw := [d] }
  | .cmpiEq d a _ | .cmpiNe d a _ | .cmpiLt d a _ | .cmpiGe d a _ | .cmpiLtw d a _ | .cmpiGew d a _ =>
    { unit := .s, gr := [a], gw := [d] }
  | .movi d _ => { unit := .s, gw := [d] }
  | .movhi d _ => { unit := .s, gr := [d], gw := [d] }
  | .br _ => { unit := .s }
  | .call _ => { unit := .s, gw := [62] }
  | .brcZ d _ | .brcNz d _ => { unit := .s, gr := [d] }
  | .jmp a => { unit := .s, gr := [a] }
  | .ret => { unit := .s, gr := [62] }
  | .loop n a _ => { unit := .s, gr := [a], lvl := [n] }
  | .loopi n _ _ => { unit := .s, lvl := [n] }
  | .rdsr d _ => { unit := .s, gw := [d] }
  | .wrsr d _ | .bankFormatRegister d _ => { unit := .s, gr := [d] }
  | .launch d | .sgbase d | .genraise d | .s2genraise d | .frqs d | .frqh d | .featack0 d | .rgnctlQuery d
  | .rgnctlPreempt d | .rgnctlResume d => { unit := .s, gr := [d] }
  | .trap _ | .sysc _ | .brk _ => { unit := .s }
  | .accFlip a b | .spadFlip a b | .sectorPoison a b | .tagBreak a b | .raise a b => { unit := .s, gr := [a, b] }
  | .ldw d a _ _ | .ldc d a _ _ | .feq d a _ _ => { unit := .s, gr := [a], gw := [d] }
  | .stf d a _ _ | .sts d a _ _ => { unit := .s, gr := [a, d] }
  | .feset a _ _ | .feclr a _ _ => { unit := .s, gr := [a] }
  | .park a | .dcdec a | .wdrop a => { unit := .s, gr := [a] }
  | .dcset a b | .barwt a b => { unit := .s, gr := [a, b] }
  | .mon _ a _ _ => { unit := .s, gr := [a] }
  | .waitm d a => { unit := .s, gr := [a], gw := [d] }
  | .acq _ | .rel _ | .fence _ => { unit := .s }
  | .fenceX _ _ => { unit := .s }
  | .promote a _ | .acqt a _ | .relt a _ => { unit := .s, gr := [a] }
  | .ptbindCores a b | .ptbindEngines a b | .ptbindMemports a b | .ptbindQueues a b | .ptbindS2root a b | .ptbindKey a b
  | .ptbindDump a b | .ptbindFaper a b | .ptbindNaper a b | .ptbindPeer a b | .ptbindKport a b | .ptbindRwin a b
  | .ptbindIntr a b | .ptbindInj a b | .ptquotaSlice a b | .ptquotaPrio a b | .ptquotaRate a b | .ptquotaActiveq a b =>
    { unit := .s, gr := [a, b] }
  | .ptsealSeal a | .ptsealStop a | .ptsealFree a => { unit := .s, gr := [a] }
  | .la a _ _ _ => { unit := .a, gr := [a], load := some false }
  | .lav a _ _ _ => { unit := .a, gr := [a], load := some true }
  | .sa a _ _ _ => { unit := .a, gr := [a], store := some false }
  | .sav a _ _ _ => { unit := .a, gr := [a], store := some true }
  | .laxIndex a b sz _ => { unit := .a, gr := [a, b], load := some (wide sz) }
  | .laxIncrement a b sz _ => { unit := .a, gr := [a, b], gw := [a], load := some (wide sz) }
  | .saxIndex a b sz _ => { unit := .a, gr := [a, b], store := some (wide sz) }
  | .saxIncrement a b sz _ => { unit := .a, gr := [a, b], gw := [a], store := some (wide sz) }
  | .lavStrided a b _ _ => { unit := .a, gr := [a, b], load := some true }
  | .savStrided a b _ _ => { unit := .a, gr := [a, b], store := some true }
  | .lagv a b _ _ => { unit := .a, gr := [a], vr := [b], load := some true }
  | .sasv a b _ _ => { unit := .a, gr := [a], vr := [b], store := some true }
  | .pref a _ => { unit := .a, gr := [a] }
  | .amoAdd a b _ _ | .amoAnd a b _ _ | .amoOr a b _ _ | .amoXor a b _ _ | .amoSwap a b _ _ | .amoSmin a b _ _
  | .amoSmax a b _ _ | .amoUmin a b _ _ | .amoUmax a b _ _ => { unit := .a, gr := [a, b], load := some false }
  | .amoFadd a b _ => { unit := .a, gr := [a, b], load := some false }
  | .cas a b _ _ => { unit := .a, gr := [a, b, b + 1], load := some false }
  | .laLand a b _ _ => { unit := .a, gr := [a, b], load := some false }
  | .lavLand a b _ _ => { unit := .a, gr := [a, b], load := some true }
  | .vadd d a b _ | .vsub d a b _ | .vmul d a b _ | .vmulh d a b _ | .vmin d a b _ | .vmax d a b _ | .vshl d a b _
  | .vshr d a b _ | .vsha d a b _ | .vperm d a b _ => { unit := .v, vr := [a, b], vw := [d] }
  | .vpack d a b _ => { unit := .v, vr := [a, b], vw := [d] }
  | .vand d a b | .vor d a b | .vxor d a b => { unit := .v, vr := [a, b], vw := [d] }
  | .vaddMasked d k b _ | .vsubMasked d k b _ | .vmulMasked d k b _ | .vmulhMasked d k b _ | .vminMasked d k b _
  | .vmaxMasked d k b _ | .vshlMasked d k b _ | .vshrMasked d k b _ | .vshaMasked d k b _ | .vpermMasked d k b _ =>
    { unit := .v, vr := [b, d], vw := [d], kr := [k] }
  | .vpackMasked d k b _ => { unit := .v, vr := [b, d], vw := [d], kr := [k] }
  | .vandMasked d k b | .vorMasked d k b | .vxorMasked d k b => { unit := .v, vr := [b, d], vw := [d], kr := [k] }
  | .vabs d a k _ | .vneg d a k _ | .vrcp d a k _ | .vrsq d a k _ | .vexp2 d a k _ | .vlog2 d a k _ | .vredSum d a k _
  | .vredMax d a k _ | .vredMin d a k _ | .vscan d a k _ => { unit := .v, vr := [a], vw := [d], kr := [k] }
  | .vsat d a k _ | .vunpkLo d a k _ | .vunpkHi d a k _ => { unit := .v, vr := [a], vw := [d], kr := [k] }
  | .vnot d a k | .vmov d a k => { unit := .v, vr := [a], vw := [d], kr := [k] }
  | .vbcast d a k _ => { unit := .v, gr := [a], vw := [d], kr := [k] }
  | .vfmaF32 d a b k | .vfmaF16 d a b k | .vfmaB16 d a b k | .vfmsF32 d a b k | .vfmsF16 d a b k | .vfmsB16 d a b k
  | .vfnmaF32 d a b k | .vfnmaF16 d a b k | .vfnmaB16 d a b k | .vdot4I8 d a b k | .vdot4W8 d a b k =>
    { unit := .v, vr := [a, b, d], vw := [d], kr := [k] }
  | .vsel d a b k => { unit := .v, vr := [a, b], vw := [d], kr := [k] }
  | .vcmpEq d a b _ | .vcmpNe d a b _ | .vcmpLt d a b _ | .vcmpLe d a b _ => { unit := .v, vr := [a, b], kw := [d] }
  | .vcvt d a _ _ => { unit := .v, vr := [a], vw := [d] }
  | .vshuf d a _ _ => { unit := .v, vr := [a], vw := [d] }
  | .vins d a b _ => { unit := .v, gr := [a, b], vr := [d], vw := [d] }
  | .vext d a b _ => { unit := .v, gr := [b], gw := [d], vr := [a] }
  | .vmovi d _ => { unit := .v, vw := [d] }
  | .kand d a b | .kor d a b => { unit := .v, kr := [a, b], kw := [d] }
  | .knot d a => { unit := .v, kr := [a], kw := [d] }
  | .kpop d a => { unit := .v, kr := [a], gw := [d] }
  | .vacr d a _ => { unit := .v, vw := [d], acc := [a] }
  | .vacrRow d a _ => { unit := .v, vw := [d], acc := [a] }
  | .vacw d a _ => { unit := .v, vr := [a], acc := [d] }
  | .vacwRow d a _ => { unit := .v, vr := [a], acc := [d] }
  | .vqpop d a => { unit := .v, vw := [d], rq := [a] }
  | .mma d a b | .mchk d a b => { unit := .m, gr := [a, a + 1, b], acc := [d] }
  | .mmas d a b => { unit := .m, gr := [a, b], acc := [d] }
  | .mzero d => { unit := .m, acc := [d] }
  | .mdrn d a => { unit := .m, acc := [a], rq := [d] }
  | .mwait => { unit := .m }
  | .mstat d => { unit := .m, gw := [d] }
  | .cpy a b _ | .cpyn a b _ | .cpyp a b _ | .cpym a b _ | .cpyg a b _ => { unit := .c, gr := [a, b] }
  | .cpyq a b _ => { unit := .c, gr := [b], rq := [a] }
  | .rngset a b | .rngadvRelease a b | .rngadvCommit a b | .barinit a b | .barexp a b | .tfetch a b | .lnkSendPut a b
  | .lnkSendGet a b | .lnkSendAtomic a b | .lnkSendMessage a b | .lnkRecv a b | .lnkRadd a b | .lnkRed a b
  | .netPost a b | .netArm a b => { unit := .c, gr := [a, b] }
  | .netCqr d a => { unit := .c, gr := [a], gw := [d] }
  | _ => { unit := .step }

/-- The least privileged level that may use an opcode (R70). -/
def leastLevel : Instr → BitVec 2
  | .rft => 2
  | .accFlip _ _ | .spadFlip _ _ | .sectorPoison _ _ | .tagBreak _ _ | .raise _ _ => 1
  | .ptbindCores _ _ | .ptbindEngines _ _ | .ptbindMemports _ _ | .ptbindQueues _ _ | .ptbindS2root _ _ | .ptbindKey _ _
  | .ptbindDump _ _ | .ptbindFaper _ _ | .ptbindNaper _ _ | .ptbindPeer _ _ | .ptbindKport _ _ | .ptbindRwin _ _
  | .ptbindIntr _ _ | .ptbindInj _ _ | .ptquotaSlice _ _ | .ptquotaPrio _ _ | .ptquotaRate _ _ | .ptquotaActiveq _ _ => 1
  | .ptsealSeal _ | .ptsealStop _ | .ptsealFree _ => 1
  | _ => 3

/-- A control transfer or loop set-up, which may not stand in a loop-end bundle (R86). -/
def isTransfer : Instr → Bool
  | .br _ | .call _ | .brcZ _ _ | .brcNz _ _ | .jmp _ | .ret | .rft | .loop _ _ _ | .loopi _ _ _ => true
  | _ => false

/-- The engines of R71 and R173: bits 0 vector, 1 matrix, 2 copy, 3 link, 4 network. -/
def engineBit : Instr → Option Nat
  | .lnkSendPut _ _ | .lnkSendGet _ _ | .lnkSendAtomic _ _ | .lnkSendMessage _ _ | .lnkRecv _ _ | .lnkRadd _ _
  | .lnkRed _ _ => some 3
  | .netPost _ _ | .netArm _ _ | .netCqr _ _ => some 4
  | i => match (use i).unit with
    | .v => some 0
    | .m => some 1
    | .c => some 2
    | _ => none

end Sys2Proof.Machine
end

