-- ==== Sys2Proof/Machine/Ops.lean ====
section
/-!
DEFINITION. The operations every meaning is written with: the cores of the package, register reads and writes with their
queue ports (R21, R25, R30, R48, R51), stalls, taking a trap and returning from one (R53, R54, R307 to R318), translation
(R219), and the notes that a write leaves behind for watches, parked tasks and caches (R121, R190, R218, R437).
-/

namespace Sys2Proof.Machine

/-! ### Words -/

/-- Bits lo to lo + n - 1 of a word, as a number. -/
def fld (w : Word) (lo n : Nat) : Nat := w.toNat / 2 ^ lo % 2 ^ n
/-- A word with bits lo to lo + n - 1 replaced. -/
def setFld (w : Word) (lo n v : Nat) : Word :=
  BitVec.ofNat 64 (w.toNat - fld w lo n * 2 ^ lo + v % 2 ^ n * 2 ^ lo)
/-- A word of all ones at the bits that are allowed to be set; any other set bit is a fault of the operand. -/
def onlyBits (w allowed : Word) : Bool := w &&& ~~~allowed == 0
/-- One bit as a word at place n. -/
def bitAt (b : Bool) (n : Nat) : Word := if b then BitVec.ofNat 64 (2 ^ n) else 0
/-- A signed 9-bit immediate (R40). -/
def sext9 (i : BitVec 9) : Word := i.signExtend 64
/-- A signed 15-bit immediate (R40). -/
def sext15 (i : BitVec 15) : Word := i.signExtend 64
/-- A signed 21-bit offset (R40). -/
def sext21 (i : BitVec 21) : Word := i.signExtend 64

/-! ### Cores -/

/-- The physical identifier of a core: 132 * die + PHYS, or 1056 + die for a conductor core. -/
def Core.id (c : Core) : Nat := if c.cond then 1056 + c.die else 132 * c.die + c.phys
/-- The package core number (R361). -/
def Core.number (c : Core) : Nat := 128 * c.die + c.lcore
/-- The sorus that a logical core belongs to (R33). -/
def Core.sorus (c : Core) : Nat := c.lcore / 8

/-- The core with this identifier. -/
def State.coreAt (s : State) (id : Nat) : Core :=
  if id = s.core.id then s.core else (assocGet s.others id).getD (Core.atReset id)

/-- Put a core back in its place. -/
def State.putCore (s : State) (c : Core) : State :=
  if c.id = s.core.id then { s with core := c } else { s with others := assocPut s.others c.id c }

/-- Make another core the one whose slot or step runs. -/
def State.focus (s : State) (id : Nat) : State :=
  if id = s.core.id then s
  else { s with core := s.coreAt id, others := assocPut (assocDel s.others id) s.core.id s.core }

/-- Do something at a core and come back. -/
def State.visit (s : State) (core : Nat) (f : State → State) : State :=
  let here := s.core.id
  (f (s.focus core)).focus here

/-- Change one core. -/
def State.onCore (s : State) (id : Nat) (f : Core → Core) : State := s.putCore (f (s.coreAt id))

/-- Change every core that stands in the state. -/
def State.mapCores (s : State) (f : Core → Core) : State :=
  { s with core := f s.core, others := s.others.map fun e => (e.1, f e.2) }

/-- Every core that stands in the state. -/
def State.allCores (s : State) : List Core := s.core :: s.others.map (·.2)

/-- The physical identifier that holds a logical core (R33): the listed core bound to it, else the core of that number. -/
def State.logical (s : State) (die lcore : Nat) : Nat :=
  match s.allCores.find? fun c => !c.cond && !c.spare && decide (c.die = die) && decide (c.lcore = lcore) with
  | some c => c.id
  | none => 132 * die + lcore

/-- The physical identifier of a package core number (R361). -/
def State.byNumber (s : State) (n : Nat) : Nat := s.logical (n / 128) (n % 128)

/-! ### Outcomes -/

/-- The slot took effect. -/
def done (s : State) : Outcome := .next s
/-- The slot's bundle cannot issue yet; nothing changes (R49). -/
def stall (s : State) : Outcome := .next { s with core := { s.core with mark := .stall } }
/-- The slot waits, with what it noted (R118). -/
def waits (s : State) : Outcome := .next { s with core := { s.core with mark := .wait } }

/-- A step of the package that falls due now. -/
def State.addTodo (s : State) (d : Due) : State := { s with todo := s.todo ++ [d] }
/-- A step that falls due at a clk. -/
def State.addTimer (s : State) (d : Due) : State := { s with timers := s.timers ++ [d] }

/-! ### Regions and partitions -/

/-- A region by identifier. -/
def State.region? (s : State) (id : Nat) : Option Region := s.regions.find? fun r => decide (r.id = id)
/-- Put a region back. -/
def State.putRegion (s : State) (r : Region) : State :=
  { s with regions := s.regions.map fun q => if q.id = r.id then r else q }
/-- The region that the core runs. -/
def State.myRegion (s : State) : Option Region := s.core.region.bind s.region?
/-- A partition by number; numbers are below 64. -/
def State.part (s : State) (n : Nat) : Partition := s.parts.toList.getD n {}
/-- Put a partition back. -/
def State.putPart (s : State) (n : Nat) (p : Partition) : State := { s with parts := s.parts.setIfInBounds n p }
/-- An address space. -/
def State.asidOf (s : State) (n : Nat) : Asid := (assocGet s.asids n).getD {}
/-- Put an address space back. -/
def State.putAsid (s : State) (n : Nat) (a : Asid) : State := { s with asids := assocPut s.asids n a }
/-- A tile. -/
def State.tileOf (s : State) (n : Nat) : Tile := (assocGet s.tiles n).getD {}
/-- Put a tile back. -/
def State.putTile (s : State) (n : Nat) (t : Tile) : State := { s with tiles := assocPut s.tiles n t }

/-- The running region is scheduled and its compute step is under way (R177, R178). -/
def State.inCompute (s : State) : Bool :=
  match s.myRegion with
  | some r => r.scheduled && !r.inComm
  | none => false

/-- The running region is scheduled. -/
def State.inScheduled (s : State) : Bool :=
  match s.myRegion with
  | some r => r.scheduled
  | none => false

/-- Scratchpad bytes of the running region: banks * 0x400, all 384 banks where no region runs (R209). -/
def State.spadSize (s : State) : Nat :=
  match s.myRegion with
  | some r => r.banks * 0x400
  | none => 0x60000

/-- Accumulator banks of the running region (R173). -/
def State.accCount (s : State) : Nat :=
  match s.myRegion with
  | some r => r.accs
  | none => 16

/-! ### Traps (R307 to R318) -/

/-- The handling level of a cause (R323). -/
def handlingLevel (code : Nat) : Nat := if code = 0x00E ∨ code = 0x01D then 1 else 2

/-- A TINFO image (R309). -/
def tinfoImage (seq : Nat) (inj remote : Bool) (src pkg die lcore : Nat) : Word :=
  BitVec.ofNat 64 (seq % 2 ^ 24 * 2 ^ 40 + (if inj then 2 ^ 39 else 0) + (if remote then 2 ^ 38 else 0)
    + src % 8 * 2 ^ 35 + pkg % 2 ^ 11 * 2 ^ 24 + die % 8 * 2 ^ 21 + lcore % 128 * 2 ^ 14)

/-- TINFO of a cause that this core detects at a bundle (R309). -/
def State.tinfo (s : State) (seq : Nat) (inj : Bool := false) : Word :=
  tinfoImage seq inj false (if s.core.cond then 1 else 0) (if s.inPod then s.pkg else 0) s.core.die s.core.lcore

/-- The TCAUSE image of a trap at an entry from a level (R308, R313). -/
def tcauseImage (t : Trap) (level : BitVec 2) : Word :=
  BitVec.ofNat 64 (t.code % 512 + (if t.prec then 2 ^ 9 else 0) + (if t.impr then 2 ^ 10 else 0)
    + (if t.walk then 2 ^ 11 else 0) + level.toNat * 2 ^ 12)

/-- The double trap of a displaced trap (R315). -/
def doubleTrap (t : Trap) (level : BitVec 2) : Trap :=
  { t with code := 0x01B, walk := false, tval := tcauseImage t level, tval2 := t.tnpc }

/-- A bank that can take a record: not ACTIVE and with a handler (R313). -/
def TrapBank.takes (b : TrapBank) : Bool := !b.tstate.getLsbD 0 && !(fld b.tvec 6 51 == 0)

/-- A core's bank of a level, FW 0, HV 1, SV 2 (R307). -/
def Core.bank (c : Core) (l : Nat) : TrapBank := c.banks.toList.getD l {}
/-- Put a bank back. -/
def Core.putBank (c : Core) (l : Nat) (b : TrapBank) : Core := { c with banks := c.banks.setIfInBounds l b }

/-- Climb from level l to the first bank that takes the trap; none when FW's does not (R313, R315). -/
def findBank (c : Core) : Nat → Trap → Option (Nat × Trap)
  | 0, t => if (c.bank 0).takes then some (0, t) else none
  | l + 1, t => if (c.bank (l + 1)).takes then some (l + 1, t) else findBank c l (doubleTrap t c.level)

/-- The set-up order in the layout of LSHORD (R312). -/
def orderWord (o : List LoopLevel) : Word :=
  BitVec.ofNat 64 (o.length * 256 + (o.foldr (fun l n => l.toNat + 4 * n) 0) % 256)

/-- The set-up order that an LSHORD word and the shadowed counters give: the recorded levels whose count is not zero, then
any other level whose count is not zero (R83, R312). -/
def wordOrder (w : Word) (lc : Vector Word 4) : List LoopLevel :=
  let named := (List.range (min 4 (fld w 8 3))).map fun m => BitVec.ofNat 2 (fld w (2 * m) 2)
  ((named ++ [0, 1, 2, 3]).eraseDups).filter fun n => lc.get ⟨n.toNat, n.isLt⟩ != 0

/-- Write the record into a bank (R313); the reserved bits of TPC and TNPC stay 0 (R8, R307). -/
def TrapBank.record (b : TrapBank) (t : Trap) (level : BitVec 2) (loops : Loops) : TrapBank :=
  { b with tcause := tcauseImage t level, tpc := t.tpc &&& 0x1FFFFFFFFFFFFFF, tnpc := t.tnpc &&& 0x1FFFFFFFFFFFFFC, tmask := t.tmask, tval := t.tval,
           tval2 := t.tval2, tinfo := t.tinfo, lshlc := loops.lc, lshls := loops.ls, lshle := loops.le,
           lshord := orderWord loops.order,
           tstate := BitVec.ofNat 64 (1 + (if b.tstate.getLsbD 1 then 4 else 0)) }

/-- The level at which a trap tries to enter first (R313). -/
def entryLevel (c : Core) (t : Trap) : Nat :=
  min ((t.level.map BitVec.toNat).getD (handlingLevel t.code)) c.level.toNat

/-- A halt of the region with a cause: the package carries it out (R340). -/
def State.haltRegion (s : State) (region : Option Nat) (cause : Nat) : State :=
  match region with
  | some r => s.addTodo { instr := .regionHalt, args := { n := r, m := cause } }
  | none => s

/-- A halt of every region of a partition (R231, R315). -/
def State.haltPartition (s : State) (part cause : Nat) : State :=
  s.addTodo { instr := .regionHalt, args := { list := [part], m := cause } }

/-- A DOUBLE_TRAP that no bank takes halts the core's partition (R313, R315). Log 68, DEDUCED. -/
def State.haltDouble (s : State) : State := s.haltPartition s.core.part 0x01B

/-- A committed wait that an entry from this state breaks into, to be gone on with after the return (R182, R185). -/
def Core.keepWait (c : Core) : Option (RunState × BitVec 2) :=
  match c.run with
  | .arriving _ | .atBarrier | .leaving _ _ => some (c.run, c.level)
  | _ => c.after

/-- TAKING A TRAP OR INTERRUPT (R313 to R315): the record goes into the bank of the handling level, the loops are
shadowed and made inactive, the level and the bundle address change, and one more RFT stands before the traps held for later; a trap
that finds no bank halts. -/
def enterTrap (t : Trap) (s : State) : State :=
  match findBank s.core (entryLevel s.core t) t with
  | some (l, t') =>
    let c := s.core.putBank l ((s.core.bank l).record t' s.core.level s.core.loops)
    { s with core := { c with loops := { c.loops with lc := Vector.replicate 4 0, order := [] },
                              level := BitVec.ofNat 2 l, pc := (s.core.bank l).tvec, next := (s.core.bank l).tvec,
                              run := .running, after := s.core.keepWait, later := s.core.later.map fun x => (x.1 + 1, x.2) } }
  | none => ({ s with core := { s.core with run := .stopped } } : State).haltDouble

/-- Every slot issued earlier, in every engine, has executed (R53). -/
def Core.drained (c : Core) : Bool := c.veq.isEmpty && c.meq.isEmpty && c.ceq.isEmpty

/-- Take a trap of a front slot: at once when the engines are drained, else when they are (R53). -/
def takeTrap (t : Trap) (s : State) : State :=
  if s.core.drained && s.core.held.isEmpty then enterTrap t s else { s with core := { s.core with pend := some t } }

/-- A precise trap at the bundle that issues (R314). Log 11, DEDUCED. -/
def State.preciseTrap (s : State) (code : Nat) (tval tval2 : Word) (walk : Bool := false) : Trap :=
  { code := code, prec := true, walk := walk, tpc := s.core.pc, tnpc := s.core.pc,
    tmask := BitVec.ofNat 64 (2 ^ s.core.curSlot), tval := tval, tval2 := tval2, tinfo := s.tinfo s.core.seq }

/-- A front slot takes a precise trap: nothing of it takes effect (R53). -/
def trap (code : Nat) (tval tval2 : Word) (s : State) : Outcome :=
  let t := s.preciseTrap code tval tval2
  let s' := takeTrap t s
  .next { s' with core := { s'.core with mark := .trap t } }

/-- The record of an imprecise trap at the slot that executes or that a command came from (R54, R314). -/
def State.impreciseTrap (s : State) (code : Nat) (tval tval2 : Word) (bundle : Word) (slot seq : Nat) : Trap :=
  { code := code, impr := true, tpc := bundle, tmask := BitVec.ofNat 64 (2 ^ slot), tval := tval, tval2 := tval2,
    tinfo := s.tinfo seq }

/-- The same, raised by a unit of another die for a request that carries the bundle, slot and SEQ (R309). -/
def State.engineTrap (s : State) (src die code : Nat) (tval tval2 : Word) (bundle : Word) (slot seq : Nat) : Trap :=
  { s.impreciseTrap code tval tval2 bundle slot seq with tinfo := tinfoImage seq false true src (if s.inPod then s.pkg else 0) die 0x7F }

/-- Hold an imprecise trap for delivery (R54). -/
def hold (t : Trap) (s : State) : State :=
  { s with core := { s.core with held := s.core.held ++ [t] } }

/-- A back slot traps: it leaves no effect, and the trap is held (R54). -/
def holdHere (code : Nat) (tval tval2 : Word) (s : State) : State :=
  hold (s.impreciseTrap code tval tval2 s.core.curBundle s.core.curSlot s.core.curSeq) s

/-- RETURN FROM A TRAP (R93, R318): restore the loop shadow, the interrupt enable, the level and the next address; traps held for the RFT
of this handler become due (R53, R54). Log 14, DEDUCED. -/
def returnFromTrap (s : State) : Outcome :=
  let l := s.core.level.toNat
  let b := s.core.bank l
  let plev := fld b.tcause 12 2
  if plev < l then trap 0x003 0 0 s
  else
    let loops : Loops := { lc := b.lshlc, ls := b.lshls, le := b.lshle, order := wordOrder b.lshord b.lshlc }
    let b' := { b with tstate := bitAt (b.tstate.getLsbD 2) 1 ||| bitAt (b.tstate.getLsbD 2) 2 }
    let c := s.core.putBank l b'
    let back := c.after.filter fun a => decide (a.2.toNat = plev)
    .next { s with core := { c with loops := loops, level := BitVec.ofNat 2 plev,
                                    next := BitVec.ofNat 64 (fld b.tnpc 2 55 * 4),
                                    held := c.held ++ (c.later.filter fun x => decide (x.1 ≤ 1)).map (·.2),
                                    later := (c.later.filter fun x => decide (1 < x.1)).map fun x => (x.1 - 1, x.2),
                                    run := (back.map (·.1)).getD c.run,
                                    after := if back.isSome then none else c.after } }

/-! ### Fault records (R319, R320) -/

/-- The words of a fault record (R320). -/
def recordWords (t : Trap) (asid part : Nat) (time : Nat) : List Word :=
  [BitVec.ofNat 64 (t.code % 512 + (if t.walk then 2 ^ 11 else 0)), t.tpc, t.tval, t.tval2, t.tinfo,
   BitVec.ofNat 64 (fld t.tmask 0 8 + asid % 1024 * 2 ^ 16 + part % 64 * 2 ^ 32), BitVec.ofNat 64 time]

/-! ### Registers (R21, R25, R30, R48, R51) -/

/-- Look a register's early value up. -/
def overlay {n w : Nat} : List (BitVec n × BitVec w) → BitVec n → Option (BitVec w)
  | [], _ => none
  | (r, v) :: l, x => if x = r then some v else overlay l x

/-- A g register as the slot reads it, but for the queue port g63. Log 63, DEDUCED. -/
def Core.gVal (c : Core) (r : GReg) : Word :=
  if r = 0 then 0 else (overlay c.early r).getD (c.g.get ⟨r.toNat, r.isLt⟩)
/-- A k register as the slot reads it; k0 reads all ones. -/
def Core.kVal (c : Core) (r : KReg) : MaskWord :=
  if r = 0 then BitVec.allOnes 256 else (overlay c.earlyK r).getD (c.k.get ⟨r.toNat, r.isLt⟩)
/-- A v register as the slot reads it, but for the queue port v63. Log 63, DEDUCED. -/
def Core.vVal (c : Core) (r : VReg) : VWord := (overlay c.earlyV r).getD (c.v.get ⟨r.toNat, r.isLt⟩)

/-- Slots in the queues of the back engines. -/
def Core.queued (c : Core) : List QSlot := c.veq.flatten ++ c.meq ++ c.ceq.flatten

/-- A queued slot will pop g63 when it executes: it reads g63 and did not take it at issue (R51). -/
def QSlot.popsG (q : QSlot) : Nat := if (overlay q.gsrc 63).isSome then 0 else ((use q.instr).gr.filter (· = 63)).length

/-- Queued slots that will pop v63 and have not. -/
def Core.vPops (c : Core) : Nat := (c.queued.map fun q => ((use q.instr).vr.filter (· = 63)).length).foldl (· + ·) 0
/-- Queued slots that will pop g63 and have not. -/
def Core.gPops (c : Core) : Nat := (c.queued.map QSlot.popsG).foldl (· + ·) 0
/-- Queued slots that will push g63 and have not. -/
def Core.gPushes (c : Core) : Nat := (c.queued.map fun q => ((use q.instr).gw.filter (· = 63)).length).foldl (· + ·) 0
/-- Queued slots that will push v63 and have not. -/
def Core.vPushes (c : Core) : Nat := (c.queued.map fun q => ((use q.instr).vw.filter (· = 63)).length).foldl (· + ·) 0

/-- A queued slot was issued before the slot that executes. -/
def Core.earlier (c : Core) (q : QSlot) : Bool :=
  decide (q.seq < c.curSeq) || (decide (q.seq = c.curSeq) && decide (q.slot < c.curSlot))

/-- A load-address entry is a store whose data has not paired. -/
def LaEntry.unpaired (e : LaEntry) (vec : Bool) : Bool :=
  (match e.kind with | .store => true | _ => false) && decide (e.vec = vec) && e.data.isNone

/-- Unpaired store addresses of a queue. -/
def Core.unpairedStores (c : Core) (vec : Bool) : Nat := (c.laq.filter fun e => e.unpaired vec).length

/-- Some byte of two accesses is the same (R103). -/
def piecesMeet (a b : List Piece) : Bool :=
  a.any fun p => b.any fun q => decide (p.at' < q.at' + q.len ∧ q.at' < p.at' + p.len)

/-- A load-address entry reads, for ACQ: a load or an atomic (R192). -/
def LaEntry.reads (e : LaEntry) : Bool :=
  match e.kind with
  | .load | .amo _ | .cas => true
  | _ => false

/-- A load-address entry writes, for REL: a store or an atomic (R192). -/
def LaEntry.writes (e : LaEntry) : Bool :=
  match e.kind with
  | .store | .amo _ | .cas => true
  | _ => false

/-- A prefetch, which is no access for ordering (R111). -/
def LaEntry.prefetch (e : LaEntry) : Bool :=
  match e.kind with
  | .fetchLine => true
  | _ => false

/-- An ACQ, REL or FENCE holds an access, given by its number and whether REL holds accesses of its kind, behind the entry `x`: ACQ waits for
loads and atomics, REL and FENCE for every access, and FENCE holds every access (R192, R203). Log 6, DESIGN CHOICE. -/
def Fence.between (f : Fence) (x : LaEntry) (id : Nat) (write : Bool) : Bool :=
  decide (x.id < f.at' ∧ f.at' ≤ id) && !x.prefetch && ((f.acq && x.reads) || (f.rel && (write || f.acq)))

/-- Everything that a fence waits for has been performed (R192, R206). -/
def Core.fenceDone (c : Core) (f : Fence) : Bool :=
  !(c.laq.any fun x => decide (x.id < f.at') && !x.prefetch && ((f.acq && x.reads) || f.rel))

/-- An earlier entry holds a later one back: their bytes meet (R103), or a fence stands between them (R192). -/
def Core.holdsBack (c : Core) (x e : LaEntry) : Bool :=
  decide (x.id < e.id) && !x.prefetch && !e.prefetch
    && ((decide (x.sp = e.sp) && piecesMeet x.pieces e.pieces) || c.fences.any fun f => f.between x e.id e.writes)

/-- A store entry has no data, but for what the bundle that now issues would give it: its slots have not issued (R50, R104). -/
def Core.lacks (c : Core) (e : LaEntry) (vec : Bool) : Bool :=
  e.unpaired vec || ((match e.kind with | .store => true | _ => false) && decide (e.vec = vec) && c.mine.contains e.id)

/-- Queued slots of earlier bundles that will push g63 and have not. -/
def Core.gComing (c : Core) : Nat :=
  ((c.queued.filter fun q => decide (q.seq ≠ c.seq)).map fun q => ((use q.instr).gw.filter (· = 63)).length).foldl (· + ·) 0
/-- Queued slots of earlier bundles that will push v63 and have not. -/
def Core.vComing (c : Core) : Nat :=
  ((c.queued.filter fun q => decide (q.seq ≠ c.seq)).map fun q => ((use q.instr).vw.filter (· = 63)).length).foldl (· + ·) 0

/-- The entries of a list, oldest first, that are held back for good, each with the store-data queue whose missing push does it, 3 scalar and
4 vector; g and v count the pushes that queued slots still bring (R104). -/
def Core.stuckOf (c : Core) : List LaEntry → List (LaEntry × Nat) → Nat → Nat → List (LaEntry × Nat)
  | [], st, _, _ => st
  | e :: r, st, g, v =>
    let own := if c.lacks e false && decide (g = 0) then some 3
      else if c.lacks e true && decide (v = 0) then some 4
      else (st.find? fun x => c.holdsBack x.1 e).map (·.2)
    c.stuckOf r (match own with | some q => st ++ [(e, q)] | none => st)
      (if c.lacks e false then g - 1 else g) (if c.lacks e true then v - 1 else v)

/-- The entries of the load-address queue that are held back for good (R104). -/
def Core.stuckEntries (c : Core) : List (LaEntry × Nat) := c.stuckOf c.laq [] c.gComing c.vComing

/-- The queue that keeps a pop of the entry `id` waiting for good, if any: the load-data queue, when its load is one of the bundle that now
issues, or the store-data queue whose missing push holds the load back (R50, R104). -/
def Core.stuckStore (c : Core) (id : Nat) (vec : Bool := false) : Option Nat :=
  if c.mine.contains id then some (if vec then 2 else 1) else (c.stuckEntries.find? fun x => decide (x.1.id = id)).map (·.2)

/-- Pop the scalar load-data queue in a front slot: wait for back slots that pop first and for the data; a queue that can
never deliver is QUEUE_STUCK, poison is POISON_READ (R49, R50, R51, R104, R106). Log 63, DEDUCED. -/
def popG (s : State) (k : Word → State → Outcome) : Outcome :=
  match s.core.sldq with
  | [] => trap 0x005 1 0 s
  | e :: r =>
    if s.core.gPops ≠ 0 then stall s
    else match e.val with
      | none => match s.core.stuckStore e.id with
        | some q => trap 0x005 (BitVec.ofNat 64 q) 0 s
        | none => stall s
      | some w =>
        if e.poison then trap 0x01A e.addr 0 s
        else k w { s with core := { s.core with sldq := r } }

/-- Read a g source in a front slot (R21, R25). -/
def getG (r : GReg) (s : State) (k : Word → State → Outcome) : Outcome :=
  if r = 63 then popG s k else k (s.core.gVal r) s

/-- Give the oldest store address of a queue its data. -/
def pairFirst (vec : Bool) (d : Option VWord) : List LaEntry → List LaEntry
  | [] => []
  | e :: r => if e.unpaired vec then { e with data := some d } :: r else e :: pairFirst vec d r

/-- The oldest store address of a queue that waits for its data. -/
def Core.firstWaiting (c : Core) (vec : Bool) : List Nat := ((c.laq.find? fun e => e.unpaired vec).map (·.id)).toList

/-- Push the scalar store-data queue: the push pairs with the oldest store address that waits, else it waits (R51). -/
def Core.pushG (c : Core) (d : Option Word) : Core :=
  if c.unpairedStores false = 0 then { c with ssdq := c.ssdq ++ [d] }
  else { c with laq := pairFirst false (d.map fun w => w.setWidth 2048) c.laq, mine := c.mine ++ c.firstWaiting false }

/-- Push the vector store-data queue (R51). -/
def Core.pushV (c : Core) (d : Option VWord) : Core :=
  if c.unpairedStores true = 0 then { c with vsdq := c.vsdq ++ [d] }
  else { c with laq := pairFirst true d c.laq }

/-- Write a g register; g0 discards. The old value stays readable to the rest of the bundle (R21, R30). -/
def Core.writeG (c : Core) (r : GReg) (w : Word) : Core :=
  if r = 0 then c
  else { c with g := c.g.set r.toNat w r.isLt, early := (r, c.gVal r) :: c.early }

/-- Write a g destination in a front slot, or push g63: with no room the bundle waits, or is stuck (R25, R49, R50, R51). -/
def setG (r : GReg) (w : Word) (s : State) : Outcome :=
  if r = 63 then
    if s.core.gPushes ≠ 0 then stall s
    else if 32 ≤ s.core.ssdq.length then trap 0x005 3 0 s
    else done { s with core := s.core.pushG (some w) }
  else done { s with core := s.core.writeG r w }

/-- Write a k register; k0 discards (R30). -/
def Core.writeK (c : Core) (r : KReg) (m : MaskWord) : Core :=
  if r = 0 then c else { c with k := c.k.set r.toNat m r.isLt }

/-- Write a v register below v63 (R21, R143). -/
def Core.writeV (c : Core) (r : VReg) (v : VWord) : Core :=
  { c with v := c.v.set r.toNat v r.isLt, earlyV := (r, c.vVal r) :: c.earlyV }

/-! ### Translation (R219, R450) -/

/-- The leased page that holds a virtual page of a region: its physical page and what both stages allow. -/
def leasedPage (r : Region) (page : Nat) : Option (Nat × Bool × Bool × Bool) :=
  match r.leases.find? fun l => decide (l.start ≤ page ∧ page < l.start + l.pages) with
  | none => none
  | some l =>
    match l.frames[page - l.start]?, l.perms[page - l.start]? with
    | some f, some (pr, pw, px) => some (f, l.r && pr, l.w && pw, l.x && px)
    | _, _ => none

/-- The heap of a context holds this address (R219, R220). -/
def inHeap (c : Core) (va : Nat) : Bool :=
  c.heapbase.getLsbD 0 && decide (fld c.heapbase 12 45 * 4096 ≤ va ∧ va < fld c.heaplim 12 45 * 4096)

/-- Translate a virtual address for the access kinds needed: the physical address, or the cause (R219). Log 38, DEDUCED. -/
def State.translate (s : State) (va : Nat) (r w x : Bool) : Except Nat Nat :=
  if inHeap s.core va then
    let pa := (va + fld s.core.heapoff 12 52 * 4096) % 2 ^ 52
    if (w && !s.core.heapbase.getLsbD 1) || (x && !s.core.heapbase.getLsbD 2) then .error 0x142
    else if inDevice pa then .ok pa else .error 0x143
  else
    match s.myRegion with
    | none => .error 0x141
    | some rg =>
      match leasedPage rg (va / 4096) with
      | none => .error 0x141
      | some (f, pr, pw, px) =>
        if (r && !pr) || (w && !pw) || (x && !px) then .error 0x142 else .ok (f * 4096 + va % 4096)

/-- The runs of a range that lie in one page each; a range of one access meets two pages at most. -/
def pageRuns (va n : Nat) : List (Nat × Nat) :=
  if n ≤ 4096 - va % 4096 then [(va, n)] else [(va, 4096 - va % 4096), (va + (4096 - va % 4096), n - (4096 - va % 4096))]

/-- Translate every run of a range. -/
def State.translateRuns (s : State) (r w x : Bool) (off : Nat) : List (Nat × Nat) → Except Nat (List Piece)
  | [] => .ok []
  | (va, n) :: l =>
    match s.translate va r w x with
    | .error c => .error c
    | .ok pa => match s.translateRuns r w x (off + n) l with
      | .error c => .error c
      | .ok ps => .ok ({ off := off, at' := pa, len := n } :: ps)

/-! ### Table walks (R221) and the accesses of the vat die's own units -/

/-- The shift of a table level, 0 the top one (R221). -/
def levelShift (l : Nat) : Nat := 48 - 9 * l

/-- A table entry as R221 reads it. -/
inductive Pte where
  | bad
  | next (table : Nat)
  | leaf (base : Nat) (r w x dp : Bool)
deriving DecidableEq, Repr

/-- Read an entry of a level; bit 63 is defined in the first stage only (R221). -/
def readPte (first : Bool) (l : Nat) (e : Word) : Pte :=
  let at' := fld e 12 40 * 4096
  if !e.getLsbD 0 || !onlyBits e (if first then 0x800FFFFFFFFFF00F else 0xFFFFFFFFFF00F) then .bad
  else if fld e 1 3 = 0 then (if l = 4 then .bad else .next at')
  else if l < 2 ∨ at' % 2 ^ levelShift l ≠ 0 then .bad
  else .leaf at' (e.getLsbD 1) (e.getLsbD 2) (e.getLsbD 3) (e.getLsbD 63)

/-- A second-stage leaf may name this page: no hole, and both ports of a tier-1 die bound (R221, R431). Log 39, DEDUCED. -/
def frameOk (ports : Option (BitVec 16)) (pa : Nat) : Bool :=
  !inHole pa && (!inTier1 pa || ports.all fun m => m.getLsbD (2 * dieOf pa) && m.getLsbD (2 * dieOf pa + 1))

/-- Walk the second stage for a guest-physical address: the physical address and the kinds its leaf allows (R221). -/
def walk2 (m : Store) (ports : Option (BitVec 16)) (gpa : Nat) : Nat → Nat → Nat → Option (Nat × Bool × Bool × Bool)
  | 0, _, _ => none
  | k + 1, l, table =>
    let i := gpa / 2 ^ levelShift l % (if l = 0 then 16 else 512)
    match readPte false l (m.word (table + 8 * i)) with
    | .bad => none
    | .next t => walk2 m ports gpa k (l + 1) t
    | .leaf b r w x _ =>
      let pa := b + gpa % 2 ^ levelShift l
      if frameOk ports pa then some (pa, r, w, x) else none

/-- What a walk of both stages comes to. -/
inductive Walk where
  /-- physical address, the kinds that both stages allow, DP -/
  | ok (pa : Nat) (r w x dp : Bool)
  /-- a first-stage fault -/
  | first
  /-- a second-stage fault on a guest-physical address; in a table fetch or not (R226) -/
  | second (gpa : Nat) (table : Bool)
deriving DecidableEq, Repr

/-- Walk the first stage, each entry fetched through the second; a leaf that withholds a needed kind fails its stage (R221, R226). -/
def walk1 (m : Store) (ports : Option (BitVec 16)) (root2 va : Nat) (needR needW : Bool) : Nat → Nat → Nat → Walk
  | 0, _, _ => .first
  | k + 1, l, table =>
    let gpa := table + 8 * (va / 2 ^ levelShift l % 512)
    match walk2 m ports gpa 5 0 root2 with
    | some (pa, true, _, _) =>
      (match readPte true l (m.word pa) with
        | .bad => .first
        | .next t => walk1 m ports root2 va needR needW k (l + 1) t
        | .leaf b r w x dp =>
          let gpa := b + va % 2 ^ levelShift l
          if (needR && !r) || (needW && !w) then .first
          else match walk2 m ports gpa 5 0 root2 with
          | some (pa, r', w', x') => if (needR && !r') || (needW && !w') then .second gpa false
              else .ok pa (r && r') (w && w') (x && x') dp
          | none => .second gpa false)
    | _ => .second gpa true

/-- Physical addresses of the second-stage entries that a walk of a guest-physical address reads (R221). -/
def cells2 (m : Store) (gpa : Nat) : Nat → Nat → Nat → List Nat
  | 0, _, _ => []
  | k + 1, l, table =>
    let at' := table + 8 * (gpa / 2 ^ levelShift l % (if l = 0 then 16 else 512))
    at' :: (match readPte false l (m.word at') with
      | .next t => cells2 m gpa k (l + 1) t
      | _ => [])

/-- Physical addresses of all the entries that a walk of both stages reads (R221). -/
def cells1 (m : Store) (ports : Option (BitVec 16)) (root2 va : Nat) : Nat → Nat → Nat → List Nat
  | 0, _, _ => []
  | k + 1, l, table =>
    let gpa := table + 8 * (va / 2 ^ levelShift l % 512)
    cells2 m gpa 5 0 root2 ++ (match walk2 m ports gpa 5 0 root2 with
      | some (pa, true, _, _) => pa :: (match readPte true l (m.word pa) with
          | .next t => cells1 m ports root2 va k (l + 1) t
          | .leaf b _ _ _ _ => cells2 m (b + va % 2 ^ levelShift l) 5 0 root2
          | .bad => [])
      | _ => [])

/-- The context that the vat die holds for an address space, word n of R220. Log 46, DESIGN CHOICE. -/
def Asid.word (a : Asid) (n : Nat) : Word := a.ctx.getD n 0

/-- Where a page lies that the migration controller may have moved (R229, R439). -/
def State.relocate (s : State) (pa : Nat) : Nat := ((assocGet s.moved (pa / 4096)).getD (pa / 4096)) * 4096 + pa % 4096

/-- Walk both stages of an address space in a partition for the kinds needed (R221). Log 38, DEDUCED. -/
def State.walk (s : State) (part asid va : Nat) (r w : Bool) : Walk :=
  if 2 ^ 57 ≤ va then .first
  else match walk1 s.mem (s.part part).memports ((s.part part).s2root.getD 0) va r w 5 0 (fld ((s.asidOf asid).word 5) 12 40 * 4096) with
  | .ok pa pr pw px dp => .ok (s.relocate pa) pr pw px dp
  | f => f

/-- The tiles of the table entries that a walk reads, lowest cell first in its order (R218, R221). -/
def State.walkTiles (s : State) (part asid va : Nat) : List Nat :=
  ((cells1 s.mem (s.part part).memports ((s.part part).s2root.getD 0) va 5 0 (fld ((s.asidOf asid).word 5) 12 40 * 4096)).map
    (· / 4096)).eraseDups

/-- The address lies in the heap of the address space's context (R219). -/
def Asid.inHeap (a : Asid) (va : Nat) : Bool :=
  (a.word 2).getLsbD 0 && decide (fld (a.word 2) 12 45 * 4096 ≤ va ∧ va < fld (a.word 3) 12 45 * 4096)

/-- The tiles that a translation for a unit of the vat die reads (R218, R221). -/
def State.vatTiles (s : State) (part asid va : Nat) : List Nat :=
  if (s.asidOf asid).inHeap va then [] else s.walkTiles part asid va

/-- Translate for a unit of the vat die: the heap of the address space's context, else both stages (R219, R221). -/
def State.vatWalk (s : State) (part asid va : Nat) (r w : Bool) : Walk :=
  let a := s.asidOf asid
  let base := a.word 2
  if a.inHeap va then
    let pa := (va + fld (a.word 4) 12 52 * 4096) % 2 ^ 52
    if inDevice pa && !(w && !base.getLsbD 1) then .ok pa true (base.getLsbD 1) (base.getLsbD 2) false else .first
  else s.walk part asid va r w

/-- Physical address of a virtual one for a unit of the vat die, when the kinds allow. -/
def State.vatPlace (s : State) (part asid va : Nat) (r w : Bool) : Option Nat :=
  match s.vatWalk part asid va r w with
  | .ok pa _ _ _ _ => some pa
  | _ => none

/-! ### Notes that a write leaves -/

/-- A watch that a write of words lo to hi of a space reaches (R190). -/
def Watch.hit (sp : Bool) (lo hi : Nat) (w : Watch) : Watch :=
  if w.armed && decide (w.sp = sp) && decide (lo ≤ w.addr ∧ w.addr ≤ hi) && decide (w.reason = 0)
  then { w with reason := 1 } else w

/-- A core with a report waiting leaves IDLE (R88, R191). -/
def Core.wakeWatch (c : Core) : Core :=
  if c.watches.toList.any fun w => decide (w.reason ≠ 0) then
    match c.run with
    | .idle _ => { c with run := .running }
    | _ => c
  else c

/-- A core sees a write of words lo to hi of global memory (physical word numbers). -/
def Core.seeGlobal (lo hi : Nat) (c : Core) : Core :=
  { c with watches := c.watches.map (Watch.hit false lo hi) }.wakeWatch
/-- A core sees a write of words lo to hi of its scratchpad. -/
def Core.seeSpad (lo hi : Nat) (c : Core) : Core :=
  { c with watches := c.watches.map (Watch.hit true lo hi) }.wakeWatch

/-- The tile is brought into the last-level cache by an access, and checked under the accessor's key slot (R218, R230); a fill that
fails its tag check poisons the tile, empties its full/empty bits and sets has-parked (R232). The answer says whether it failed. -/
def State.fillTile (s : State) (n : Nat) : State × Bool :=
  let t := s.tileOf n
  if t.inCache then (s, false)
  else
    let k := fld s.core.keysel 0 10
    let t' := { t with inCache := true, inject := false, keyid := k }
    if t.broken || t.inject || t.under.any fun u => decide (u ≠ k) then
      ({ s.putTile n { t' with stored := some (s.mem.tileBits n) } with
          mem := s.mem.setTileBits n ([], (List.range 128).map fun i => 128 * n + i, true) }, true)
    else (s.putTile n t', false)

/-- A core-path store leaves a host line dirty in the sorus cache, where the feature is accepted (R217, R369, R428). Log 8, DEDUCED. -/
def State.noteHost (s : State) (pa : Nat) : State :=
  if inHost pa && s.featack.getLsbD 5 && !s.mem.dark then { s with hostDirty := assocPut s.hostDirty (pa / 64) s.core.part } else s

/-- The page is reported dirty for its partition (R437), and its tile is dirty (R231). Log 8, DEDUCED. -/
def State.noteDirty (s : State) (pa : Nat) : State :=
  let p := s.part s.core.part
  let s := if p.st = .sealed ∨ p.st = .stopping then
      s.putPart s.core.part { p with dirty := numAdd p.dirty (pa / 4096) } else s
  if inDevice pa then s.putTile (pa / 4096) { s.tileOf (pa / 4096) with dirty := true }
  else s

/-- Bytes reach physical memory: they are written, every watch sees them, and the page is noted (R190, R345, R437). Host memory that
does not answer discards them (R371). -/
def State.writeRaw (s : State) (pa : Nat) (bs : List Byte) : State :=
  if bs.isEmpty || (s.mem.dark && inHost pa) then s
  else
    let s := { s with mem := s.mem.write pa bs }
    (s.mapCores (Core.seeGlobal (wordNo pa) (wordNo (pa + bs.length - 1)))).noteDirty pa

/-- Bytes reach the scratchpad of the current core. -/
def State.writeSpad (s : State) (a : Nat) (bs : List Byte) : State :=
  if bs.isEmpty then s
  else { s with core := ({ s.core with spad := s.core.spad.write a bs } : Core).seeSpad (wordNo a) (wordNo (a + bs.length - 1)) }

/-- Post one wake for each tile or block of a space in which a write has changed bits, given as words with their new bits, where the
has-parked flag is set (R121). -/
def State.postWakes (s : State) (sp : Bool) (words : List (Nat × Bool)) : State :=
  let st := if sp then s.core.spad else s.mem
  let blocks := (words.map fun x => x.1 / 512).eraseDups.filter fun b => numHas st.parked b
  { s with wakes := s.wakes ++ blocks.map fun b =>
      { core := if sp then some s.core.id else none, block := b, words := words.filter fun x => decide (x.1 / 512 = b) } }

/-- Give the word at an address of a space its full/empty bit: every watch sees it, even when it held the value (R190). -/
def State.putFe (s : State) (sp : Bool) (a : Nat) (v : Bool) : State :=
  if sp then { s with core := ({ s.core with spad := s.core.spad.setFe a v } : Core).seeSpad (wordNo a) (wordNo a) }
  else (({ s with mem := s.mem.setFe a v } : State).mapCores (Core.seeGlobal (wordNo a) (wordNo a))).noteDirty a

/-- Set the full/empty bit of a word of a space; a change posts a wake (R121, R190). -/
def State.setFeAt (s : State) (sp : Bool) (a : Nat) (v : Bool) : State :=
  if (if sp then s.core.spad else s.mem).fe a = v then s.putFe sp a v else (s.putFe sp a v).postWakes sp [(wordNo a, v)]

/-- The store of a space: the scratchpad of the current core, or physical memory. -/
def State.space (s : State) (sp : Bool) : Store := if sp then s.core.spad else s.mem

/-- This package is its pod's time master: package 0, or the lowest-numbered package that is not lost (R399). Log 73, DEDUCED. -/
def State.master (s : State) : Bool := s.inPod && (List.range s.pkg).all s.lost.contains

/-- Pod time is of use here: outside a pod, at the master, or within 20 ns of the master's (R36, R399). -/
def State.podGood (s : State) : Bool := !s.inPod || s.master || s.podSync

/-- Do something on behalf of a partition: the pages it writes are that partition's, and so is the key of its tiles (R230, R437). -/
def State.forPart (s : State) (p : Nat) (f : State → State) : State :=
  let q := s.core.part
  let k := s.core.keysel
  let s := f { s with core := { s.core with part := p, keysel := BitVec.ofNat 64 ((s.part p).key.getD 0) } }
  { s with core := { s.core with part := q, keysel := k } }

/-- Do something on behalf of an address space of a partition (R230, R319, R437). -/
def State.forSpace (s : State) (p asid : Nat) (f : State → State) : State :=
  let a := s.core.asid
  let s := s.forPart p fun s => f { s with core := { s.core with asid := asid } }
  { s with core := { s.core with asid := a } }

/-- The identity of a fill engine (R309, R320). Log 13, DEDUCED. -/
def State.fillInfo (s : State) : Word := tinfoImage 0 false false 2 (if s.inPod then s.pkg else 0) 0 0x7F
/-- A fill has failed its tag check, at origin 2 (R232). -/
def State.tagFailure (s : State) : Trap := { code := 0x087, tinfo := s.fillInfo }

/-- Bring tiles of device memory in; the answer counts the fills that fail (R218, R232). -/
def State.fillTiles (s : State) : List Nat → State × Nat
  | [] => (s, 0)
  | n :: r =>
    let (s1, bad) := if inDevice (n * 4096) then s.fillTile n else (s, false)
    let (s2, k) := s1.fillTiles r
    (s2, k + bad.toNat)

/-- Write a fault record into a ring whose next place is the given one (R320): it is dropped, and LOST rises, when no ring is
set, the place cannot be reached, its word 7 is poisoned, or V is still set there. The answer counts the fills of the place that fail. -/
def ringRecord (s : State) (ring : FaultRing) (words : List Word) (place : State → Nat → Option Nat) : State × FaultRing × Nat :=
  let base := fld ring.reg 12 45 * 4096
  let lost := { ring with reg := setFld ring.reg 4 8 (min 255 (fld ring.reg 4 8 + 1)) }
  if base = 0 then (s, lost, 0)
  else match place s (base + 64 * (ring.pos % 2 ^ fld ring.reg 0 4)) with
    | none => (s, lost, 0)
    | some pa =>
      let (s, n) := s.fillTiles [pa / 4096]
      if s.mem.poisoned (pa + 56) || (s.mem.word (pa + 56)).getLsbD 63 then (s, lost, n)
      else
        (s.writeRaw pa ((words ++ [BitVec.ofNat 64 (2 ^ 63)]).flatMap fun w => leBytes 8 w.toNat),
         { ring with pos := (ring.pos + 1) % 2 ^ fld ring.reg 0 4 }, n)

/-- Write k records of failed fills behind a record (R232). -/
def tagRecords (words : List Word) (place : State → Nat → Option Nat) : Nat → State × FaultRing → State × FaultRing
  | 0, x => x
  | k + 1, (s, ring) => let (s, ring, _) := ringRecord s ring words place; tagRecords words place k (s, ring)

/-- A record for the supervisor's ring of an address space (R319, R320): the ring lies at virtual addresses of that space, whose tables are read
for it (R218, R232). Log 50, DEDUCED. -/
def State.recordSv (s : State) (t : Trap) (asid part : Nat) : State :=
  s.forSpace part asid fun s =>
    let ring := (s.asidOf asid).frqs
    let place (s : State) (va : Nat) := s.vatPlace part asid va true true
    let (s, n) := s.fillTiles (s.vatTiles part asid (fld ring.reg 12 45 * 4096 + 64 * (ring.pos % 2 ^ fld ring.reg 0 4)))
    let (s, ring, k) := ringRecord s ring (recordWords t asid part s.pktime) place
    let (s, ring) := tagRecords (recordWords s.tagFailure asid part s.pktime) place (n + k) (s, ring)
    s.putAsid asid { s.asidOf asid with frqs := ring }

/-- A record for the hypervisor's ring of a partition (R319, R320): the ring lies at physical addresses. Log 50, DEDUCED. -/
def State.recordHv (s : State) (t : Trap) (asid part : Nat) : State :=
  s.forSpace part asid fun s =>
    let (s, ring, k) := ringRecord s (s.part part).frqh (recordWords t asid part s.pktime) fun _ pa => if inHole pa then none else some pa
    let s := s.putPart part { s.part part with frqh := ring }
    if k = 0 then s else s.recordSv s.tagFailure asid part

/-- The identity of the vat die in a record that no bundle caused (R309). Log 13, DEDUCED. -/
def State.vatInfo (s : State) : Word := tinfoImage 0 false false 3 (if s.inPod then s.pkg else 0) 0 0x7F

/-- Bytes of a space that an access reads, whole pieces in order. -/
def readPieces (m : Store) : List Piece → List Byte
  | [] => []
  | p :: r => m.read p.at' p.len ++ readPieces m r

/-- Some piece touches a poisoned sector. -/
def poisonPieces (m : Store) (ps : List Piece) : Bool := ps.any fun p => m.anyPoison p.at' p.len

/-- Tiles of device memory are brought in, each failed tag check with its record at origin 2 (R218, R232). The answer says whether one failed. Log 8, DEDUCED. -/
def State.touchTiles (s : State) : List Nat → State × Bool
  | [] => (s, false)
  | n :: r =>
    let (s1, bad) := if inDevice (n * 4096) then s.fillTile n else (s, false)
    let s1 := if bad then
        s1.recordSv s1.tagFailure s1.core.asid s1.core.part
      else s1
    let (s2, bad2) := s1.touchTiles r
    (s2, bad || bad2)

/-- The tiles that a range meets. -/
def tilesIn (a n : Nat) : List Nat := if n = 0 then [] else (List.range ((a + n - 1) / 4096 - a / 4096 + 1)).map fun i => a / 4096 + i

/-- Bring the tiles of an access in (R218, R232). -/
def State.touchPieces (s : State) (ps : List Piece) : State × Bool :=
  s.touchTiles (ps.flatMap fun p => tilesIn p.at' p.len).eraseDups

/-- The tiles of the table entries that a translation of the vat die reads come in (R218, R221, R230). -/
def State.touchVat (s : State) (part asid va : Nat) : State :=
  s.forSpace part asid fun s => (s.touchTiles (s.vatTiles part asid va)).1

/-- Bring the tiles of an access in on behalf of a partition (R218, R230, R232). -/
def State.touchFor (s : State) (p : Nat) (ps : List Piece) : State × Bool :=
  let x := ({ s with core := { s.core with part := p, keysel := BitVec.ofNat 64 ((s.part p).key.getD 0) } } : State).touchPieces ps
  ({ x.1 with core := { x.1.core with part := s.core.part, keysel := s.core.keysel } }, x.2)

/-- A unit of the package reads or writes a range: its tiles come in (R218). -/
def State.touchRange (s : State) (a n : Nat) : State := (s.touchTiles (tilesIn a n)).1

/-- A write to physical memory: its tiles come in, then the bytes reach it (R190, R218, R345, R437). -/
def State.writePhys (s : State) (a : Nat) (bs : List Byte) : State := (s.touchRange a bs.length).writeRaw a bs

end Sys2Proof.Machine
end

