-- ==== Sys2Proof/Machine/Lanes.lean ====
section
/-!
DEFINITION. What every vector slot is made of: elements and masks (R140 to R142), the sources of a V slot and its
destination with their queue ports (R51, R54, R143, R172), and the conditions it records (R145).
-/

namespace Sys2Proof.Machine

/-! ### Elements and masks (R140, R141) -/

/-- e(x, w, j): element j of width w. -/
def elem (v : VWord) (w j : Nat) : Nat := v.toNat / 2 ^ (w * j) % 2 ^ w

/-- The n elements f 0, f 1, … of width w packed from bit 0, and the union of their conditions. -/
def packElems (w : Nat) (f : Nat → Nat × Conds) : Nat → Nat × Conds
  | 0 => (0, 0)
  | n + 1 =>
    let r := packElems w f n
    let e := f n
    (r.1 + e.1 % 2 ^ w * 2 ^ (w * n), r.2 ||| e.2)

/-- A whole register of elements of width w. -/
def lanes (w : Nat) (f : Nat → Nat × Conds) : VWord × Conds :=
  let r := packElems w f (2048 / w)
  (BitVec.ofNat 2048 r.1, r.2)

/-- An element is active under a mask by the bit of its lowest byte (R141). -/
def active (k : MaskWord) (w j : Nat) : Bool := k.getLsbD (w * j / 8)

end Sys2Proof.Machine

namespace Sys2Proof

/-- Element width of a type (R140). -/
def VTy.width : VTy → Nat
  | .i32 | .w32 | .f32 => 32
  | .i16 | .w16 | .f16 | .b16 => 16

/-- The floating format of a type. -/
def VTy.fmt : VTy → Option Machine.Fmt
  | .f32 => some .f32
  | .f16 => some .f16
  | .b16 => some .b16
  | _ => none

/-- Integers of this type are signed. -/
def VTy.signed : VTy → Bool
  | .i32 | .i16 => true
  | _ => false

/-- Width of a narrow type. -/
def NTy.width : NTy → Nat
  | .i8 | .w8 => 8
  | .i16 | .w16 => 16

/-- A narrow type is signed. -/
def NTy.signed : NTy → Bool
  | .i8 | .i16 => true
  | _ => false

end Sys2Proof

namespace Sys2Proof.Machine

/-- An integer element read as its type says. -/
def intElem (signed : Bool) (w c : Nat) : Int := if signed then signedOf w c else ((c % 2 ^ w : Nat) : Int)

/-! ### Sources and destinations of back slots (R48, R51, R54, R143, R172) -/

/-- Read v sources in order; v63 pops, and data that has not arrived holds the slot. A poisoned entry is popped and its
address handed on (R54, R346). -/
def readVs : List VReg → State → (List VWord → Option Word → State → Outcome) → Outcome
  | [], s, k => k [] none s
  | r :: l, s, k =>
    if r = 63 then
      match s.core.vldq with
      | [] => stall s
      | e :: q =>
        match e.val with
        | none => stall s
        | some v =>
          readVs l { s with core := { s.core with vldq := q } } fun vs bad s =>
            k (v :: vs) (if e.poison then some e.addr else bad) s
    else readVs l s fun vs bad s => k (s.core.vVal r :: vs) bad s

/-- Read g sources of a back slot; g63 pops after the pops of every earlier slot, unless the value was taken at issue. -/
def readGs : List GReg → State → (List Word → Option Word → State → Outcome) → Outcome
  | [], s, k => k [] none s
  | r :: l, s, k =>
    if r = 63 ∧ (overlay s.core.early 63).isNone then
      if s.core.queued.any fun q => s.core.earlier q && decide (q.popsG ≠ 0) then stall s
      else match s.core.sldq with
        | [] => stall s
        | e :: q =>
          match e.val with
          | none => stall s
          | some w =>
            readGs l { s with core := { s.core with sldq := q } } fun ws bad s =>
              k (w :: ws) (if e.poison then some e.addr else bad) s
    else readGs l s fun ws bad s => k (s.core.gVal r :: ws) bad s

/-- A push of v63 finds room: a store address that waits, or a free entry of 16 (R31). -/
def roomV (c : Core) : Bool := decide (c.unpairedStores true ≠ 0) || decide (c.vsdq.length < 16)

/-- A push of g63 by a back slot finds room, and every earlier slot's push has been made (R51). -/
def roomG (c : Core) : Bool :=
  (decide (c.unpairedStores false ≠ 0) || decide (c.ssdq.length < 32))
    && !(c.queued.any fun q => c.earlier q && (use q.instr).gw.contains 63)

/-- The destinations of a slot can take its result. -/
def roomFor (i : Use) (c : Core) : Bool := (!i.vw.contains 63 || roomV c) && (!i.gw.contains 63 || roomG c)

/-- A back slot that traps takes its place in the store-data queues as an empty push (R54). -/
def Core.emptyPushes (i : Use) (c : Core) : Core :=
  let c := if i.vw.contains 63 then c.pushV none else c
  if i.gw.contains 63 then c.pushG none else c

/-- A back slot takes an imprecise trap with the empty pushes of R54. -/
def backTrap (i : Instr) (code : Nat) (tval tval2 : Word) (s : State) : Outcome :=
  let s := holdHere code tval tval2 s
  done { s with core := s.core.emptyPushes (use i) }

/-- An engine of another die refuses the current slot: the trap names that engine, and the pushes become empty (R54, R309). -/
def engineHold (src die : Nat) (code : Nat) (tval tval2 : Word) (s : State) : State :=
  hold (s.engineTrap src die code tval tval2 s.core.curBundle s.core.curSlot s.core.curSeq) s

/-- Write a v destination; v63 pushes the vector store-data queue (R25). -/
def Core.setV (c : Core) (d : VReg) (v : VWord) : Core := if d = 63 then c.pushV (some v) else c.writeV d v

/-- Write a g destination of a back slot; g63 pushes the scalar store-data queue (R25). -/
def Core.setBackG (c : Core) (d : GReg) (w : Word) : Core := if d = 63 then c.pushG (some w) else c.writeG d w

/-- A V slot: it reads its sources, takes POISON_READ when one of them is poisoned, with the address of the first v
source popped that is, or else of a g source; it writes when none is (R143, R172, R346). Log 83, DEDUCED. -/
def vslot (i : Instr) (vr : List VReg) (gr : List GReg) (s : State) (f : List VWord → List Word → Core → Core) : Outcome :=
  if !roomFor (use i) s.core then stall s
  else readVs vr s fun vs bad s => readGs gr s fun ws bad' s =>
    match bad, bad' with
    | none, none => done { s with core := f vs ws s.core }
    | some a, _ => backTrap i 0x047 a 0 s
    | none, some a => backTrap i 0x047 a 0 s

/-- Write a v register and record conditions. -/
def Core.result (c : Core) (d : VReg) (r : VWord × Conds) : Core := (c.record r.2).setV d r.1

end Sys2Proof.Machine
end

