-- ==== Sys2Proof/Machine/Planes.lean ====
section
/-!
DEFINITION. Plane tiles and the matrix engine's arithmetic: bank formats (R210, R214), quantisation (R236 to R239), block
sums and promotion (R240 to R243), the operands of M slots with their checks at issue (R251 to R253, R258), the bytes an
operation reads and the granules they keep busy (R247, R255), and result queues (R246, R261).
-/

namespace Sys2Proof.Machine

/-! ### Banks (R208, R210, R214) -/

/-- The format register of the bank that holds a scratchpad address. -/
def Core.bankOf (c : Core) (a : Nat) : Word := (assocGet c.olds (0x800 + a / 0x400)).getD (c.bf.toList.getD (a / 0x400) 0)
/-- Planes of the bank that holds an address: PCNT + 1. -/
def Core.planesAt (c : Core) (a : Nat) : Nat := fld (c.bankOf a) 16 4 + 1
/-- Bytes of a plane tile (R214). -/
def tileBytes (p : Nat) : Nat := 32 + 128 * p
/-- The banks of a range are plane banks of one format and plane count (R214). -/
def Core.planeRange (c : Core) (a n : Nat) : Bool :=
  (List.range ((a + n - 1) / 0x400 - a / 0x400 + 1)).all fun i =>
    let w := c.bankOf (a + 0x400 * i)
    decide (fld w 8 2 = 2) && decide (fld w 0 8 = fld (c.bankOf a) 0 8) && decide (fld w 16 4 = fld (c.bankOf a) 16 4)

/-- Header byte r of the tile at x (R214). -/
def header (m : Store) (x r : Nat) : Nat := (cellGet m.bytes (x + r)).toNat
/-- Bit (r, k) of plane j of the tile at x (R214). -/
def planeBit (m : Store) (x j r k : Nat) : Bool := (cellGet m.bytes (x + 32 + 128 * j + 4 * k + r / 8)).getLsbD (r % 8)
/-- Element (r, k) of the tile at x, read through its first n planes (R240). -/
def planeValue (m : Store) (x n r k : Nat) : Int :=
  (List.range n).foldl (fun v j => 2 * v + (if planeBit m x j r k then (if j = 0 then -1 else 1) else 0)) 0
/-- A block: its header byte and its 32 values. -/
def block (m : Store) (x n r : Nat) : Nat × List Int := (header m x r, (List.range 32).map (planeValue m x n r))
/-- The 32 blocks of a tile. -/
def blocks (m : Store) (x n : Nat) : List (Nat × List Int) := (List.range 32).map (block m x n)

/-! ### Quantisation (R236 to R239) -/

/-- The exponent e of a non-zero element (R236): a subnormal of a floating source format has the exponent of the smallest
normal value. A value decoded from a plane tile comes from no format of R236 (`none`), and is taken as an integer is. Log 20, DEDUCED. -/
def elemExp (f : Option Fmt) : Val → Option Int
  | .fin _ m q =>
    if m = 0 then none
    else
      let e : Int := (Nat.log2 m : Int) + q
      some (match f with
        | some f => if f.isInt then e else max e f.layout.emin
        | none => e)
  | _ => none

/-- One block's header and q values from its elements, of source format f (R237, R238); an exponent outside -127 to 127, which only values
decoded from a plane tile have, is taken modulo 2^8. Log 20, DEDUCED. Log 86, DESIGN CHOICE. -/
def quantise (f : Option Fmt) (p : Nat) (vs : List Val) : Nat × List Int :=
  if vs.any fun v => (match v with | .fin _ _ _ => false | _ => true) then (0x80, vs.map fun _ => 0)
  else
    match vs.filterMap (elemExp f) with
    | [] => (0, vs.map fun _ => 0)
    | x :: r =>
      let top := r.foldl max x
      (intCode 8 top, vs.map fun v => match v with
        | .fin neg m q =>
          let y := (roundInt 0 false m (q - top + p - 2)).1
          let y : Int := if !neg && decide (y = 2 ^ (p - 1)) then (2 ^ (p - 1) : Nat) - 1 else y
          if neg then -y else y
        | _ => 0)

/-- The value that a plane element stands for (R239). -/
def planeVal (p hdr : Nat) (q : Int) : Val :=
  if hdr = 0x80 then .nan else .fin (decide (q < 0)) q.natAbs (signedOf 8 hdr - p + 2)

/-- The byte of plane j that holds rows 8 g to 8 g + 7 at element k, from the q values of the blocks. -/
def planeByte (p : Nat) (rows : List (List Int)) (j k g : Nat) : Byte :=
  BitVec.ofNat 8 ((List.range 8).foldr (fun b n =>
    2 * n + (if (intCode p (((rows.getD (8 * g + b) []).getD k 0))) / 2 ^ (p - 1 - j) % 2 = 1 then 1 else 0)) 0)

/-- The bytes of a plane tile (R214). -/
def tileOfBlocks (p : Nat) (bs : List (Nat × List Int)) : List Byte :=
  let rows := bs.map (·.2)
  (bs.map fun b => BitVec.ofNat 8 b.1) ++
    (List.range p).flatMap fun j => (List.range 32).flatMap fun k => (List.range 4).map fun g => planeByte p rows j k g

/-! ### Sums and promotion (R241 to R243) -/

/-- The exact block sum (R241). -/
def blockSum (a b : List Int) : Int := (a.zip b).foldl (fun s x => s + x.1 * x.2) 0
/-- The clamp of R242. -/
def clampS (s : Int) : Int := max (-(2 ^ 31 : Nat)) (min ((2 ^ 31 : Nat) - 1) s)
/-- An element of an accumulator is finite. -/
def accFinite (x : Nat) : Bool := match decodeVal .f32 x with | .fin _ _ _ => true | _ => false
/-- promote and check_promote (R243, R256): add m * 2 ^ q. -/
def promote (acc : Nat) (special : Bool) (m : Int) (q : Int) : Nat :=
  if special then 0x7FC00000
  else if m ≠ 0 && accFinite acc then (addVal .f32 0 (decodeVal .f32 acc) (.fin (decide (m < 0)) m.natAbs q)).1
  else acc

/-- The 1,024 elements of a bank in order (R235). -/
def accElems (a : AccWord) : List Nat := (List.range 1024).map fun n => a.toNat / 2 ^ (32 * n) % 2 ^ 32
/-- A bank of 1,024 elements. -/
def packAcc (l : List Nat) : AccWord := BitVec.ofNat 32768 (l.foldr (fun x n => x % 2 ^ 32 + 2 ^ 32 * n) 0)

/-- What an operation leaves: the bank's elements and whether it clamped and whether it wrote the default NaN. -/
structure MRes where
  acc : List Nat
  sat : Bool := false
  nan : Bool := false
deriving DecidableEq, Repr

/-- Header as an exponent. -/
def hexp (h : Nat) : Int := signedOf 8 h

/-- One K block of MMA (R254). -/
def mmaBlock (pa pb : Nat) (as' bs : List (Nat × List Int)) (r : MRes) : MRes :=
  let pairs := as'.flatMap fun a => bs.map fun b => (a, b)
  let one (x : Nat × ((Nat × List Int) × (Nat × List Int))) : Nat :=
    promote x.1 (decide (x.2.1.1 = 0x80) || decide (x.2.2.1 = 0x80)) (clampS (blockSum x.2.1.2 x.2.2.2))
      (hexp x.2.1.1 + hexp x.2.2.1 - pa - pb + 4)
  { acc := (r.acc.zip pairs).map one,
    sat := r.sat || pairs.any fun x => decide (clampS (blockSum x.1.2 x.2.2) ≠ blockSum x.1.2 x.2.2),
    nan := r.nan || pairs.any fun x => decide (x.1.1 = 0x80) || decide (x.2.1 = 0x80) }

/-- A sum of m * 2 ^ q values as one such value. -/
def sumDyadic (l : List (Int × Int)) : Int × Int :=
  l.foldl (fun s x =>
    let q := min s.2 x.2
    (s.1 * (2 ^ (s.2 - q).toNat : Nat) + x.1 * (2 ^ (x.2 - q).toNat : Nat), q)) (0, 0)

/-- One K block of MCHK: row checksums into row 0, column checksums into row 1 (R256). -/
def mchkBlock (pa pb : Nat) (as' bs : List (Nat × List Int)) (r : MRes) : MRes :=
  let term (a b : Nat × List Int) : Int × Int :=
    (clampS (blockSum a.2 b.2), hexp a.1 + hexp b.1 - pa - pb + 4)
  let bad (x : Nat × List Int) : Bool := decide (x.1 = 0x80)
  let rows := as'.map fun a => (bad a || bs.any bad, sumDyadic (bs.map (term a)))
  let cols := bs.map fun b => (bad b || as'.any bad, sumDyadic (as'.map fun a => term a b))
  { acc := (r.acc.zipIdx).map fun x =>
      match (rows ++ cols)[x.2]? with
      | some (sp, (m, q)) => promote x.1 sp m q
      | none => x.1,
    sat := r.sat || as'.any fun a => bs.any fun b => decide (clampS (blockSum a.2 b.2) ≠ blockSum a.2 b.2),
    nan := r.nan || as'.any bad || bs.any bad }

/-! ### Operands (R251 to R253, R257) -/

/-- The operands of an operation over tiles. -/
structure MOps where
  n  : Nat
  pa : Nat
  pb : Nat
  /-- start addresses of the A and B tiles, block by block -/
  as' : List Nat
  bs  : List Nat
deriving DecidableEq, Repr

/-- Fields of a count word that are allowed to be set (R252). -/
def countBits : Word := 0xFFFFFFFF1F1F03FF

/-- The second check of R253: reserved bits, plane counts, strides. -/
def countOk (w : Word) : Bool :=
  onlyBits w countBits && decide (2 ≤ fld w 16 5 ∧ fld w 16 5 ≤ 16) && decide (2 ≤ fld w 24 5 ∧ fld w 24 5 ≤ 16)
    && decide (fld w 32 16 % 32 = 0) && decide (fld w 48 16 % 32 = 0)

/-- Tile addresses from a start and a stride, 0 for the packed size (R252). -/
def tileList (c : Core) (start : Word) (stride n : Nat) : List Nat :=
  let st := if stride = 0 then tileBytes (c.planesAt start.toNat) else stride
  (List.range n).map fun t => (start + BitVec.ofNat 64 (t * st)).toNat

/-- The operands of MMA and MCHK from their three words (R251, R252). -/
def mOps (c : Core) (a w b : Word) : MOps :=
  { n := fld w 0 10, pa := fld w 16 5, pb := fld w 24 5,
    as' := tileList c a (fld w 32 16) (fld w 0 10), bs := tileList c b (fld w 48 16) (fld w 0 10) }

/-- The tiles in the order of R253, each with the planes it must have and its TVAL2. -/
def MOps.tiles (o : MOps) : List (Nat × Nat × Word) :=
  (List.range o.n).flatMap fun t =>
    [(o.as'.getD t 0, o.pa, word t), (o.bs.getD t 0, o.pb, BitVec.ofNat 64 (2 ^ 32 + t))]

/-- The tile checks of R253, row by row: the first failing tile of the first failing row. -/
def tileFault (c : Core) (limit : Nat) (o : MOps) : Option (Nat × Word × Word) :=
  let p (x : Nat) := c.planesAt x
  let bad (f : Nat × Nat × Word → Bool) := o.tiles.find? f
  match bad fun t => decide (t.1 % 32 ≠ 0) || decide (limit < t.1 + tileBytes (p t.1)) with
  | some t => some (0x043, word t.1, t.2.2)
  | none =>
    match bad fun t => !c.planeRange t.1 (tileBytes (p t.1)) with
    | some t => some (0x043, word t.1, t.2.2)
    | none =>
      match bad fun t => decide (p t.1 < t.2.1) with
      | some t => some (0x043, word t.1, t.2.2)
      | none => none

/-- The bank that a slot names, for ACC_RANGE (R253). -/
def namedBank : Instr → Option AccReg
  | .mma d _ _ | .mmas d _ _ | .mzero d | .mchk d _ _ => some d
  | .mdrn _ a => some a
  | .vacr _ a _ | .vacrRow _ a _ => some a
  | .vacw d _ _ | .vacwRow d _ _ => some d
  | _ => none

/-- The ring word of MMAS (R257, R258). -/
def ringWordOk (w : Word) : Bool := onlyBits w 0x1F0F0F && decide (fld w 0 4 ≠ fld w 8 4)

/-- The second of two g operands: where both are g63 it is the second entry popped (R51). -/
def Core.gSecond (c : Core) (a b : GReg) : Word :=
  if a = 63 ∧ b = 63 then (((c.early.filter fun x => decide (x.1 = 63)).map (·.2))[1]?).getD 0 else c.gVal b

/-- The checks at issue of a slot that names a bank or tiles, with its g operands (R253, R258): cause, TVAL, TVAL2. -/
def bankFault (s : State) (i : Instr) : Option (Nat × Word × Word) :=
  match namedBank i with
  | none => none
  | some b =>
    if s.accCount ≤ b.toNat then some (0x041, word b.toNat, 0)
    else
      let c := s.core
      match i with
      | .mma _ ra rb | .mchk _ ra rb =>
        let w := c.gVal (ra + 1)
        if countOk w then tileFault c s.spadSize (mOps c (c.gVal ra) w (c.gSecond (ra + 1) rb)) else some (0x042, w, 0)
      | .mmas _ ra rb =>
        let w := c.gSecond ra rb
        if countOk w && decide (fld w 32 32 = 0) then
          (if ringWordOk (c.gVal ra) then none else some (0x042, w, 0))
        else some (0x042, w, 0)
      | _ => none

/-! ### Bytes read, and busy granules (R247, R255) -/

/-- The bytes an operation reads: the header and the planes it uses (R255). -/
def MOps.reads (o : MOps) : List Piece :=
  (o.as'.map fun x => { off := 0, at' := x, len := tileBytes o.pa }) ++
    o.bs.map fun x => { off := 0, at' := x, len := tileBytes o.pb }

/-- The operands of a queued MMA or MCHK, under the bank formats that it goes by (R89, R211). -/
def queuedOps (c : Core) (q : QSlot) : Option MOps :=
  let c := { c with early := q.gsrc ++ c.early, olds := q.olds }
  match q.instr with
  | .mma _ a b | .mchk _ a b => some (mOps c (c.gVal a) (c.gVal (a + 1)) (c.gSecond (a + 1) b))
  | _ => none

/-- Two ranges meet in a granule of 2 KiB. -/
def sameGranule (p q : Piece) : Bool :=
  decide (0 < p.len ∧ 0 < q.len ∧ p.at' / 2048 ≤ (q.at' + q.len - 1) / 2048 ∧ q.at' / 2048 ≤ (p.at' + p.len - 1) / 2048)

/-- Some byte lies in a granule that an issued operation has still to read (R247). -/
def Core.granuleBusy (c : Core) (ps : List Piece) : Bool :=
  c.meq.any fun q => match queuedOps c q with
    | some o => o.reads.any fun r => ps.any (sameGranule r)
    | none => false

/-- A bank is named by a queued slot of an engine (R249). -/
def namesBank (l : List QSlot) (b : AccReg) : Bool := l.any fun q => decide (namedBank q.instr = some b)

/-- Every store of the core issued with or before the executing slot to these scratchpad bytes has been performed (R255, R268). -/
def Core.storesDone (c : Core) (seq : Nat) (sp : Bool) (ps : List Piece) : Bool :=
  !(c.laq.any fun e => (match e.kind with | .load | .fetchLine => false | _ => true) && decide (e.sp = sp)
      && decide (e.seq ≤ seq) && piecesMeet e.pieces ps)

/-! ### Result queues (R246, R261) -/

/-- A slot that pushes or pops queue n, or may (a link command names its queue in its descriptor). -/
def namesQueue (n : RqReg) (q : QSlot) : Bool :=
  (use q.instr).rq.contains n
    || (match q.instr with
        | .mmas _ a _ => let w := (overlay q.gsrc a).getD 0; w.getLsbD 19 && decide (fld w 16 3 = n.toNat)
        | .lnkSendPut _ _ | .lnkSendGet _ _ | .lnkSendAtomic _ _ | .lnkSendMessage _ _ | .lnkRadd _ _ | .lnkRed _ _ => true
        | _ => false)

/-- An earlier slot has still to push or pop the queue (R261). -/
def Core.queueAhead (c : Core) (n : RqReg) : Bool := c.queued.any fun q => c.earlier q && namesQueue n q

/-- The entries of a result queue. -/
def Core.rqOf (c : Core) (n : RqReg) : List (VWord × BitVec 16) := c.rq.get ⟨n.toNat, n.isLt⟩
/-- Replace the entries of a result queue. -/
def Core.setRq (c : Core) (n : RqReg) (l : List (VWord × BitVec 16)) : Core := { c with rq := c.rq.set n.toNat l n.isLt }

/-- A bank's contents. -/
def Core.accOf (c : Core) (b : AccReg) : AccWord := c.acc.get ⟨b.toNat, b.isLt⟩
/-- Replace a bank's contents. -/
def Core.setAcc (c : Core) (b : AccReg) (a : AccWord) : Core := { c with acc := c.acc.set b.toNat a b.isLt }
/-- Set flags of a bank (R245). -/
def Core.flagAcc (c : Core) (b : AccReg) (sat poison : Bool) : Core :=
  { c with accSat := if sat then c.accSat ||| BitVec.ofNat 16 (2 ^ b.toNat) else c.accSat,
           accPois := if poison then c.accPois ||| BitVec.ofNat 16 (2 ^ b.toNat) else c.accPois }

/-- The 16 entries that draining a bank pushes (R246). -/
def drained (c : Core) (b : AccReg) : List (VWord × BitVec 16) :=
  (List.range 16).map fun u =>
    ((c.accOf b).extractLsb' (2048 * u) 2048,
     BitVec.ofNat 16 (u + 16 * b.toNat + (if u = 15 then 2 ^ 8 else 0) + (if c.accSat.getLsbD b.toNat then 2 ^ 9 else 0)
       + (if c.accPois.getLsbD b.toNat then 2 ^ 10 else 0)))

/-- Pop n entries of a queue; the header of the last popped goes into RQHDR (R260). -/
def Core.popRq (c : Core) (r : RqReg) (n : Nat) : Core × List (VWord × BitVec 16) :=
  let l := (c.rqOf r).take n
  ({ c.setRq r ((c.rqOf r).drop n) with
      rqhdr := match l.getLast? with | some e => c.rqhdr.set r.toNat e.2 r.isLt | none => c.rqhdr }, l)

end Sys2Proof.Machine
end

