-- ==== Sys2Proof/Machine/Scalar.lean ====
section
/-!
DEFINITION. The scalar arithmetic, logic, bit-field, select, compare and constant slots (R72 to R79). Every one reads its
sources, computes and writes g[D]; none traps on its operand values (R96).
-/

namespace Sys2Proof.Machine

/-! ### Values (R73, R74) -/

/-- The high half of the signed product (R73). -/
def mulHigh (a b : Word) : Word := BitVec.ofInt 64 (a.toInt * b.toInt / 2 ^ 64)
/-- The high half of the unsigned product (R73). -/
def mulHighU (a b : Word) : Word := BitVec.ofNat 64 (a.toNat * b.toNat / 2 ^ 64)
/-- DIV: quotient truncated toward zero; all ones for b = 0; -2^63 / -1 wraps to -2^63 (R74). -/
def divS (a b : Word) : Word := if b = 0 then BitVec.allOnes 64 else BitVec.ofInt 64 (a.toInt.tdiv b.toInt)
/-- REM: the remainder with the dividend's sign; a for b = 0 (R74). -/
def remS (a b : Word) : Word := if b = 0 then a else BitVec.ofInt 64 (a.toInt.tmod b.toInt)
/-- DIVW (R74). -/
def divU (a b : Word) : Word := if b = 0 then BitVec.allOnes 64 else BitVec.ofNat 64 (a.toNat / b.toNat)
/-- REMW (R74). -/
def remU (a b : Word) : Word := if b = 0 then a else BitVec.ofNat 64 (a.toNat % b.toNat)
/-- The shift amount: the low six bits (R73). -/
def amount (b : Word) : Nat := b.toNat % 64
/-- SHL (R73). -/
def shiftLeft (a : Word) (n : Nat) : Word := a <<< n
/-- SHR (R73). -/
def shiftRight (a : Word) (n : Nat) : Word := a >>> n
/-- SHA (R73). -/
def shiftArith (a : Word) (n : Nat) : Word := a.sshiftRight n
/-- MIN and MAX (R73). -/
def minS (a b : Word) : Word := if a.toInt ≤ b.toInt then a else b
def maxS (a b : Word) : Word := if a.toInt ≤ b.toInt then b else a
/-- MINW and MAXW (R73). -/
def minU (a b : Word) : Word := if a.toNat ≤ b.toNat then a else b
def maxU (a b : Word) : Word := if a.toNat ≤ b.toNat then b else a

/-- Zero bits above the highest one among the low n bits. -/
def leadZeros (a : Word) : Nat → Nat
  | 0 => 0
  | n + 1 => if a.getLsbD n then 0 else leadZeros a n + 1
/-- Zero bits below the lowest one, from bit i on, among n bits. -/
def trailZeros (a : Word) : Nat → Nat → Nat
  | _, 0 => 0
  | i, n + 1 => if a.getLsbD i then 0 else trailZeros a (i + 1) n + 1
/-- One bits among the low n bits. -/
def oneBits {w : Nat} (a : BitVec w) : Nat → Nat
  | 0 => 0
  | n + 1 => (if a.getLsbD n then 1 else 0) + oneBits a n

/-- SEXT and ZEXT (R76). -/
def extendS (a : Word) : ExtWidth → Word
  | .w8 => (a.setWidth 8).signExtend 64
  | .w16 => (a.setWidth 16).signExtend 64
  | .w32 => (a.setWidth 32).signExtend 64
def extendZ (a : Word) : ExtWidth → Word
  | .w8 => (a.setWidth 8).setWidth 64
  | .w16 => (a.setWidth 16).setWidth 64
  | .w32 => (a.setWidth 32).setWidth 64

/-- Position and effective width of a bit-field descriptor (R77). -/
def fieldPos (b : Word) : Nat := fld b 0 6
def fieldWidth (b : Word) : Nat := min (fld b 8 7) (64 - fieldPos b)

/-- BFX (R77). -/
def fieldExtract (a b : Word) (signed : Bool) : Word :=
  let w := fieldWidth b
  let f := a.toNat / 2 ^ fieldPos b % 2 ^ w
  if w = 0 then 0
  else if signed && decide (2 ^ (w - 1) ≤ f) then BitVec.ofInt 64 ((f : Int) - 2 ^ w)
  else BitVec.ofNat 64 f

/-- BFI (R77). -/
def fieldInsert (d a b : Word) : Word :=
  let w := fieldWidth b
  if w = 0 then d
  else
    let m := BitVec.ofNat 64 ((2 ^ w - 1) * 2 ^ fieldPos b)
    (d &&& ~~~m) ||| BitVec.ofNat 64 (a.toNat % 2 ^ w * 2 ^ fieldPos b)

/-- A condition between two operands (R69, R78). -/
def holds (c : Cond) (a b : Word) : Bool :=
  match c with
  | .eq => a == b
  | .ne => a != b
  | .lt => decide (a.toInt < b.toInt)
  | .ge => decide (b.toInt ≤ a.toInt)
  | .ltw => decide (a.toNat < b.toNat)
  | .gew => decide (b.toNat ≤ a.toNat)

/-- 1 or 0 (R78). -/
def truth (b : Bool) : Word := if b then 1 else 0

/-! ### Forms -/

/-- g[D] := f (g[A], g[B]) (R72). -/
def alu2 (f : Word → Word → Word) (d a b : GReg) (s : State) : Outcome :=
  getG a s fun x s => getG b s fun y s => setG d (f x y) s
/-- g[D] := f (g[A]) (R75, R76). -/
def alu1 (f : Word → Word) (d a : GReg) (s : State) : Outcome := getG a s fun x s => setG d (f x) s
/-- g[D] := f (g[A], g[B], g[D]): D is read after A and B (R57). -/
def alu3 (f : Word → Word → Word → Word) (d a b : GReg) (s : State) : Outcome :=
  getG a s fun x s => getG b s fun y s => getG d s fun z s => setG d (f x y z) s

/-! ### Meanings -/

/-- ADD (R73). -/
def execAdd (d a b : GReg) (s : State) : Outcome := alu2 (· + ·) d a b s
/-- SUB (R73). -/
def execSub (d a b : GReg) (s : State) : Outcome := alu2 (· - ·) d a b s
/-- MUL (R73). -/
def execMul (d a b : GReg) (s : State) : Outcome := alu2 (· * ·) d a b s
/-- MULH (R73). -/
def execMulh (d a b : GReg) (s : State) : Outcome := alu2 mulHigh d a b s
/-- MULHW (R73). -/
def execMulhw (d a b : GReg) (s : State) : Outcome := alu2 mulHighU d a b s
/-- DIV (R74). -/
def execDiv (d a b : GReg) (s : State) : Outcome := alu2 divS d a b s
/-- DIVW (R74). -/
def execDivw (d a b : GReg) (s : State) : Outcome := alu2 divU d a b s
/-- REM (R74). -/
def execRem (d a b : GReg) (s : State) : Outcome := alu2 remS d a b s
/-- REMW (R74). -/
def execRemw (d a b : GReg) (s : State) : Outcome := alu2 remU d a b s
/-- AND (R73). -/
def execAnd (d a b : GReg) (s : State) : Outcome := alu2 (· &&& ·) d a b s
/-- OR (R73). -/
def execOr (d a b : GReg) (s : State) : Outcome := alu2 (· ||| ·) d a b s
/-- XOR (R73). -/
def execXor (d a b : GReg) (s : State) : Outcome := alu2 (· ^^^ ·) d a b s
/-- SHL (R73). -/
def execShl (d a b : GReg) (s : State) : Outcome := alu2 (fun x y => shiftLeft x (amount y)) d a b s
/-- SHR (R73). -/
def execShr (d a b : GReg) (s : State) : Outcome := alu2 (fun x y => shiftRight x (amount y)) d a b s
/-- SHA (R73). -/
def execSha (d a b : GReg) (s : State) : Outcome := alu2 (fun x y => shiftArith x (amount y)) d a b s
/-- MIN (R73). -/
def execMin (d a b : GReg) (s : State) : Outcome := alu2 minS d a b s
/-- MAX (R73). -/
def execMax (d a b : GReg) (s : State) : Outcome := alu2 maxS d a b s
/-- MINW (R73). -/
def execMinw (d a b : GReg) (s : State) : Outcome := alu2 minU d a b s
/-- MAXW (R73). -/
def execMaxw (d a b : GReg) (s : State) : Outcome := alu2 maxU d a b s
/-- CLZ (R76). -/
def execClz (d a : GReg) (s : State) : Outcome := alu1 (fun x => word (leadZeros x 64)) d a s
/-- CTZ (R76). -/
def execCtz (d a : GReg) (s : State) : Outcome := alu1 (fun x => word (trailZeros x 0 64)) d a s
/-- POPC (R76). -/
def execPopc (d a : GReg) (s : State) : Outcome := alu1 (fun x => word (oneBits x 64)) d a s
/-- SEXT (R76). -/
def execSext (d a : GReg) (w : ExtWidth) (s : State) : Outcome := alu1 (fun x => extendS x w) d a s
/-- ZEXT (R76). -/
def execZext (d a : GReg) (w : ExtWidth) (s : State) : Outcome := alu1 (fun x => extendZ x w) d a s
/-- BFX (R77). -/
def execBfx (d a b : GReg) (signed : Bool) (s : State) : Outcome := alu2 (fun x y => fieldExtract x y signed) d a b s
/-- BFI (R77). -/
def execBfi (d a b : GReg) (s : State) : Outcome := alu3 (fun x y z => fieldInsert z x y) d a b s
/-- SEL (R78). -/
def execSel (d a b : GReg) (s : State) : Outcome := alu3 (fun x y z => if z ≠ 0 then x else y) d a b s
/-- CMP (R78). -/
def execCmp (d a b : GReg) (c : Cond) (s : State) : Outcome := alu2 (fun x y => truth (holds c x y)) d a b s
/-- ADDI (R75). -/
def execAddi (d a : GReg) (imm : BitVec 9) (s : State) : Outcome := alu1 (· + sext9 imm) d a s
/-- ANDI (R75). -/
def execAndi (d a : GReg) (imm : BitVec 9) (s : State) : Outcome := alu1 (· &&& sext9 imm) d a s
/-- ORI (R75). -/
def execOri (d a : GReg) (imm : BitVec 9) (s : State) : Outcome := alu1 (· ||| imm.setWidth 64) d a s
/-- XORI (R75). -/
def execXori (d a : GReg) (imm : BitVec 9) (s : State) : Outcome := alu1 (· ^^^ imm.setWidth 64) d a s
/-- SHLI (R75). -/
def execShli (d a : GReg) (n : BitVec 6) (s : State) : Outcome := alu1 (fun x => shiftLeft x n.toNat) d a s
/-- SHRI (R75). -/
def execShri (d a : GReg) (n : BitVec 6) (s : State) : Outcome := alu1 (fun x => shiftRight x n.toNat) d a s
/-- SHAI (R75). -/
def execShai (d a : GReg) (n : BitVec 6) (s : State) : Outcome := alu1 (fun x => shiftArith x n.toNat) d a s
/-- CMPI.eq (R78). -/
def execCmpiEq (d a : GReg) (imm : BitVec 9) (s : State) : Outcome := alu1 (fun x => truth (holds .eq x (sext9 imm))) d a s
/-- CMPI.ne (R78). -/
def execCmpiNe (d a : GReg) (imm : BitVec 9) (s : State) : Outcome := alu1 (fun x => truth (holds .ne x (sext9 imm))) d a s
/-- CMPI.lt (R78). -/
def execCmpiLt (d a : GReg) (imm : BitVec 9) (s : State) : Outcome := alu1 (fun x => truth (holds .lt x (sext9 imm))) d a s
/-- CMPI.ge (R78). -/
def execCmpiGe (d a : GReg) (imm : BitVec 9) (s : State) : Outcome := alu1 (fun x => truth (holds .ge x (sext9 imm))) d a s
/-- CMPI.ltw (R78). -/
def execCmpiLtw (d a : GReg) (imm : BitVec 9) (s : State) : Outcome :=
  alu1 (fun x => truth (holds .ltw x (imm.setWidth 64))) d a s
/-- CMPI.gew (R78). -/
def execCmpiGew (d a : GReg) (imm : BitVec 9) (s : State) : Outcome :=
  alu1 (fun x => truth (holds .gew x (imm.setWidth 64))) d a s
/-- MOVI (R79). -/
def execMovi (d : GReg) (imm : BitVec 15) (s : State) : Outcome := setG d (sext15 imm) s
/-- MOVHI (R79). -/
def execMovhi (d : GReg) (imm : BitVec 15) (s : State) : Outcome :=
  getG d s fun z s => setG d (z <<< 15 + imm.setWidth 64) s
/-- NOP (R41, R88). -/
def execNop (s : State) : Outcome := done s

end Sys2Proof.Machine
end

