-- ==== Sys2Proof/Machine/Access.lean ====
section
/-!
DEFINITION. What every memory access of a core is made of: address checks (R100, R101, R209), coherent windows in front of
the scratchpad (R381), queue entries (R102, R103), and performing a load, a store or an atomic (R102 to R107, R112 to R115).
-/

namespace Sys2Proof.Machine

/-! ### Addresses (R98 to R101) -/

/-- The range check of R100: SPAD_RANGE against the region's limit, or BAD_ADDRESS. -/
def rangeCause (s : State) (sp : Bool) (ea n : Nat) : Option Nat :=
  if sp then (if ea + n ≤ s.spadSize then none else some 0x00F)
  else (if ea + n ≤ 2 ^ 57 then none else some 0x010)

/-- One piece of an access as issued: its element number, address and length, and the offset in the data entry (R99). -/
structure Elem where
  no  : Nat
  ea  : Word
  len : Nat
  off : Nat
deriving DecidableEq, Repr

/-- The first element that fails the range check (R100). Log 37, DEDUCED. -/
def firstRange (s : State) (sp : Bool) : List Elem → Option (Nat × Elem)
  | [] => none
  | e :: r => match rangeCause s sp e.ea.toNat e.len with
    | some c => some (c, e)
    | none => firstRange s sp r

/-- The first element whose address is not a multiple of the alignment (R101). Log 37, DEDUCED. -/
def firstMisaligned (align : Nat) : List Elem → Option Elem
  | [] => none
  | e :: r => if e.ea.toNat % align = 0 then firstMisaligned align r else some e

/-- Translate every element of a global access; a failure names its element (R219). -/
def translateElems (s : State) (r w : Bool) : List Elem → Except (Nat × Elem) (List Piece)
  | [] => .ok []
  | e :: l =>
    match s.translateRuns r w false e.off (pageRuns e.ea.toNat e.len) with
    | .error c => .error (c, e)
    | .ok ps => match translateElems s r w l with
      | .error x => .error x
      | .ok qs => .ok (ps ++ qs)

/-! ### Coherent windows (R381) -/

/-- The window and tile that hold a scratchpad address. -/
def Core.windowAt (c : Core) (a : Nat) : Option (WinDecl × Nat) :=
  match c.wins.find? fun d => decide (d.lbase ≤ a ∧ a < d.lbase + d.nt * 2 ^ d.tl) with
  | some d => some (d, (a - d.lbase) / 2 ^ d.tl)
  | none => none

/-- A tile's local state is good enough to read, or to write (R381). -/
def TileState.serves (t : TileState) (write : Bool) : Bool :=
  match t with
  | .i => false
  | .m => true
  | .e => true
  | .s | .o => !write

/-- What a window demands of an access: nothing, a right that the participant lacks, or a tile to be obtained. -/
inductive WinNeed where
  | none
  | perm
  | obtain (d : WinDecl) (tile : Nat)
deriving DecidableEq, Repr

/-- The demand of one byte. -/
def Core.needAt (c : Core) (a : Nat) (write : Bool) : WinNeed :=
  match c.windowAt a with
  | some (d, t) =>
    if write && !d.write then .perm
    else if (d.tiles.getD t .i).serves write then .none else .obtain d t
  | none => .none

/-- Byte addresses that stand for every window tile a range can meet: tiles are 128 bytes or more (R378). -/
def probes (a n : Nat) : List Nat := if n = 0 then [] else (List.range (n / 128 + 1)).map (fun i => a + 128 * i) ++ [a + n - 1]

/-- The first demand of a list of bytes. -/
def Core.needOf (c : Core) (write : Bool) : List Nat → WinNeed
  | [] => .none
  | a :: r => match c.needAt a write with
    | .none => c.needOf write r
    | x => x

/-- Ask the home for a tile, once: GetS, or GetM to write (R381, R384). A request for it that is under way is waited for first. -/
def askHome (s : State) (d : WinDecl) (tile : Nat) (write : Bool) : State :=
  let q : Due := { instr := if write then .getm else .gets, core := s.core.id, args := { n := d.wid, m := tile, p := d.who } }
  let waiting := match s.dir.find? fun w => decide (w.wid = d.wid) with
    | some w => match w.tiles[tile]? with
      | some t => (t.busy.any fun b => decide (b.1 = d.who)) || t.queue.any fun b => decide (b.who = d.who)
      | none => false
    | none => false
  let asked (x : Due) : Bool := (decide (x.instr = .gets) || decide (x.instr = .getm)) && decide (x.core = q.core ∧ x.args = q.args)
  if waiting || s.todo.any asked then s else s.addTodo q

/-- A write to a tile in E makes it M, and the home is told (R381). -/
def State.winWrote (s : State) (a : Nat) : State :=
  match s.core.windowAt a with
  | some (d, t) =>
    if d.tiles.getD t .i = .e then
      let d' := { d with tiles := d.tiles.set t .m }
      let s := { s with core := { s.core with wins := s.core.wins.map fun (x : WinDecl) => if x.slot = d.slot then d' else x } }
      s.addTodo { instr := .noticeEToM, core := s.core.id, args := { n := d.wid, m := t, p := d.who } }
    else s
  | none => s

/-- Bytes reach the scratchpad, with the window's notice. -/
def State.storeSpad (s : State) (a : Nat) (bs : List Byte) : State :=
  ((probes a bs.length).foldl State.winWrote s).writeSpad a bs

/-- A write to a space: the scratchpad with its windows, or physical memory. -/
def State.store (s : State) (sp : Bool) (a : Nat) (bs : List Byte) : State :=
  if sp then s.storeSpad a bs else s.writePhys a bs

/-- Continue once the windows grant an access to these scratchpad bytes, which stand for its tiles: a read-only participant's write is
PERM_FAULT with the address and number given for the first byte that fails, a missing tile is asked for and waited for (R124, R381). -/
def throughWindows (write : Bool) (as' : List (Nat × Word × Word)) (s : State) (k : State → Outcome) : Outcome :=
  if s.core.wins.isEmpty then k s
  else match s.core.needOf write (as'.map (·.1)) with
    | .none => k s
    | .perm =>
      let x := (as'.find? fun x => decide (s.core.needAt x.1 write = .perm)).getD (0, 0, 0)
      trap 0x142 x.2.1 x.2.2 s
    | .obtain d t =>
      let s' := askHome s d t write
      if s'.todo.length = s.todo.length then stall s else waits s'

/-! ### Ordering of performed accesses (R103, R192) -/

/-- No ACQ, REL or FENCE holds back an access of this number (R192). -/
def Core.fencesPassed (c : Core) (id : Nat) (write : Bool) : Bool :=
  !(c.fences.any fun f => c.laq.any fun x => f.between x id write)

/-- An entry may be performed now: no earlier access of the core holds it back (R103, R192), and a store has its data (R102). -/
def Core.eligible (c : Core) (e : LaEntry) : Bool :=
  !(c.laq.any fun x => c.holdsBack x e) && (match e.kind with | .store => e.data.isSome | _ => true)

/-- Every earlier access of the core to these bytes has been performed (R118). -/
def Core.clearOf (c : Core) (sp : Bool) (ps : List Piece) : Bool :=
  !(c.laq.any fun e => !e.prefetch && decide (e.sp = sp) && piecesMeet e.pieces ps)

/-- Continue once every earlier access of the core to these bytes has been performed; one that is held back for good is QUEUE_STUCK
(R104, R118). -/
def afterAccesses (sp : Bool) (ps : List Piece) (s : State) (k : State → Outcome) : Outcome :=
  if s.core.clearOf sp ps then k s
  else match s.core.stuckEntries.find? fun e => !e.1.prefetch && decide (e.1.sp = sp) && piecesMeet e.1.pieces ps with
    | some e => trap 0x005 (BitVec.ofNat 64 e.2) 0 s
    | none => stall s

/-! ### Taking an entry (R49, R50, R102) -/

/-- Store addresses wait on data that no queued slot will push, and fill the load-address queue, beside what the bundle that now issues has put
there or paired (R50). -/
def Core.laqStuck (c : Core) : Bool :=
  c.laq.all fun e => c.mine.contains e.id || (e.unpaired false && decide (c.gComing = 0)) || (e.unpaired true && decide (c.vComing = 0))

/-- Continue when the load-address queue has room: a full queue stalls, or is stuck (R49, R50). -/
def withLaq (s : State) (k : State → Outcome) : Outcome :=
  if s.core.laq.length < 48 then k s
  else if s.core.laqStuck then trap 0x005 0 0 s else stall s

/-- Continue when the load-data queue has room: a queue full of arrived data that no queued slot pops is stuck (R49, R50). -/
def withLoadRoom (vec : Bool) (s : State) (k : State → Outcome) : Outcome :=
  if vec then
    if s.core.vldq.length < 16 then k s
    else if (s.core.vldq.all fun e => e.val.isSome || s.core.mine.contains e.id) && decide (s.core.vPops = 0) then trap 0x005 2 0 s else stall s
  else
    if s.core.sldq.length < 32 then k s
    else if (s.core.sldq.all fun e => e.val.isSome || s.core.mine.contains e.id) && decide (s.core.gPops = 0) then trap 0x005 1 0 s else stall s

/-- push_load_addr, and the same for an atomic (R102). -/
def pushLoad (e : LaEntry) (s : State) : Outcome :=
  withLaq s fun s => withLoadRoom e.vec s fun s =>
    let c := s.core
    let e := { e with id := c.nextId, bundle := c.pc, slot := c.curSlot, seq := c.seq, born := s.free }
    let c := { c with laq := c.laq ++ [e], nextId := c.nextId + 1, mine := c.mine ++ [e.id] }
    done { s with core :=
      if e.vec then { c with vldq := c.vldq ++ [{ id := e.id, addr := e.ea }] }
      else { c with sldq := c.sldq ++ [{ id := e.id, addr := e.ea }] } }

/-- push_store_addr: the address pairs with the oldest push that waits (R51, R102). -/
def pushStore (e : LaEntry) (s : State) : Outcome :=
  withLaq s fun s =>
    let c := s.core
    let e := { e with id := c.nextId, bundle := c.pc, slot := c.curSlot, seq := c.seq, born := s.free }
    let c := { c with nextId := c.nextId + 1, mine := c.mine ++ [e.id] }
    done { s with core :=
      if e.vec then
        match c.vsdq with
        | [] => { c with laq := c.laq ++ [e] }
        | d :: r => { c with laq := c.laq ++ [{ e with data := some d }], vsdq := r }
      else
        match c.ssdq with
        | [] => { c with laq := c.laq ++ [e] }
        | d :: r => { c with laq := c.laq ++ [{ e with data := some (d.map fun w => w.setWidth 2048) }], ssdq := r } }

/-! ### Performing (R102 to R107) -/

/-- Put bytes at an offset of a data entry. -/
def placeBytes (v : VWord) (off : Nat) : List Byte → VWord
  | [] => v
  | b :: r => placeBytes (v ||| (b.setWidth 2048 <<< (8 * off))) (off + 1) r

/-- The data entry that a load's pieces form; bytes not loaded are zero (R99, R105). -/
def gatherData (m : Store) : List Piece → VWord → VWord
  | [], v => v
  | p :: r, v => gatherData m r (placeBytes v p.off (m.read p.at' p.len))

/-- Bytes off to off + n - 1 of a data entry. -/
def takeBytes (v : VWord) (off : Nat) : Nat → List Byte
  | 0 => []
  | n + 1 => v.extractLsb' (8 * off) 8 :: takeBytes v (off + 1) n

/-- Write a store's pieces in order (R99, R105, R110). -/
def scatterData (sp : Bool) (v : VWord) : List Piece → State → State
  | [], s => s
  | p :: r, s => scatterData sp v r (s.store sp p.at' (takeBytes v p.off p.len))

/-- Fill a reserved entry of a load-data queue. -/
def fillEntry {w : Nat} (id : Nat) (v : BitVec w) (poison : Bool) (addr : Word) : List (DataEntry w) → List (DataEntry w)
  | [] => []
  | e :: r => if e.id = id then { e with val := some v, poison := poison, addr := addr } :: r else e :: fillEntry id v poison addr r

/-- Data enters its reserved entry (R102, R105). -/
def Core.deliver (c : Core) (id : Nat) (vec : Bool) (v : VWord) (poison : Bool) (addr : Word) : Core :=
  if vec then { c with vldq := fillEntry id v poison addr c.vldq }
  else { c with sldq := fillEntry id (v.setWidth 64) poison addr c.sldq }

/-- Free a load-address entry (R102). -/
def Core.freeEntry (c : Core) (id : Nat) : Core := { c with laq := c.laq.filter fun e => decide (e.id ≠ id) }

/-- The new word of an AMO over w bits (R112); operation 9 is the binary32 sum. -/
def amoNew (op w old b : Nat) : Nat :=
  match op with
  | 0 => (old + b) % 2 ^ w
  | 1 => old &&& b
  | 2 => old ||| b
  | 3 => old ^^^ b
  | 4 => b
  | 5 => if signedOf w old ≤ signedOf w b then old else b
  | 6 => if signedOf w old ≤ signedOf w b then b else old
  | 7 => min old b
  | 8 => max old b
  | _ => (addVal .f32 0 (decodeVal .f32 old) (decodeVal .f32 b)).1

/-- Perform an atomic on a word: a poisoned word is left alone and delivered poisoned (R112, R113, R346). -/
def atomicAt (sp : Bool) (a n : Nat) (f : Nat → Option Nat) (s : State) : State × Nat × Bool :=
  let old := leNat ((s.space sp).read a n)
  if (s.space sp).anyPoison a n then (s, old, true)
  else match f old with
    | some new => (s.store sp a (leBytes n new), old, false)
    | none => (s, old, false)

/-- What an atomic entry does to the word (R112, R113). -/
def LaEntry.atomic (e : LaEntry) (n old : Nat) : Option Nat :=
  match e.kind with
  | .amo op => some (amoNew op (8 * n) old (e.operand.toNat % 2 ^ (8 * n)))
  | .cas => if old = e.operand.toNat % 2 ^ (8 * n) then some (e.swapVal.toNat % 2 ^ (8 * n)) else none
  | _ => none

/-- Bytes that an access moves. -/
def LaEntry.length (e : LaEntry) : Nat := (e.pieces.map (·.len)).foldl (· + ·) 0

/-- The last-level-cache port that serves an address of device memory (R218). -/
def portOf (pa : Nat) : Nat :=
  if inTier1 pa then 2 * dieOf pa + Config.homePort (pa / 4096) % 2 else Config.homePort (pa / 4096) % 16

/-- The token bucket of a context at a port lets a request of n bytes pass, and is charged; one of more tokens than the ceiling passes with the
bucket full, which then owes the rest before it gains tokens again (R233). Log 87, DEDUCED. -/
def spend (s : State) (ctx port n : Nat) : Option State :=
  match s.buckets.find? fun b => decide (b.port = port) && decide (b.ctx = ctx) with
  | none => some s
  | some b =>
    let need := (n + 255) / 256
    if b.rate = 0 then some s
    else if b.tokens < min need b.ceiling ∨ b.debt ≠ 0 then none
    else some { s with buckets := s.buckets.map fun x =>
      if x.port = port ∧ x.ctx = ctx then { x with tokens := x.tokens - need, debt := need - b.ceiling } else x }

/-- Bytes of a request at each port of device memory that it asks. -/
def portBytes (ps : List Piece) : List (Nat × Nat) :=
  let dev := ps.filter fun p => inDevice p.at'
  (dev.map fun p => portOf p.at').eraseDups.map fun n =>
    (n, ((dev.filter fun p => decide (portOf p.at' = n)).map (·.len)).foldl (· + ·) 0)

/-- The charge of a request of a context at every port that it asks (R233). -/
def spendAt (s : State) (ctx : Nat) : List (Nat × Nat) → Option State
  | [] => some s
  | x :: r => match spend s ctx x.1 x.2 with
    | none => none
    | some s => spendAt s ctx r

/-- The charge of a request of a context (R233). -/
def spendAll (s : State) (ctx : Nat) (ps : List Piece) : Option State := spendAt s ctx (portBytes ps)

/-- The priority that a core's requests have at a port: that of its region (R173, R233). -/
def State.prioOf (s : State) (c : Core) : Nat := ((c.region.bind s.region?).map fun r => r.priority).getD 0

/-- A request of a context at some priority is served by its ports, and charged; the ports that it asks are noted, where a request of a higher
priority comes first (R233). -/
def servedAs (s : State) (ctx prio : Nat) (ps : List Piece) : Option State :=
  (spendAll s ctx ps).map fun s => { s with asked := s.asked ++ (portBytes ps).map (·.1), askPrio := max s.askPrio prio }

/-- A global request of the current core is served by its ports, and charged (R233). -/
def served (s : State) (ps : List Piece) : Option State := servedAs s s.core.asid (s.prioOf s.core) ps

/-- The late freeze ends when nothing late remains, and FROZEN grows by its length (R180). -/
def Core.thaw (c : Core) (clk : Nat) : Core :=
  match c.freeze with
  | none => c
  | some t =>
    if c.laq.any fun e => e.arrival.any fun a => decide (a.toNat ≤ c.stepclk.toNat) then c
    else { c with freeze := none, frozen := BitVec.ofNat 64 (min (2 ^ 32 - 1) (c.frozen.toNat + (clk - t))) }

/-- A read by the core of n scratchpad bytes at a: it observes the phases that it finds completed there, and with them the copy chunks that were
counted in them (R296). -/
def State.observe (s : State) (a n : Nat) : State :=
  let found (f : Flight) : Bool := f.flipped && decide (f.src = s.core.id) && f.early.any fun b => decide (a < b + 8 ∧ b < a + n)
  if s.flights.any found then { s with flights := s.flights.map fun f => if found f then { f with seen := true } else f } else s

/-- The pieces that an access reads in the scratchpad are observed. -/
def LaEntry.observed (e : LaEntry) (s : State) : State := if e.sp then e.pieces.foldl (fun (s : State) p => s.observe p.at' p.len) s else s

/-- Writes to memory that the core has observed complete, and that meet some pieces, have still to be made (R268, R285, R295). -/
def State.unmade (s : State) (ps : List Piece) : Bool :=
  s.flights.any fun f => f.seen && !f.sp && decide (f.src = s.core.id) && f.words.any fun w =>
    ps.any fun p => decide (8 * w.no < p.at' + p.len ∧ p.at' < 8 * w.no + 8)

/-- Perform a load, or a prefetch, which brings its tile in and delivers nothing (R102, R105, R106, R111, R115, R180). -/
def performLoad (e : LaEntry) (s : State) : State :=
  let (s, _) := if e.sp then (e.observed s, false) else s.touchPieces e.pieces
  let c := s.core.freeEntry e.id
  if e.prefetch then { s with core := c }
  else
    let m := s.space e.sp
    let v := gatherData m e.pieces 0
    let poison := poisonPieces m e.pieces
    match e.arrival with
    | some cyc =>
      if c.stepclk.toNat < cyc.toNat then
        let l : LandEntry := { id := e.id, vec := e.vec, val := v, poison := poison, addr := e.ea, cycle := cyc }
        { s with core := { c with landBuf := c.landBuf ++ [l] } }
      else { s with core := (c.deliver e.id e.vec v poison e.ea).thaw s.clk }
    | none => { s with core := c.deliver e.id e.vec v poison e.ea }

/-- Addresses in the lines of 64 bytes that a piece meets (R371). -/
def Piece.lines (p : Piece) : List Nat := if p.len = 0 then [] else (List.range ((p.at' + p.len - 1) / 64 - p.at' / 64 + 1)).map fun i => 64 * (p.at' / 64 + i)

/-- Perform a store whose data has paired; an empty push writes nothing (R54, R102). -/
def performStore (e : LaEntry) (s : State) : State :=
  let (s, _) := if e.sp then (s, false) else s.touchPieces e.pieces
  let s := match e.data with
    | some (some v) =>
      let s := scatterData e.sp v e.pieces s
      if e.sp then s else (e.pieces.flatMap Piece.lines).foldl (fun (s : State) a => s.noteHost a) s
    | _ => s
  { s with core := s.core.freeEntry e.id }

/-- Perform an atomic: one indivisible step (R112, R113). -/
def performAtomic (e : LaEntry) (s : State) : State :=
  let (s, _) := if e.sp then (e.observed s, false) else s.touchPieces e.pieces
  let n := if e.eight then 8 else 4
  let a := (e.pieces.head?.elim 0 (·.at'))
  let (s, old, poison) := atomicAt e.sp a n (e.atomic n) s
  { s with core := ((s.core.freeEntry e.id).deliver e.id false (BitVec.ofNat 2048 old) poison e.ea) }

/-- Perform an entry that may be performed, once its ports serve it (R102, R103, R233). Log 6, DESIGN CHOICE. -/
def perform (e : LaEntry) (s : State) : Outcome :=
  if !s.core.eligible e then stall s
  else match (if e.sp then some s else served s e.pieces) with
    | none => stall s
    | some s =>
      match e.kind with
      | .load | .fetchLine => done (performLoad e s)
      | .store => done (performStore e s)
      | .amo _ | .cas => done (performAtomic e s)

end Sys2Proof.Machine
end

