-- ==== Sys2Proof/Machine/Address.lean ====
section
/-!
DEFINITION. The A slots: loads, stores, element forms, prefetch, atomics and landing loads at issue, and the steps in which
a queued access is performed or lands (R98 to R115, R123, R124, R180).
-/

namespace Sys2Proof.Machine

/-- The bytes of an element one by one, for a split access (R124). -/
def splitElem (e : Elem) : List Elem :=
  (List.range e.len).map fun i => { no := e.no, ea := e.ea + BitVec.ofNat 64 i, len := 1, off := e.off + i }

/-- What an addressed A slot does at issue: the checks of R178, R100, R101 and R219 in order, the windows and busy granules (R247), then the queue.
`elemForm` puts the element number into TVAL2; `split` says that MASPLIT may split the form (R124). Log 36, DEDUCED. Log 37, DEDUCED. -/
def issueAccess (els : List Elem) (sp read write elemForm split land : Bool) (align : Nat) (s : State)
    (k : List Piece → State → Outcome) : Outcome :=
  let splitting := split && s.core.splitNow == some s.core.curSlot
  let els := if splitting then els.flatMap splitElem else els
  let no (e : Elem) : Word := if elemForm then word e.no else 0
  if !sp && !land && s.inCompute then trap 0x015 0 0 s
  else match firstRange s sp els with
    | some (c, e) => trap c e.ea (no e) s
    | none =>
      match (if splitting then none else firstMisaligned align els) with
      | some e => trap 0x011 e.ea (no e) s
      | none =>
        if sp then
          throughWindows write (els.flatMap fun e => (probes e.ea.toNat e.len).map fun a => (a, e.ea, no e)) s fun s =>
            let ps : List Piece := els.map fun e => { off := e.off, at' := e.ea.toNat, len := e.len }
            if write && s.core.granuleBusy ps then stall s else k ps s
        else match translateElems s read write els with
          | .error (c, e) => trap c e.ea (no e) s
          | .ok ps => k ps s

/-- One contiguous element. -/
def single (ea : Word) (n : Nat) : List Elem := [{ no := 0, ea := ea, len := n, off := 0 }]

/-- Bytes of a size code (R69). -/
def sizeBytes (sz : Nat) : Nat := if sz < 4 then 2 ^ sz else 2 ^ (sz + 1)

/-- The alignment of a contiguous access (R101). -/
def sizeAlign (sz : Nat) : Nat := if sz < 4 then 2 ^ sz else 32

/-- A contiguous load (R105, R108, R109). -/
def loadAt (ea : Word) (sz : Nat) (sp : Bool) (s : State) (k : State → Outcome) : Outcome :=
  issueAccess (single ea (sizeBytes sz)) sp true false false true false (sizeAlign sz) s fun ps s =>
    match pushLoad { id := 0, kind := .load, sp := sp, vec := decide (4 ≤ sz), pieces := ps, ea := ea } s with
    | .next s' => if s'.core.mark = .ok then k s' else .next s'
    | o => o

/-- A contiguous store (R105, R108, R109). -/
def storeAt (ea : Word) (sz : Nat) (sp : Bool) (s : State) (k : State → Outcome) : Outcome :=
  issueAccess (single ea (sizeBytes sz)) sp false true false true false (sizeAlign sz) s fun ps s =>
    match pushStore { id := 0, kind := .store, sp := sp, vec := decide (4 ≤ sz), pieces := ps, ea := ea } s with
    | .next s' => if s'.core.mark = .ok then k s' else .next s'
    | o => o

/-- Base + offset (R98): the offset counts access sizes. -/
def offsetEa (base : Word) (imm : BitVec 9) (n : Nat) : Word := base + BitVec.ofNat 64 n * sext9 imm

/-- LA (R108). -/
def execLa (a : GReg) (imm : BitVec 9) (sz : BitVec 2) (gl : Bool) (s : State) : Outcome :=
  getG a s fun x s => loadAt (offsetEa x imm (sizeBytes sz.toNat)) sz.toNat (!gl) s done
/-- LAV (R108): size codes 4 to 7. -/
def execLav (a : GReg) (imm : BitVec 9) (sz : BitVec 2) (gl : Bool) (s : State) : Outcome :=
  getG a s fun x s => loadAt (offsetEa x imm (sizeBytes (4 + sz.toNat))) (4 + sz.toNat) (!gl) s done
/-- SA (R108). -/
def execSa (a : GReg) (imm : BitVec 9) (sz : BitVec 2) (gl : Bool) (s : State) : Outcome :=
  getG a s fun x s => storeAt (offsetEa x imm (sizeBytes sz.toNat)) sz.toNat (!gl) s done
/-- SAV (R108). -/
def execSav (a : GReg) (imm : BitVec 9) (sz : BitVec 2) (gl : Bool) (s : State) : Outcome :=
  getG a s fun x s => storeAt (offsetEa x imm (sizeBytes (4 + sz.toNat))) (4 + sz.toNat) (!gl) s done
/-- LAX, base + index (R109). -/
def execLaxIndex (a b : GReg) (sz : BitVec 3) (gl : Bool) (s : State) : Outcome :=
  getG a s fun x s => getG b s fun y s => loadAt (x + y) sz.toNat (!gl) s done
/-- LAX, base += increment (R109): a base of g63 is popped and the sum pushed. -/
def execLaxIncrement (a b : GReg) (sz : BitVec 3) (gl : Bool) (s : State) : Outcome :=
  getG a s fun x s => getG b s fun y s => loadAt x sz.toNat (!gl) s fun s => setG a (x + y) s
/-- SAX, base + index (R109). -/
def execSaxIndex (a b : GReg) (sz : BitVec 3) (gl : Bool) (s : State) : Outcome :=
  getG a s fun x s => getG b s fun y s => storeAt (x + y) sz.toNat (!gl) s done
/-- SAX, base += increment (R109). -/
def execSaxIncrement (a b : GReg) (sz : BitVec 3) (gl : Bool) (s : State) : Outcome :=
  getG a s fun x s => getG b s fun y s => storeAt x sz.toNat (!gl) s fun s => setG a (x + y) s

/-! ### Element forms (R98, R99, R110) -/

/-- Elements of an element form: 64 of 1, 2 or 4 bytes, or 32 of 8 bytes (R99). -/
def elemCount (es : BitVec 2) : Nat := if es.toNat = 3 then 32 else 64

/-- The elements, each at its own address (R98, R99). -/
def elemList (es : BitVec 2) (ea : Nat → Word) : List Elem :=
  (List.range (elemCount es)).map fun i =>
    { no := i, ea := ea i, len := 2 ^ es.toNat, off := if es.toNat = 3 then 8 * i else 4 * i }

/-- An element load (R110). Poison in any element names element 0's address (R106, R346). Log 85, DESIGN CHOICE. -/
def loadElems (es : BitVec 2) (sp : Bool) (ea : Nat → Word) (s : State) : Outcome :=
  issueAccess (elemList es ea) sp true false true true false (2 ^ es.toNat) s fun ps s =>
    pushLoad { id := 0, kind := .load, sp := sp, vec := true, pieces := ps, ea := ea 0 } s

/-- An element store (R110). -/
def storeElems (es : BitVec 2) (sp : Bool) (ea : Nat → Word) (s : State) : Outcome :=
  issueAccess (elemList es ea) sp false true true true false (2 ^ es.toNat) s fun ps s =>
    pushStore { id := 0, kind := .store, sp := sp, vec := true, pieces := ps, ea := ea 0 } s

/-- Strided address of an element (R98). -/
def stridedEa (base stride : Word) (i : Nat) : Word := base + BitVec.ofNat 64 i * stride

/-- Gather or scatter address: lane i, or lane 2i for 8-byte elements, as a signed byte index (R98). -/
def indexedEa (base : Word) (v : VWord) (es : BitVec 2) (i : Nat) : Word :=
  let lane := if es.toNat = 3 then 2 * i else i
  base + (v.extractLsb' (32 * lane) 32).signExtend 64

/-- LAV, strided (R110). -/
def execLavStrided (a b : GReg) (es : BitVec 2) (gl : Bool) (s : State) : Outcome :=
  getG a s fun x s => getG b s fun y s => loadElems es (!gl) (stridedEa x y) s
/-- SAV, strided (R110). -/
def execSavStrided (a b : GReg) (es : BitVec 2) (gl : Bool) (s : State) : Outcome :=
  getG a s fun x s => getG b s fun y s => storeElems es (!gl) (stridedEa x y) s

/-- Read a v index at issue; v63 pops the vector load-data queue (R25, R110). -/
def getVIssue (r : VReg) (s : State) (k : VWord → State → Outcome) : Outcome :=
  if r = 63 then
    match s.core.vldq with
    | [] => trap 0x005 2 0 s
    | e :: l =>
      if s.core.vPops ≠ 0 then stall s
      else match e.val with
        | none => match s.core.stuckStore e.id true with
          | some q => trap 0x005 (BitVec.ofNat 64 q) 0 s
          | none => stall s
        | some v =>
          if e.poison then trap 0x01A e.addr 0 s
          else k v { s with core := { s.core with vldq := l } }
  else k (s.core.v.get ⟨r.toNat, r.isLt⟩) s

/-- LAGV (R110). -/
def execLagv (a : GReg) (b : VReg) (es : BitVec 2) (gl : Bool) (s : State) : Outcome :=
  getG a s fun x s => getVIssue b s fun v s => loadElems es (!gl) (indexedEa x v es) s
/-- SASV (R110). -/
def execSasv (a : GReg) (b : VReg) (es : BitVec 2) (gl : Bool) (s : State) : Outcome :=
  getG a s fun x s => getVIssue b s fun v s => storeElems es (!gl) (indexedEa x v es) s

/-! ### Prefetch, atomics, landing loads -/

/-- PREF asks for the line that holds ea; an address that would fault is dropped (R111). Log 35, DEDUCED. -/
def execPref (a : GReg) (imm : BitVec 9) (s : State) : Outcome :=
  getG a s fun x s =>
    let ea := x + sext9 imm
    let line := ea.toNat / 128 * 128
    withLaq s fun s =>
      if 2 ^ 57 ≤ ea.toNat then done s
      else match s.translate line true false false with
        | .error _ => done s
        | .ok pa =>
          let e : LaEntry := { id := s.core.nextId, kind := .fetchLine, sp := false, vec := false,
                               pieces := [{ off := 0, at' := pa, len := 128 }], ea := ea, born := s.free }
          done { s with core := { s.core with laq := s.core.laq ++ [e], nextId := s.core.nextId + 1, mine := s.core.mine ++ [e.id] } }

/-- An atomic at issue (R112, R113): the operands are read, the word is checked, an entry of both queues is taken. -/
def atomicSlot (kind : LaKind) (ea operand swap : Word) (eight sp : Bool) (s : State) : Outcome :=
  let n := if eight then 8 else 4
  issueAccess (single ea n) sp true true false false false n s fun ps s =>
    pushLoad { id := 0, kind := kind, sp := sp, vec := false, pieces := ps, ea := ea, eight := eight, operand := operand,
               swapVal := swap } s

/-- The AMO of an operation (R112). -/
def amo (op : Nat) (a b : GReg) (eight sp : Bool) (s : State) : Outcome :=
  getG a s fun x s => getG b s fun y s => atomicSlot (.amo op) x y 0 eight sp s

/-- AMO.add (R112). -/
def execAmoAdd (a b : GReg) (eight gl : Bool) (s : State) : Outcome := amo 0 a b eight (!gl) s
/-- AMO.and (R112). -/
def execAmoAnd (a b : GReg) (eight gl : Bool) (s : State) : Outcome := amo 1 a b eight (!gl) s
/-- AMO.or (R112). -/
def execAmoOr (a b : GReg) (eight gl : Bool) (s : State) : Outcome := amo 2 a b eight (!gl) s
/-- AMO.xor (R112). -/
def execAmoXor (a b : GReg) (eight gl : Bool) (s : State) : Outcome := amo 3 a b eight (!gl) s
/-- AMO.swap (R112). -/
def execAmoSwap (a b : GReg) (eight gl : Bool) (s : State) : Outcome := amo 4 a b eight (!gl) s
/-- AMO.smin (R112). -/
def execAmoSmin (a b : GReg) (eight gl : Bool) (s : State) : Outcome := amo 5 a b eight (!gl) s
/-- AMO.smax (R112). -/
def execAmoSmax (a b : GReg) (eight gl : Bool) (s : State) : Outcome := amo 6 a b eight (!gl) s
/-- AMO.umin (R112). -/
def execAmoUmin (a b : GReg) (eight gl : Bool) (s : State) : Outcome := amo 7 a b eight (!gl) s
/-- AMO.umax (R112). -/
def execAmoUmax (a b : GReg) (eight gl : Bool) (s : State) : Outcome := amo 8 a b eight (!gl) s
/-- AMO.fadd on 4 bytes (R64, R112). -/
def execAmoFadd (a b : GReg) (gl : Bool) (s : State) : Outcome := amo 9 a b false (!gl) s
/-- CAS: compare in g[B], swap value in g[B+1] (R113). -/
def execCas (a b : GReg) (eight gl : Bool) (s : State) : Outcome :=
  getG a s fun x s => getG b s fun y s => getG (b + 1) s fun z s => atomicSlot .cas x y z eight (!gl) s

/-- A landing-buffer entry is free: those held and those in flight stay below 64 (R115, R176). -/
def landingRoom (c : Core) : Bool := decide (c.landBuf.length + (c.laq.filter fun e => e.arrival.isSome).length < 64)

/-- A landing load: its own rule comes before the range and alignment checks (R115). Log 36, DEDUCED. -/
def landSlot (ea cycle : Word) (sz : Nat) (sp : Bool) (s : State) : Outcome :=
  if !s.inScheduled then trap 0x013 0 0 s
  else issueAccess (single ea (sizeBytes sz)) sp true false false false true (sizeAlign sz) s fun ps s =>
    if !landingRoom s.core then stall s
    else pushLoad { id := 0, kind := .load, sp := sp, vec := decide (4 ≤ sz), pieces := ps, ea := ea, arrival := some cycle } s

/-- LA.land (R115). -/
def execLaLand (a b : GReg) (sz : BitVec 2) (gl : Bool) (s : State) : Outcome :=
  getG a s fun x s => getG b s fun y s => landSlot x y sz.toNat (!gl) s
/-- LAV.land (R115). -/
def execLavLand (a b : GReg) (sz : BitVec 2) (gl : Bool) (s : State) : Outcome :=
  getG a s fun x s => getG b s fun y s => landSlot x y (4 + sz.toNat) (!gl) s

/-! ### Steps -/

/-- The data of load-address entry n (a load, prefetch or atomic) arrives: it is performed, when it may be (R102, R103). -/
def execLoadDataArrival (s : State) : Outcome :=
  match s.core.laq.find? fun e => decide (e.id = s.args.n) with
  | some e => match e.kind with
    | .store => done s
    | _ => perform e s
  | none => done s

/-- The store of load-address entry n is performed, when it may be (R102, R103). -/
def execStorePerformed (s : State) : Outcome :=
  match s.core.laq.find? fun e => decide (e.id = s.args.n) with
  | some e => match e.kind with
    | .store => perform e s
    | _ => done s
  | none => done s

/-- Landing data whose cycle has come enters its load-data queue (R115, R180). -/
def execLanding (s : State) : Outcome :=
  let due (l : LandEntry) : Bool := decide (l.cycle.toNat ≤ s.core.stepclk.toNat)
  let c := (s.core.landBuf.filter due).foldl (fun c l => c.deliver l.id l.vec l.val l.poison l.addr) s.core
  done { s with core := { c with landBuf := s.core.landBuf.filter fun l => !due l } }

/-- The longest freeze, in clk (R180). -/
def Core.freezeLimit (c : Core) : Nat := fld c.febudget 0 32 * 64

/-- A freeze has lasted more than FEBUDGET.RETRIES * 64 clk: the region halts with LANDING_LATE (R180). -/
def execLandingLate (s : State) : Outcome :=
  match s.core.freeze with
  | some t =>
    if s.core.freezeLimit < s.clk - t then
      done (({ s with core := { s.core with freeze := none } } : State).haltRegion s.core.region 0x01F)
    else done s
  | none => done s

end Sys2Proof.Machine
end

