-- ==== Sys2Proof/Machine/Forms.lean ====
section
/-!
DEFINITION. The codes of the X fields and the forms each slot accepts (R64, R66, R69, R148, R153, R158, R164), shared by
`WellFormed`, the decoder and the encoder, and the special-register numbers whose WRSR has a row of its own.
-/

namespace Sys2Proof

namespace Forms

/-- X code of a vector type (R69). -/
def vtyCode : VTy → BitVec 3
  | .i32 => 0 | .w32 => 1 | .i16 => 2 | .w16 => 3 | .f32 => 4 | .f16 => 5 | .b16 => 6

/-- Vector type of an X code; 111 is reserved (R69). -/
def vtyOf (x : BitVec 3) : Option VTy :=
  match x.toNat with
  | 0 => some .i32 | 1 => some .w32 | 2 => some .i16 | 3 => some .w16
  | 4 => some .f32 | 5 => some .f16 | 6 => some .b16 | _ => none

/-- X code of a narrow type (R69). -/
def ntyCode : NTy → BitVec 3
  | .i8 => 0 | .w8 => 1 | .i16 => 2 | .w16 => 3

/-- Narrow type of an X code; 100 to 111 are reserved (R69). -/
def ntyOf (x : BitVec 3) : Option NTy :=
  match x.toNat with
  | 0 => some .i8 | 1 => some .w8 | 2 => some .i16 | 3 => some .w16 | _ => none

/-- X code of a CMP condition (R69). -/
def condCode : Cond → BitVec 3
  | .eq => 0 | .ne => 1 | .lt => 2 | .ge => 3 | .ltw => 4 | .gew => 5

/-- Condition of an X code (R69). -/
def condOf (x : BitVec 3) : Option Cond :=
  match x.toNat with
  | 0 => some .eq | 1 => some .ne | 2 => some .lt | 3 => some .ge | 4 => some .ltw | 5 => some .gew | _ => none

/-- X code of a SEXT or ZEXT width (R69). -/
def widthCode : ExtWidth → BitVec 3
  | .w8 => 0 | .w16 => 1 | .w32 => 2

/-- Width of an X code (R69). -/
def widthOf (x : BitVec 3) : Option ExtWidth :=
  match x.toNat with
  | 0 => some .w8 | 1 => some .w16 | 2 => some .w32 | _ => none

/-- X code of a scope (R69). -/
def scopeCode : Scope → BitVec 3
  | .core => 0 | .sorus => 1 | .die => 2 | .package => 3 | .pod => 4 | .group _ => 5

/-- B field of a scope: the group number, else zero (R62). -/
def scopeGroup : Scope → BitVec 6
  | .group n => n.setWidth 6
  | _ => 0

/-- Scope of the B and X fields (R62, R69): a group number 0 to 31 with code 101, else B is zero. -/
def scopeOf (b : BitVec 6) (x : BitVec 3) : Option Scope :=
  match x.toNat with
  | 5 => if b.toNat < 32 then some (.group (b.setWidth 5)) else none
  | 0 => if b = 0 then some .core else none
  | 1 => if b = 0 then some .sorus else none
  | 2 => if b = 0 then some .die else none
  | 3 => if b = 0 then some .package else none
  | 4 => if b = 0 then some .pod else none
  | _ => none

/-- X code of a VCVT rounding (R69). -/
def roundCode : CvtRound → BitVec 3
  | .status => 0 | .nearest => 1 | .zero => 2 | .up => 3 | .down => 4

/-- VCVT rounding of an X code (R69). -/
def roundOf (x : BitVec 3) : Option CvtRound :=
  match x.toNat with
  | 0 => some .status | 1 => some .nearest | 2 => some .zero | 3 => some .up | 4 => some .down | _ => none

/-- X code of a full/empty mode (R69). -/
def feCode : FeMode → BitVec 3
  | .fesrc => 0 | .fefull => 1 | .feempty => 2 | .fekeep => 3

/-- Full/empty mode of an X code (R69). -/
def feOf (x : BitVec 3) : Option FeMode :=
  match x.toNat with
  | 0 => some .fesrc | 1 => some .fefull | 2 => some .feempty | 3 => some .fekeep | _ => none

/-- .i32, .w32, .i16 and .w16: the types of VMULH (R148). -/
def intTy : VTy → Bool
  | .i32 | .w32 | .i16 | .w16 => true
  | _ => false

/-- .w32 and .w16: the types of VSHL, VSHR and VPERM (R148). -/
def unsignedTy : VTy → Bool
  | .w32 | .w16 => true
  | _ => false

/-- .i32 and .i16: the types of VSHA (R148). -/
def signedTy : VTy → Bool
  | .i32 | .i16 => true
  | _ => false

/-- .f32, .f16 and .b16: the types of VRCP, VRSQ, VEXP2 and VLOG2 (R153). -/
def floatTy : VTy → Bool
  | .f32 | .f16 | .b16 => true
  | _ => false

/-- The types of VABS and VNEG (R153). -/
def absTy (t : VTy) : Bool := signedTy t || floatTy t

/-- A VSHUF kind with its parameter is defined: kinds 0, 1 and 5 take any p, kinds 2 to 4 an element width code 0 to 3 (R164). -/
def shufOk (kind : BitVec 3) (p : BitVec 6) : Bool :=
  match kind.toNat with
  | 0 | 1 | 5 => true
  | 2 | 3 | 4 => decide (p.toNat < 4)
  | _ => false

/-- A register pair names g[r] and g[r+1]: r is even and at most 60 (R64, R67). -/
def pairOk (r : GReg) : Bool := decide (r.toNat % 2 = 0) && decide (r.toNat ≤ 60)

/-- A FENCE.X path mask names at least two of the six paths (R62). -/
def pathsOk (m : BitVec 6) : Bool :=
  let n := (if m.getLsbD 0 then 1 else 0) + (if m.getLsbD 1 then 1 else 0) + (if m.getLsbD 2 then 1 else 0)
    + (if m.getLsbD 3 then 1 else 0) + (if m.getLsbD 4 then 1 else 0) + (if m.getLsbD 5 then 1 else 0)
  decide (2 ≤ n)

/-- The special registers whose WRSR is a row of its own: LAUNCH, SGBASE, GENRAISE, S2GENRAISE, FRQS, FRQH, FEATACK0,
RGNCTL and the bank format registers (R176, R194, R206, R211, R221, R320, R326, R434). -/
inductive WrRow where
  | plain | launch | sgbase | genraise | s2genraise | frqs | frqh | featack0 | rgnctl | bank
deriving DecidableEq, Repr

/-- The row a WRSR of this number belongs to. -/
def wrRow (n : BitVec 12) : WrRow :=
  match n.toNat with
  | 0x187 => .launch
  | 0x185 => .sgbase
  | 0x205 => .genraise
  | 0x20A => .s2genraise
  | 0x050 => .frqs
  | 0x051 => .frqh
  | 0x304 => .featack0
  | 0x30B => .rgnctl
  | m => if 0x800 ≤ m ∧ m < 0x980 then .bank else .plain

end Forms

end Sys2Proof
end

