-- ==== Sys2Proof/WellFormed.lean ====
section
/-!
DEFINITION. Which instructions have an encoding: every field value that the opcode map does not reserve (R39, R58, R62,
R64, R66, R67, R83, R148, R153, R158, R164). A step of the machine or of its surroundings has no operand.
-/

namespace Sys2Proof

open Forms in
/-- The instruction's operands are all values that its encoding admits. -/
def WellFormed : Instr → Bool
  | .loop _ _ dist => dist != 0
  | .loopi _ _ dist => dist != 0
  | .wrsr _ n => wrRow n == .plain
  | .bankFormatRegister _ bank => decide (bank.toNat < 384)
  | .fenceX mask _ => pathsOk mask
  | .cas _ b _ _ => pairOk b
  | .vaddMasked _ k _ _ | .vsubMasked _ k _ _ | .vmulMasked _ k _ _ | .vminMasked _ k _ _ | .vmaxMasked _ k _ _ => k != 0
  | .vandMasked _ k _ | .vorMasked _ k _ | .vxorMasked _ k _ => k != 0
  | .vmulh _ _ _ t => intTy t
  | .vmulhMasked _ k _ t => k != 0 && intTy t
  | .vshl _ _ _ t | .vshr _ _ _ t | .vperm _ _ _ t => unsignedTy t
  | .vshlMasked _ k _ t | .vshrMasked _ k _ t | .vpermMasked _ k _ t => k != 0 && unsignedTy t
  | .vsha _ _ _ t => signedTy t
  | .vshaMasked _ k _ t => k != 0 && signedTy t
  | .vpackMasked _ k _ _ => k != 0
  | .vabs _ _ _ t | .vneg _ _ _ t => absTy t
  | .vrcp _ _ _ t | .vrsq _ _ _ t | .vexp2 _ _ _ t | .vlog2 _ _ _ t => floatTy t
  | .vcvt _ _ sel _ => decide (sel.toNat < 63)
  | .vshuf _ _ kind p => shufOk kind p
  | .mma _ a _ | .mchk _ a _ => pairOk a
  | _ => true

end Sys2Proof
end

