-- ==== Sys2Proof/Decode.lean ====
section
/-!
DEFINITION. Decoding: slot words to instructions, total and rejecting by name (R38 to R42, R56 to R69), and the encoder
written from the same tables.
-/

namespace Sys2Proof

/-- Why a word encodes no slot; each breaks the reserved-encoding rule of R44 (R58). -/
inductive Illegal where
  /-- U = 101, 110 or 111 (R56) -/
  | reservedUnit
  /-- an OP the unit's table does not list (R58) -/
  | reservedOpcode
  /-- an X value that the opcode does not accept (R58, R69) -/
  | reservedX
  /-- a non-zero reserved field, or a register number or value out of range (R39, R57) -/
  | reservedField
  /-- the bytes end inside the word -/
  | truncated
deriving DecidableEq, Repr

/-- The fields of a slot word (R38); the immediates of the I-, L- and J-forms are runs of them. -/
structure Fields where
  u  : BitVec 3
  op : BitVec 7
  d  : BitVec 6
  a  : BitVec 6
  b  : BitVec 6
  x  : BitVec 3
deriving DecidableEq, Repr

namespace Fields

/-- Cut a word into its fields (R38). -/
def ofWord (w : SlotWord) : Fields :=
  { u := w.extractLsb' 28 3, op := w.extractLsb' 21 7, d := w.extractLsb' 15 6, a := w.extractLsb' 9 6,
    b := w.extractLsb' 3 6, x := w.extractLsb' 0 3 }

/-- IMM9 of an I-form slot (R38). -/
def imm9 (f : Fields) : BitVec 9 := f.b ++ f.x
/-- IMM15 of an L-form slot (R38). -/
def imm15 (f : Fields) : BitVec 15 := f.a ++ f.b ++ f.x
/-- OFF21 of a J-form slot (R38). -/
def off21 (f : Fields) : BitVec 21 := f.d ++ f.a ++ f.b ++ f.x

end Fields

/-- The E bit: this slot ends its bundle (R42). -/
def endsBundle (w : SlotWord) : Bool := w.getLsbD 31

namespace Forms

/-- X = 000 where the opcode takes no X (R57). -/
def rX0 (f : Fields) (i : Instr) : Except Illegal Instr := if f.x = 0 then .ok i else .error .reservedX
/-- The D field is reserved and zero (R39). -/
def dZero (f : Fields) (r : Except Illegal Instr) : Except Illegal Instr := if f.d = 0 then r else .error .reservedField
/-- The A field is reserved and zero (R39). -/
def aZero (f : Fields) (r : Except Illegal Instr) : Except Illegal Instr := if f.a = 0 then r else .error .reservedField
/-- The B field is reserved and zero (R39). -/
def bZero (f : Fields) (r : Except Illegal Instr) : Except Illegal Instr := if f.b = 0 then r else .error .reservedField
/-- The D field names a load-data queue: 63 (R64). -/
def dIs63 (f : Fields) (r : Except Illegal Instr) : Except Illegal Instr := if f.d = 63 then r else .error .reservedField
/-- An X value (or a field with it) that the opcode accepts. -/
def need {α : Type} (v : Option α) (mk : α → Instr) : Except Illegal Instr :=
  match v with
  | some t => .ok (mk t)
  | none => .error .reservedX
/-- An X value within its range. -/
def onX (p : Prop) [Decidable p] (i : Instr) : Except Illegal Instr := if p then .ok i else .error .reservedX
/-- A field value within its range. -/
def onField (p : Prop) [Decidable p] (i : Instr) : Except Illegal Instr := if p then .ok i else .error .reservedField
/-- A field value within its range, before a further test. -/
def onFieldE (p : Prop) [Decidable p] (r : Except Illegal Instr) : Except Illegal Instr :=
  if p then r else .error .reservedField
/-- A mask, accumulator or similar field of 16 values (R39). -/
def kField (v : BitVec 6) (r : Except Illegal Instr) : Except Illegal Instr :=
  if v.toNat < 16 then r else .error .reservedField
/-- A mask field of an odd opcode: 1 to 15 (R66). -/
def onMask (v : BitVec 6) (r : Except Illegal Instr) : Except Illegal Instr :=
  if v ≠ 0 ∧ v.toNat < 16 then r else .error .reservedField
/-- A result-queue field (R39). -/
def rqField (v : BitVec 6) (r : Except Illegal Instr) : Except Illegal Instr :=
  if v.toNat < 8 then r else .error .reservedField
/-- A field that names an even register of a pair (R64, R67). -/
def onPair (v : BitVec 6) (r : Except Illegal Instr) : Except Illegal Instr :=
  if pairOk v then r else .error .reservedField
/-- The row selector of VACR and VACW (R264): unit 0 to 15, or bit 8 and a row 0 to 31. -/
def rowSel (i : BitVec 9) (unit : BitVec 4 → Instr) (row : BitVec 5 → Instr) : Except Illegal Instr :=
  if i.toNat < 16 then .ok (unit (i.setWidth 4))
  else if 256 ≤ i.toNat ∧ i.toNat < 288 then .ok (row (i.setWidth 5))
  else .error .reservedField
/-- WRSR by register number: the rows of their own, else the plain one. A RGNCTL write decodes to its query row. -/
def wrInstr (d : GReg) (n : BitVec 12) : Instr :=
  match wrRow n with
  | .plain => .wrsr d n
  | .launch => .launch d
  | .sgbase => .sgbase d
  | .genraise => .genraise d
  | .s2genraise => .s2genraise d
  | .frqs => .frqs d
  | .frqh => .frqh d
  | .featack0 => .featack0 d
  | .rgnctl => .rgnctlQuery d
  | .bank => .bankFormatRegister d ((n - 0x800).setWidth 9)
/-- The AMO operations of bank 0, by X (R64). -/
def amoLow (x : BitVec 3) (a b : GReg) (eight sp : Bool) : Instr :=
  match x.toNat with
  | 0 => .amoAdd a b eight sp
  | 1 => .amoAnd a b eight sp
  | 2 => .amoOr a b eight sp
  | 3 => .amoXor a b eight sp
  | 4 => .amoSwap a b eight sp
  | 5 => .amoSmin a b eight sp
  | 6 => .amoSmax a b eight sp
  | _ => .amoUmin a b eight sp

end Forms

open Forms in
/-- The S unit's opcodes (R60). -/
def decodeS (f : Fields) : Except Illegal Instr :=
  match f.op.toNat with
  | 0x00 => dZero f (aZero f (bZero f (rX0 f .nop)))
  | 0x01 => rX0 f (.add f.d f.a f.b)
  | 0x02 => rX0 f (.sub f.d f.a f.b)
  | 0x03 => rX0 f (.mul f.d f.a f.b)
  | 0x04 => rX0 f (.mulh f.d f.a f.b)
  | 0x05 => rX0 f (.mulhw f.d f.a f.b)
  | 0x06 => rX0 f (.div f.d f.a f.b)
  | 0x07 => rX0 f (.divw f.d f.a f.b)
  | 0x08 => rX0 f (.rem f.d f.a f.b)
  | 0x09 => rX0 f (.remw f.d f.a f.b)
  | 0x0A => rX0 f (.and f.d f.a f.b)
  | 0x0B => rX0 f (.or f.d f.a f.b)
  | 0x0C => rX0 f (.xor f.d f.a f.b)
  | 0x0D => rX0 f (.shl f.d f.a f.b)
  | 0x0E => rX0 f (.shr f.d f.a f.b)
  | 0x0F => rX0 f (.sha f.d f.a f.b)
  | 0x10 => rX0 f (.min f.d f.a f.b)
  | 0x11 => rX0 f (.max f.d f.a f.b)
  | 0x12 => rX0 f (.minw f.d f.a f.b)
  | 0x13 => rX0 f (.maxw f.d f.a f.b)
  | 0x14 => bZero f (rX0 f (.clz f.d f.a))
  | 0x15 => bZero f (rX0 f (.ctz f.d f.a))
  | 0x16 => bZero f (rX0 f (.popc f.d f.a))
  | 0x17 => bZero f (need (widthOf f.x) fun w => .sext f.d f.a w)
  | 0x18 => bZero f (need (widthOf f.x) fun w => .zext f.d f.a w)
  | 0x19 => onX (f.x.toNat < 2) (.bfx f.d f.a f.b (f.x.getLsbD 0))
  | 0x1A => rX0 f (.bfi f.d f.a f.b)
  | 0x1B => rX0 f (.sel f.d f.a f.b)
  | 0x1C => need (condOf f.x) fun c => .cmp f.d f.a f.b c
  | 0x20 => .ok (.addi f.d f.a f.imm9)
  | 0x21 => .ok (.andi f.d f.a f.imm9)
  | 0x22 => .ok (.ori f.d f.a f.imm9)
  | 0x23 => .ok (.xori f.d f.a f.imm9)
  | 0x24 => onField (f.imm9.toNat < 64) (.shli f.d f.a (f.imm9.setWidth 6))
  | 0x25 => onField (f.imm9.toNat < 64) (.shri f.d f.a (f.imm9.setWidth 6))
  | 0x26 => onField (f.imm9.toNat < 64) (.shai f.d f.a (f.imm9.setWidth 6))
  | 0x28 => .ok (.cmpiEq f.d f.a f.imm9)
  | 0x29 => .ok (.cmpiNe f.d f.a f.imm9)
  | 0x2A => .ok (.cmpiLt f.d f.a f.imm9)
  | 0x2B => .ok (.cmpiGe f.d f.a f.imm9)
  | 0x2C => .ok (.cmpiLtw f.d f.a f.imm9)
  | 0x2D => .ok (.cmpiGew f.d f.a f.imm9)
  | 0x2E => .ok (.movi f.d f.imm15)
  | 0x2F => .ok (.movhi f.d f.imm15)
  | 0x30 => .ok (.br f.off21)
  | 0x31 => .ok (.call f.off21)
  | 0x32 => .ok (.brcZ f.d f.imm15)
  | 0x33 => .ok (.brcNz f.d f.imm15)
  | 0x34 => dZero f (bZero f (rX0 f (.jmp f.a)))
  | 0x35 => dZero f (aZero f (bZero f (rX0 f .ret)))
  | 0x36 => onField (f.d.toNat < 4 ∧ f.imm9 ≠ 0) (.loop (f.d.setWidth 2) f.a f.imm9)
  | 0x37 => onField (f.d.toNat < 4 ∧ f.imm15.extractLsb' 0 7 ≠ 0)
      (.loopi (f.d.setWidth 2) (f.imm15.extractLsb' 7 8) (f.imm15.extractLsb' 0 7))
  | 0x38 => dZero f (aZero f (bZero f (rX0 f .idle)))
  | 0x40 => onField (f.imm15.toNat < 4096) (.rdsr f.d (f.imm15.setWidth 12))
  | 0x41 => onField (f.imm15.toNat < 4096) (wrInstr f.d (f.imm15.setWidth 12))
  | 0x42 => dZero f (.ok (.trap f.imm15))
  | 0x43 => dZero f (.ok (.sysc f.imm15))
  | 0x44 => dZero f (.ok (.brk f.imm15))
  | 0x45 => dZero f (aZero f (bZero f (rX0 f .rft)))
  | 0x46 => dZero f (rX0 f (.accFlip f.a f.b))
  | 0x48 => .ok (.ldw f.d f.a f.imm9 false)
  | 0x49 => .ok (.ldw f.d f.a f.imm9 true)
  | 0x4A => .ok (.ldc f.d f.a f.imm9 false)
  | 0x4B => .ok (.ldc f.d f.a f.imm9 true)
  | 0x4C => .ok (.stf f.d f.a f.imm9 false)
  | 0x4D => .ok (.stf f.d f.a f.imm9 true)
  | 0x4E => .ok (.sts f.d f.a f.imm9 false)
  | 0x4F => .ok (.sts f.d f.a f.imm9 true)
  | 0x50 => .ok (.feq f.d f.a f.imm9 false)
  | 0x51 => .ok (.feq f.d f.a f.imm9 true)
  | 0x52 => dZero f (.ok (.feset f.a f.imm9 false))
  | 0x53 => dZero f (.ok (.feset f.a f.imm9 true))
  | 0x54 => dZero f (.ok (.feclr f.a f.imm9 false))
  | 0x55 => dZero f (.ok (.feclr f.a f.imm9 true))
  | 0x58 => dZero f (aZero f (bZero f (rX0 f .sstep)))
  | 0x59 => rX0 f (.spawn f.d f.a f.b)
  | 0x5A => dZero f (aZero f (bZero f (rX0 f .tdone)))
  | 0x5B => dZero f (bZero f (rX0 f (.park f.a)))
  | 0x5C => dZero f (aZero f (bZero f (rX0 f .yield)))
  | 0x5D => dZero f (rX0 f (.dcset f.a f.b))
  | 0x5E => dZero f (bZero f (rX0 f (.dcdec f.a)))
  | 0x60 => onField (f.d.toNat < 16) (.mon (f.d.setWidth 4) f.a f.imm9 false)
  | 0x61 => onField (f.d.toNat < 16) (.mon (f.d.setWidth 4) f.a f.imm9 true)
  | 0x62 => bZero f (rX0 f (.waitm f.d f.a))
  | 0x63 => dZero f (aZero f (need (scopeOf f.b f.x) fun sc => .acq sc))
  | 0x64 => dZero f (aZero f (need (scopeOf f.b f.x) fun sc => .rel sc))
  | 0x65 => dZero f (aZero f (need (scopeOf f.b f.x) fun sc => .fence sc))
  | 0x66 => dZero f (need (if pathsOk f.a then scopeOf f.b f.x else none) fun sc => .fenceX f.a sc)
  | 0x67 => dZero f (need (scopeOf f.b f.x) fun sc => .promote f.a sc)
  | 0x68 => dZero f (rX0 f (.barwt f.a f.b))
  | 0x6C => rX0 f (.wdecl f.d f.a f.b)
  | 0x6D => dZero f (bZero f (rX0 f (.wdrop f.a)))
  | 0x6E => dZero f (need (scopeOf f.b f.x) fun sc => .acqt f.a sc)
  | 0x6F => dZero f (need (scopeOf f.b f.x) fun sc => .relt f.a sc)
  | 0x70 => dZero f (rX0 f (.ptbindCores f.a f.b))
  | 0x71 => dZero f (rX0 f (.ptquotaSlice f.a f.b))
  | 0x72 => dZero f (bZero f (rX0 f (.ptsealSeal f.a)))
  | _ => .error .reservedOpcode

open Forms in
/-- The A unit's opcodes (R63). -/
def decodeA (f : Fields) : Except Illegal Instr :=
  match f.op.toNat with
  | 0x00 => dIs63 f (.ok (.la f.a f.imm9 0 false))
  | 0x01 => dIs63 f (.ok (.la f.a f.imm9 1 false))
  | 0x02 => dIs63 f (.ok (.la f.a f.imm9 2 false))
  | 0x03 => dIs63 f (.ok (.la f.a f.imm9 3 false))
  | 0x04 => dIs63 f (.ok (.lav f.a f.imm9 0 false))
  | 0x05 => dIs63 f (.ok (.lav f.a f.imm9 1 false))
  | 0x06 => dIs63 f (.ok (.lav f.a f.imm9 2 false))
  | 0x07 => dIs63 f (.ok (.lav f.a f.imm9 3 false))
  | 0x08 => dIs63 f (.ok (.la f.a f.imm9 0 true))
  | 0x09 => dIs63 f (.ok (.la f.a f.imm9 1 true))
  | 0x0A => dIs63 f (.ok (.la f.a f.imm9 2 true))
  | 0x0B => dIs63 f (.ok (.la f.a f.imm9 3 true))
  | 0x0C => dIs63 f (.ok (.lav f.a f.imm9 0 true))
  | 0x0D => dIs63 f (.ok (.lav f.a f.imm9 1 true))
  | 0x0E => dIs63 f (.ok (.lav f.a f.imm9 2 true))
  | 0x0F => dIs63 f (.ok (.lav f.a f.imm9 3 true))
  | 0x10 => dZero f (.ok (.sa f.a f.imm9 0 false))
  | 0x11 => dZero f (.ok (.sa f.a f.imm9 1 false))
  | 0x12 => dZero f (.ok (.sa f.a f.imm9 2 false))
  | 0x13 => dZero f (.ok (.sa f.a f.imm9 3 false))
  | 0x14 => dZero f (.ok (.sav f.a f.imm9 0 false))
  | 0x15 => dZero f (.ok (.sav f.a f.imm9 1 false))
  | 0x16 => dZero f (.ok (.sav f.a f.imm9 2 false))
  | 0x17 => dZero f (.ok (.sav f.a f.imm9 3 false))
  | 0x18 => dZero f (.ok (.sa f.a f.imm9 0 true))
  | 0x19 => dZero f (.ok (.sa f.a f.imm9 1 true))
  | 0x1A => dZero f (.ok (.sa f.a f.imm9 2 true))
  | 0x1B => dZero f (.ok (.sa f.a f.imm9 3 true))
  | 0x1C => dZero f (.ok (.sav f.a f.imm9 0 true))
  | 0x1D => dZero f (.ok (.sav f.a f.imm9 1 true))
  | 0x1E => dZero f (.ok (.sav f.a f.imm9 2 true))
  | 0x1F => dZero f (.ok (.sav f.a f.imm9 3 true))
  | 0x20 => dIs63 f (.ok (.laxIndex f.a f.b f.x false))
  | 0x21 => dIs63 f (.ok (.laxIndex f.a f.b f.x true))
  | 0x22 => dIs63 f (.ok (.laxIncrement f.a f.b f.x false))
  | 0x23 => dIs63 f (.ok (.laxIncrement f.a f.b f.x true))
  | 0x24 => dZero f (.ok (.saxIndex f.a f.b f.x false))
  | 0x25 => dZero f (.ok (.saxIndex f.a f.b f.x true))
  | 0x26 => dZero f (.ok (.saxIncrement f.a f.b f.x false))
  | 0x27 => dZero f (.ok (.saxIncrement f.a f.b f.x true))
  | 0x28 => dIs63 f (onX (f.x.toNat < 4) (.lavStrided f.a f.b (f.x.setWidth 2) false))
  | 0x29 => dIs63 f (onX (f.x.toNat < 4) (.lavStrided f.a f.b (f.x.setWidth 2) true))
  | 0x2A => dZero f (onX (f.x.toNat < 4) (.savStrided f.a f.b (f.x.setWidth 2) false))
  | 0x2B => dZero f (onX (f.x.toNat < 4) (.savStrided f.a f.b (f.x.setWidth 2) true))
  | 0x2C => dIs63 f (onX (f.x.toNat < 4) (.lagv f.a f.b (f.x.setWidth 2) false))
  | 0x2D => dIs63 f (onX (f.x.toNat < 4) (.lagv f.a f.b (f.x.setWidth 2) true))
  | 0x2E => dZero f (onX (f.x.toNat < 4) (.sasv f.a f.b (f.x.setWidth 2) false))
  | 0x2F => dZero f (onX (f.x.toNat < 4) (.sasv f.a f.b (f.x.setWidth 2) true))
  | 0x30 => dZero f (.ok (.pref f.a f.imm9))
  | 0x38 => dIs63 f (.ok (amoLow f.x f.a f.b false false))
  | 0x39 => dIs63 f (.ok (amoLow f.x f.a f.b false true))
  | 0x3A => dIs63 f (.ok (amoLow f.x f.a f.b true false))
  | 0x3B => dIs63 f (.ok (amoLow f.x f.a f.b true true))
  | 0x3C => dIs63 f (if f.x = 0 then .ok (.amoUmax f.a f.b false false) else onX (f.x = 1) (.amoFadd f.a f.b false))
  | 0x3D => dIs63 f (if f.x = 0 then .ok (.amoUmax f.a f.b false true) else onX (f.x = 1) (.amoFadd f.a f.b true))
  | 0x3E => dIs63 f (if f.x = 0 then .ok (.amoUmax f.a f.b true false) else .error .reservedX)
  | 0x3F => dIs63 f (if f.x = 0 then .ok (.amoUmax f.a f.b true true) else .error .reservedX)
  | 0x40 => dIs63 f (rX0 f (.cas f.a f.b false false)) |> onPair f.b
  | 0x41 => dIs63 f (rX0 f (.cas f.a f.b false true)) |> onPair f.b
  | 0x42 => dIs63 f (rX0 f (.cas f.a f.b true false)) |> onPair f.b
  | 0x43 => dIs63 f (rX0 f (.cas f.a f.b true true)) |> onPair f.b
  | 0x44 => dIs63 f (.ok (if f.x.toNat < 4 then .laLand f.a f.b (f.x.setWidth 2) false else .lavLand f.a f.b (f.x.setWidth 2) false))
  | 0x45 => dIs63 f (.ok (if f.x.toNat < 4 then .laLand f.a f.b (f.x.setWidth 2) true else .lavLand f.a f.b (f.x.setWidth 2) true))
  | _ => .error .reservedOpcode

open Forms in
/-- The V unit's opcodes (R65). -/
def decodeV (f : Fields) : Except Illegal Instr :=
  match f.op.toNat with
  | 0x00 => need (vtyOf f.x) fun t => .vadd f.d f.a f.b t
  | 0x01 => onMask f.a (need (vtyOf f.x) fun t => .vaddMasked f.d (f.a.setWidth 4) f.b t)
  | 0x02 => need (vtyOf f.x) fun t => .vsub f.d f.a f.b t
  | 0x03 => onMask f.a (need (vtyOf f.x) fun t => .vsubMasked f.d (f.a.setWidth 4) f.b t)
  | 0x04 => need (vtyOf f.x) fun t => .vmul f.d f.a f.b t
  | 0x05 => onMask f.a (need (vtyOf f.x) fun t => .vmulMasked f.d (f.a.setWidth 4) f.b t)
  | 0x06 => need ((vtyOf f.x).filter intTy) fun t => .vmulh f.d f.a f.b t
  | 0x07 => onMask f.a (need ((vtyOf f.x).filter intTy) fun t => .vmulhMasked f.d (f.a.setWidth 4) f.b t)
  | 0x08 => need (vtyOf f.x) fun t => .vmin f.d f.a f.b t
  | 0x09 => onMask f.a (need (vtyOf f.x) fun t => .vminMasked f.d (f.a.setWidth 4) f.b t)
  | 0x0A => need (vtyOf f.x) fun t => .vmax f.d f.a f.b t
  | 0x0B => onMask f.a (need (vtyOf f.x) fun t => .vmaxMasked f.d (f.a.setWidth 4) f.b t)
  | 0x0C => rX0 f (.vand f.d f.a f.b)
  | 0x0D => onMask f.a (rX0 f (.vandMasked f.d (f.a.setWidth 4) f.b))
  | 0x0E => rX0 f (.vor f.d f.a f.b)
  | 0x0F => onMask f.a (rX0 f (.vorMasked f.d (f.a.setWidth 4) f.b))
  | 0x10 => rX0 f (.vxor f.d f.a f.b)
  | 0x11 => onMask f.a (rX0 f (.vxorMasked f.d (f.a.setWidth 4) f.b))
  | 0x12 => need ((vtyOf f.x).filter unsignedTy) fun t => .vshl f.d f.a f.b t
  | 0x13 => onMask f.a (need ((vtyOf f.x).filter unsignedTy) fun t => .vshlMasked f.d (f.a.setWidth 4) f.b t)
  | 0x14 => need ((vtyOf f.x).filter unsignedTy) fun t => .vshr f.d f.a f.b t
  | 0x15 => onMask f.a (need ((vtyOf f.x).filter unsignedTy) fun t => .vshrMasked f.d (f.a.setWidth 4) f.b t)
  | 0x16 => need ((vtyOf f.x).filter signedTy) fun t => .vsha f.d f.a f.b t
  | 0x17 => onMask f.a (need ((vtyOf f.x).filter signedTy) fun t => .vshaMasked f.d (f.a.setWidth 4) f.b t)
  | 0x18 => need ((vtyOf f.x).filter unsignedTy) fun t => .vperm f.d f.a f.b t
  | 0x19 => onMask f.a (need ((vtyOf f.x).filter unsignedTy) fun t => .vpermMasked f.d (f.a.setWidth 4) f.b t)
  | 0x1A => need (ntyOf f.x) fun t => .vpack f.d f.a f.b t
  | 0x1B => onMask f.a (need (ntyOf f.x) fun t => .vpackMasked f.d (f.a.setWidth 4) f.b t)
  | 0x20 => kField f.b (need ((vtyOf f.x).filter absTy) fun t => .vabs f.d f.a (f.b.setWidth 4) t)
  | 0x21 => kField f.b (need ((vtyOf f.x).filter absTy) fun t => .vneg f.d f.a (f.b.setWidth 4) t)
  | 0x22 => kField f.b (rX0 f (.vnot f.d f.a (f.b.setWidth 4)))
  | 0x23 => kField f.b (need ((vtyOf f.x).filter floatTy) fun t => .vrcp f.d f.a (f.b.setWidth 4) t)
  | 0x24 => kField f.b (need ((vtyOf f.x).filter floatTy) fun t => .vrsq f.d f.a (f.b.setWidth 4) t)
  | 0x25 => kField f.b (need ((vtyOf f.x).filter floatTy) fun t => .vexp2 f.d f.a (f.b.setWidth 4) t)
  | 0x26 => kField f.b (need ((vtyOf f.x).filter floatTy) fun t => .vlog2 f.d f.a (f.b.setWidth 4) t)
  | 0x27 => kField f.b (need (vtyOf f.x) fun t => .vredSum f.d f.a (f.b.setWidth 4) t)
  | 0x28 => kField f.b (need (vtyOf f.x) fun t => .vredMax f.d f.a (f.b.setWidth 4) t)
  | 0x29 => kField f.b (need (vtyOf f.x) fun t => .vredMin f.d f.a (f.b.setWidth 4) t)
  | 0x2A => kField f.b (need (vtyOf f.x) fun t => .vscan f.d f.a (f.b.setWidth 4) t)
  | 0x2B => kField f.b (rX0 f (.vmov f.d f.a (f.b.setWidth 4)))
  | 0x2C => kField f.b (need (ntyOf f.x) fun t => .vsat f.d f.a (f.b.setWidth 4) t)
  | 0x2D => kField f.b (need (ntyOf f.x) fun t => .vunpkLo f.d f.a (f.b.setWidth 4) t)
  | 0x2E => kField f.b (need (ntyOf f.x) fun t => .vunpkHi f.d f.a (f.b.setWidth 4) t)
  | 0x2F => kField f.b (need (vtyOf f.x) fun t => .vbcast f.d f.a (f.b.setWidth 4) t)
  | 0x30 => .ok (.vfmaF32 f.d f.a f.b (BitVec.ofNat 1 0 ++ f.x))
  | 0x31 => .ok (.vfmaF32 f.d f.a f.b (BitVec.ofNat 1 1 ++ f.x))
  | 0x32 => .ok (.vfmaF16 f.d f.a f.b (BitVec.ofNat 1 0 ++ f.x))
  | 0x33 => .ok (.vfmaF16 f.d f.a f.b (BitVec.ofNat 1 1 ++ f.x))
  | 0x34 => .ok (.vfmaB16 f.d f.a f.b (BitVec.ofNat 1 0 ++ f.x))
  | 0x35 => .ok (.vfmaB16 f.d f.a f.b (BitVec.ofNat 1 1 ++ f.x))
  | 0x36 => .ok (.vfmsF32 f.d f.a f.b (BitVec.ofNat 1 0 ++ f.x))
  | 0x37 => .ok (.vfmsF32 f.d f.a f.b (BitVec.ofNat 1 1 ++ f.x))
  | 0x38 => .ok (.vfmsF16 f.d f.a f.b (BitVec.ofNat 1 0 ++ f.x))
  | 0x39 => .ok (.vfmsF16 f.d f.a f.b (BitVec.ofNat 1 1 ++ f.x))
  | 0x3A => .ok (.vfmsB16 f.d f.a f.b (BitVec.ofNat 1 0 ++ f.x))
  | 0x3B => .ok (.vfmsB16 f.d f.a f.b (BitVec.ofNat 1 1 ++ f.x))
  | 0x3C => .ok (.vfnmaF32 f.d f.a f.b (BitVec.ofNat 1 0 ++ f.x))
  | 0x3D => .ok (.vfnmaF32 f.d f.a f.b (BitVec.ofNat 1 1 ++ f.x))
  | 0x3E => .ok (.vfnmaF16 f.d f.a f.b (BitVec.ofNat 1 0 ++ f.x))
  | 0x3F => .ok (.vfnmaF16 f.d f.a f.b (BitVec.ofNat 1 1 ++ f.x))
  | 0x40 => .ok (.vfnmaB16 f.d f.a f.b (BitVec.ofNat 1 0 ++ f.x))
  | 0x41 => .ok (.vfnmaB16 f.d f.a f.b (BitVec.ofNat 1 1 ++ f.x))
  | 0x42 => .ok (.vdot4I8 f.d f.a f.b (BitVec.ofNat 1 0 ++ f.x))
  | 0x43 => .ok (.vdot4I8 f.d f.a f.b (BitVec.ofNat 1 1 ++ f.x))
  | 0x44 => .ok (.vdot4W8 f.d f.a f.b (BitVec.ofNat 1 0 ++ f.x))
  | 0x45 => .ok (.vdot4W8 f.d f.a f.b (BitVec.ofNat 1 1 ++ f.x))
  | 0x46 => .ok (.vsel f.d f.a f.b (BitVec.ofNat 1 0 ++ f.x))
  | 0x47 => .ok (.vsel f.d f.a f.b (BitVec.ofNat 1 1 ++ f.x))
  | 0x48 => kField f.d (need (vtyOf f.x) fun t => .vcmpEq (f.d.setWidth 4) f.a f.b t)
  | 0x49 => kField f.d (need (vtyOf f.x) fun t => .vcmpNe (f.d.setWidth 4) f.a f.b t)
  | 0x4A => kField f.d (need (vtyOf f.x) fun t => .vcmpLt (f.d.setWidth 4) f.a f.b t)
  | 0x4B => kField f.d (need (vtyOf f.x) fun t => .vcmpLe (f.d.setWidth 4) f.a f.b t)
  | 0x4C => onFieldE (f.b ≠ 63) (need (roundOf f.x) fun r => .vcvt f.d f.a f.b r)
  | 0x4D => onField (shufOk (f.imm9.extractLsb' 6 3) (f.imm9.extractLsb' 0 6))
      (.vshuf f.d f.a (f.imm9.extractLsb' 6 3) (f.imm9.extractLsb' 0 6))
  | 0x4E => need (vtyOf f.x) fun t => .vins f.d f.a f.b t
  | 0x4F => need (vtyOf f.x) fun t => .vext f.d f.a f.b t
  | 0x50 => .ok (.vmovi f.d f.imm15)
  | 0x58 => kField f.d (kField f.a (kField f.b (rX0 f (.kand (f.d.setWidth 4) (f.a.setWidth 4) (f.b.setWidth 4)))))
  | 0x59 => kField f.d (kField f.a (kField f.b (rX0 f (.kor (f.d.setWidth 4) (f.a.setWidth 4) (f.b.setWidth 4)))))
  | 0x5A => kField f.d (kField f.a (bZero f (rX0 f (.knot (f.d.setWidth 4) (f.a.setWidth 4)))))
  | 0x5B => kField f.a (bZero f (rX0 f (.kpop f.d (f.a.setWidth 4))))
  | 0x60 => kField f.a (rowSel f.imm9 (.vacr f.d (f.a.setWidth 4)) (.vacrRow f.d (f.a.setWidth 4)))
  | 0x61 => kField f.d (rowSel f.imm9 (.vacw (f.d.setWidth 4) f.a) (.vacwRow (f.d.setWidth 4) f.a))
  | 0x62 => rqField f.a (bZero f (rX0 f (.vqpop f.d (f.a.setWidth 3))))
  | _ => .error .reservedOpcode

open Forms in
/-- The M unit's opcodes (R67). -/
def decodeM (f : Fields) : Except Illegal Instr :=
  match f.op.toNat with
  | 0x00 => kField f.d (rX0 f (.mma (f.d.setWidth 4) f.a f.b)) |> onPair f.a
  | 0x01 => kField f.d (rX0 f (.mmas (f.d.setWidth 4) f.a f.b))
  | 0x02 => kField f.d (aZero f (bZero f (rX0 f (.mzero (f.d.setWidth 4)))))
  | 0x03 => rqField f.d (kField f.a (bZero f (rX0 f (.mdrn (f.d.setWidth 3) (f.a.setWidth 4)))))
  | 0x04 => kField f.d (rX0 f (.mchk (f.d.setWidth 4) f.a f.b)) |> onPair f.a
  | 0x05 => dZero f (aZero f (bZero f (rX0 f .mwait)))
  | 0x06 => aZero f (bZero f (rX0 f (.mstat f.d)))
  | _ => .error .reservedOpcode

open Forms in
/-- The C unit's opcodes (R68). -/
def decodeC (f : Fields) : Except Illegal Instr :=
  match f.op.toNat with
  | 0x00 => dZero f (need (feOf f.x) fun m => .cpy f.a f.b m)
  | 0x01 => dZero f (need (feOf f.x) fun m => .cpyn f.a f.b m)
  | 0x02 => dZero f (need (feOf f.x) fun m => .cpyp f.a f.b m)
  | 0x03 => dZero f (need (feOf f.x) fun m => .cpym f.a f.b m)
  | 0x04 => dZero f (need (feOf f.x) fun m => .cpyg f.a f.b m)
  | 0x05 => dZero f (rqField f.a (need (feOf f.x) fun m => .cpyq (f.a.setWidth 3) f.b m))
  | 0x08 => dZero f (rX0 f (.rngset f.a f.b))
  | 0x09 => dZero f (rX0 f (.rngadvRelease f.a f.b))
  | 0x0C => dZero f (rX0 f (.barinit f.a f.b))
  | 0x0D => dZero f (rX0 f (.barexp f.a f.b))
  | 0x10 => dZero f (rX0 f (.tfetch f.a f.b))
  | 0x20 => dZero f (rX0 f (.lnkSendPut f.a f.b))
  | 0x21 => dZero f (rX0 f (.lnkRecv f.a f.b))
  | 0x22 => dZero f (rX0 f (.lnkRadd f.a f.b))
  | 0x23 => dZero f (rX0 f (.lnkRed f.a f.b))
  | 0x30 => dZero f (rX0 f (.netPost f.a f.b))
  | 0x31 => dZero f (rX0 f (.netArm f.a f.b))
  | 0x32 => bZero f (rX0 f (.netCqr f.d f.a))
  | _ => .error .reservedOpcode

/-- Decode by unit class (R56). -/
def decodeFields (f : Fields) : Except Illegal Instr :=
  match f.u.toNat with
  | 0 => decodeS f
  | 1 => decodeA f
  | 2 => decodeV f
  | 3 => decodeM f
  | 4 => decodeC f
  | _ => .error .reservedUnit

/-- Decode one slot word; its E bit plays no part (R42). -/
def decodeSlot (w : SlotWord) : Except Illegal Instr := decodeFields (Fields.ofWord w)

/-- A slot word from four bytes, lowest address first (R38: little-endian). -/
def wordOfBytes (b0 b1 b2 b3 : Byte) : SlotWord := b3 ++ b2 ++ b1 ++ b0

/-- Decode the instruction at the front of a byte list, with the bytes after it. -/
def decodeBytes : List Byte → Except Illegal (Instr × List Byte)
  | b0 :: b1 :: b2 :: b3 :: rest =>
    match decodeSlot (wordOfBytes b0 b1 b2 b3) with
    | .ok i => .ok (i, rest)
    | .error e => .error e
  | _ => .error .truncated

/-- The bytes of a word as the hardware stores it (R38). -/
def bytesOfWord (w : SlotWord) : List Byte :=
  [w.extractLsb' 0 8, w.extractLsb' 8 8, w.extractLsb' 16 8, w.extractLsb' 24 8]

/-- The instruction read from the bits of an opcode-table row: bits above `nbits` are zero. -/
def decodeTableWord (nbits w : Nat) : Option Instr :=
  match decodeBytes (bytesOfWord (BitVec.ofNat 32 (w % 2 ^ nbits))) with
  | .ok (i, _) => some i
  | .error _ => none

/-- A slot word from its fields with E = 0 (R38). -/
def slot (u : BitVec 3) (op : BitVec 7) (d a b : BitVec 6) (x : BitVec 3) : SlotWord :=
  (0 : BitVec 1) ++ u ++ op ++ d ++ a ++ b ++ x
/-- An I-form word. -/
def slotI (u : BitVec 3) (op : BitVec 7) (d a : BitVec 6) (i : BitVec 9) : SlotWord :=
  slot u op d a (i.extractLsb' 3 6) (i.extractLsb' 0 3)
/-- An L-form word. -/
def slotL (u : BitVec 3) (op : BitVec 7) (d : BitVec 6) (i : BitVec 15) : SlotWord :=
  slot u op d (i.extractLsb' 9 6) (i.extractLsb' 3 6) (i.extractLsb' 0 3)
/-- A J-form word. -/
def slotJ (u : BitVec 3) (op : BitVec 7) (o : BitVec 21) : SlotWord :=
  slot u op (o.extractLsb' 15 6) (o.extractLsb' 9 6) (o.extractLsb' 3 6) (o.extractLsb' 0 3)

namespace Forms

/-- An opcode with OP[0] = the bit. -/
def bit (s : Bool) (op : BitVec 7) : BitVec 7 := if s then op + 1 else op
/-- LA, LAV, SA and SAV: OP[3] is the space and OP[1:0] the low size code (R63). -/
def memOp (op : BitVec 7) (sp : Bool) (sz : BitVec 2) : BitVec 7 := op + (if sp then 8 else 0) + sz.setWidth 7
/-- AMO and CAS: OP[1] is the size and OP[0] the space (R63). -/
def amoOp (op : BitVec 7) (eight sp : Bool) : BitVec 7 := op + (if eight then 2 else 0) + (if sp then 1 else 0)

end Forms

/-- The row that an instruction's word decodes to: itself, but for the rows that share one word and that an operand's
value tells apart when it executes (R94, R291, R326, R400, R430, R431, R433). -/
def wordRow : Instr → Instr
  | .spadFlip a b | .sectorPoison a b | .tagBreak a b | .raise a b => .accFlip a b
  | .ptbindEngines a b | .ptbindMemports a b | .ptbindQueues a b | .ptbindS2root a b | .ptbindKey a b
  | .ptbindDump a b | .ptbindFaper a b | .ptbindNaper a b | .ptbindPeer a b | .ptbindKport a b | .ptbindRwin a b
  | .ptbindIntr a b | .ptbindInj a b => .ptbindCores a b
  | .ptquotaPrio a b | .ptquotaRate a b | .ptquotaActiveq a b => .ptquotaSlice a b
  | .ptsealStop a | .ptsealFree a => .ptsealSeal a
  | .rngadvCommit a b => .rngadvRelease a b
  | .lnkSendGet a b | .lnkSendAtomic a b | .lnkSendMessage a b => .lnkSendPut a b
  | .rgnctlPreempt d | .rgnctlResume d => .rgnctlQuery d
  | i => i

open Forms in
/-- The slot word of an instruction, with E = 0, from the same tables (R38, R60 to R68); a step has none. -/
def encode : Instr → Option SlotWord
  | .nop => some (slot 0 0x00 0 0 0 0)
  | .add d a b => some (slot 0 0x01 d a b 0)
  | .sub d a b => some (slot 0 0x02 d a b 0)
  | .mul d a b => some (slot 0 0x03 d a b 0)
  | .mulh d a b => some (slot 0 0x04 d a b 0)
  | .mulhw d a b => some (slot 0 0x05 d a b 0)
  | .div d a b => some (slot 0 0x06 d a b 0)
  | .divw d a b => some (slot 0 0x07 d a b 0)
  | .rem d a b => some (slot 0 0x08 d a b 0)
  | .remw d a b => some (slot 0 0x09 d a b 0)
  | .and d a b => some (slot 0 0x0A d a b 0)
  | .or d a b => some (slot 0 0x0B d a b 0)
  | .xor d a b => some (slot 0 0x0C d a b 0)
  | .shl d a b => some (slot 0 0x0D d a b 0)
  | .shr d a b => some (slot 0 0x0E d a b 0)
  | .sha d a b => some (slot 0 0x0F d a b 0)
  | .min d a b => some (slot 0 0x10 d a b 0)
  | .max d a b => some (slot 0 0x11 d a b 0)
  | .minw d a b => some (slot 0 0x12 d a b 0)
  | .maxw d a b => some (slot 0 0x13 d a b 0)
  | .clz d a => some (slot 0 0x14 d a 0 0)
  | .ctz d a => some (slot 0 0x15 d a 0 0)
  | .popc d a => some (slot 0 0x16 d a 0 0)
  | .sext d a w => some (slot 0 0x17 d a 0 (widthCode w))
  | .zext d a w => some (slot 0 0x18 d a 0 (widthCode w))
  | .bfx d a b signed => some (slot 0 0x19 d a b (if signed then 1 else 0))
  | .bfi d a b => some (slot 0 0x1A d a b 0)
  | .sel d a b => some (slot 0 0x1B d a b 0)
  | .cmp d a b c => some (slot 0 0x1C d a b (condCode c))
  | .addi d a imm => some (slotI 0 0x20 d a imm)
  | .andi d a imm => some (slotI 0 0x21 d a imm)
  | .ori d a imm => some (slotI 0 0x22 d a imm)
  | .xori d a imm => some (slotI 0 0x23 d a imm)
  | .shli d a n => some (slotI 0 0x24 d a (n.setWidth 9))
  | .shri d a n => some (slotI 0 0x25 d a (n.setWidth 9))
  | .shai d a n => some (slotI 0 0x26 d a (n.setWidth 9))
  | .cmpiEq d a imm => some (slotI 0 0x28 d a imm)
  | .cmpiNe d a imm => some (slotI 0 0x29 d a imm)
  | .cmpiLt d a imm => some (slotI 0 0x2A d a imm)
  | .cmpiGe d a imm => some (slotI 0 0x2B d a imm)
  | .cmpiLtw d a imm => some (slotI 0 0x2C d a imm)
  | .cmpiGew d a imm => some (slotI 0 0x2D d a imm)
  | .movi d imm => some (slotL 0 0x2E d imm)
  | .movhi d imm => some (slotL 0 0x2F d imm)
  | .br off => some (slotJ 0 0x30 off)
  | .call off => some (slotJ 0 0x31 off)
  | .brcZ d off => some (slotL 0 0x32 d off)
  | .brcNz d off => some (slotL 0 0x33 d off)
  | .jmp a => some (slot 0 0x34 0 a 0 0)
  | .ret => some (slot 0 0x35 0 0 0 0)
  | .loop n a dist => some (slotI 0 0x36 (n.setWidth 6) a dist)
  | .loopi n count dist => some (slotL 0 0x37 (n.setWidth 6) (count ++ dist))
  | .idle => some (slot 0 0x38 0 0 0 0)
  | .rdsr d n => some (slotL 0 0x40 d (n.setWidth 15))
  | .wrsr d n => some (slotL 0 0x41 d (n.setWidth 15))
  | .launch d => some (slotL 0 0x41 d 0x187)
  | .sgbase d => some (slotL 0 0x41 d 0x185)
  | .genraise d => some (slotL 0 0x41 d 0x205)
  | .s2genraise d => some (slotL 0 0x41 d 0x20A)
  | .frqs d => some (slotL 0 0x41 d 0x050)
  | .frqh d => some (slotL 0 0x41 d 0x051)
  | .featack0 d => some (slotL 0 0x41 d 0x304)
  | .rgnctlQuery d => some (slotL 0 0x41 d 0x30B)
  | .rgnctlPreempt d => some (slotL 0 0x41 d 0x30B)
  | .rgnctlResume d => some (slotL 0 0x41 d 0x30B)
  | .bankFormatRegister d bank => some (slotL 0 0x41 d (0x800 + bank.setWidth 15))
  | .trap code => some (slotL 0 0x42 0 code)
  | .sysc code => some (slotL 0 0x43 0 code)
  | .brk code => some (slotL 0 0x44 0 code)
  | .rft => some (slot 0 0x45 0 0 0 0)
  | .accFlip a b => some (slot 0 0x46 0 a b 0)
  | .spadFlip a b => some (slot 0 0x46 0 a b 0)
  | .sectorPoison a b => some (slot 0 0x46 0 a b 0)
  | .tagBreak a b => some (slot 0 0x46 0 a b 0)
  | .raise a b => some (slot 0 0x46 0 a b 0)
  | .ldw d a imm sp => some (slotI 0 (bit sp 0x48) d a imm)
  | .ldc d a imm sp => some (slotI 0 (bit sp 0x4A) d a imm)
  | .stf d a imm sp => some (slotI 0 (bit sp 0x4C) d a imm)
  | .sts d a imm sp => some (slotI 0 (bit sp 0x4E) d a imm)
  | .feq d a imm sp => some (slotI 0 (bit sp 0x50) d a imm)
  | .feset a imm sp => some (slotI 0 (bit sp 0x52) 0 a imm)
  | .feclr a imm sp => some (slotI 0 (bit sp 0x54) 0 a imm)
  | .sstep => some (slot 0 0x58 0 0 0 0)
  | .spawn d a b => some (slot 0 0x59 d a b 0)
  | .tdone => some (slot 0 0x5A 0 0 0 0)
  | .park a => some (slot 0 0x5B 0 a 0 0)
  | .yield => some (slot 0 0x5C 0 0 0 0)
  | .dcset a b => some (slot 0 0x5D 0 a b 0)
  | .dcdec a => some (slot 0 0x5E 0 a 0 0)
  | .mon n a imm sp => some (slotI 0 (bit sp 0x60) (n.setWidth 6) a imm)
  | .waitm d a => some (slot 0 0x62 d a 0 0)
  | .acq sc => some (slot 0 0x63 0 0 (scopeGroup sc) (scopeCode sc))
  | .rel sc => some (slot 0 0x64 0 0 (scopeGroup sc) (scopeCode sc))
  | .fence sc => some (slot 0 0x65 0 0 (scopeGroup sc) (scopeCode sc))
  | .fenceX mask sc => some (slot 0 0x66 0 mask (scopeGroup sc) (scopeCode sc))
  | .promote a sc => some (slot 0 0x67 0 a (scopeGroup sc) (scopeCode sc))
  | .acqt a sc => some (slot 0 0x6E 0 a (scopeGroup sc) (scopeCode sc))
  | .relt a sc => some (slot 0 0x6F 0 a (scopeGroup sc) (scopeCode sc))
  | .barwt a b => some (slot 0 0x68 0 a b 0)
  | .wdecl d a b => some (slot 0 0x6C d a b 0)
  | .wdrop a => some (slot 0 0x6D 0 a 0 0)
  | .ptbindCores a b => some (slot 0 0x70 0 a b 0)
  | .ptbindEngines a b => some (slot 0 0x70 0 a b 0)
  | .ptbindMemports a b => some (slot 0 0x70 0 a b 0)
  | .ptbindQueues a b => some (slot 0 0x70 0 a b 0)
  | .ptbindS2root a b => some (slot 0 0x70 0 a b 0)
  | .ptbindKey a b => some (slot 0 0x70 0 a b 0)
  | .ptbindDump a b => some (slot 0 0x70 0 a b 0)
  | .ptbindFaper a b => some (slot 0 0x70 0 a b 0)
  | .ptbindNaper a b => some (slot 0 0x70 0 a b 0)
  | .ptbindPeer a b => some (slot 0 0x70 0 a b 0)
  | .ptbindKport a b => some (slot 0 0x70 0 a b 0)
  | .ptbindRwin a b => some (slot 0 0x70 0 a b 0)
  | .ptbindIntr a b => some (slot 0 0x70 0 a b 0)
  | .ptbindInj a b => some (slot 0 0x70 0 a b 0)
  | .ptquotaSlice a b => some (slot 0 0x71 0 a b 0)
  | .ptquotaPrio a b => some (slot 0 0x71 0 a b 0)
  | .ptquotaRate a b => some (slot 0 0x71 0 a b 0)
  | .ptquotaActiveq a b => some (slot 0 0x71 0 a b 0)
  | .ptsealSeal a => some (slot 0 0x72 0 a 0 0)
  | .ptsealStop a => some (slot 0 0x72 0 a 0 0)
  | .ptsealFree a => some (slot 0 0x72 0 a 0 0)
  | .la a imm sz sp => some (slotI 1 (memOp 0x00 sp sz) 63 a imm)
  | .lav a imm sz sp => some (slotI 1 (memOp 0x04 sp sz) 63 a imm)
  | .sa a imm sz sp => some (slotI 1 (memOp 0x10 sp sz) 0 a imm)
  | .sav a imm sz sp => some (slotI 1 (memOp 0x14 sp sz) 0 a imm)
  | .laxIndex a b sz sp => some (slot 1 (bit sp 0x20) 63 a b sz)
  | .laxIncrement a b sz sp => some (slot 1 (bit sp 0x22) 63 a b sz)
  | .saxIndex a b sz sp => some (slot 1 (bit sp 0x24) 0 a b sz)
  | .saxIncrement a b sz sp => some (slot 1 (bit sp 0x26) 0 a b sz)
  | .lavStrided a b es sp => some (slot 1 (bit sp 0x28) 63 a b (es.setWidth 3))
  | .savStrided a b es sp => some (slot 1 (bit sp 0x2A) 0 a b (es.setWidth 3))
  | .lagv a b es sp => some (slot 1 (bit sp 0x2C) 63 a b (es.setWidth 3))
  | .sasv a b es sp => some (slot 1 (bit sp 0x2E) 0 a b (es.setWidth 3))
  | .pref a imm => some (slotI 1 0x30 0 a imm)
  | .amoAdd a b eight sp => some (slot 1 (amoOp 0x38 eight sp) 63 a b 0)
  | .amoAnd a b eight sp => some (slot 1 (amoOp 0x38 eight sp) 63 a b 1)
  | .amoOr a b eight sp => some (slot 1 (amoOp 0x38 eight sp) 63 a b 2)
  | .amoXor a b eight sp => some (slot 1 (amoOp 0x38 eight sp) 63 a b 3)
  | .amoSwap a b eight sp => some (slot 1 (amoOp 0x38 eight sp) 63 a b 4)
  | .amoSmin a b eight sp => some (slot 1 (amoOp 0x38 eight sp) 63 a b 5)
  | .amoSmax a b eight sp => some (slot 1 (amoOp 0x38 eight sp) 63 a b 6)
  | .amoUmin a b eight sp => some (slot 1 (amoOp 0x38 eight sp) 63 a b 7)
  | .amoUmax a b eight sp => some (slot 1 (amoOp 0x3C eight sp) 63 a b 0)
  | .amoFadd a b sp => some (slot 1 (bit sp 0x3C) 63 a b 1)
  | .cas a b eight sp => some (slot 1 (amoOp 0x40 eight sp) 63 a b 0)
  | .laLand a b sz sp => some (slot 1 (bit sp 0x44) 63 a b (sz.setWidth 3))
  | .lavLand a b sz sp => some (slot 1 (bit sp 0x44) 63 a b (4 + sz.setWidth 3))
  | .vadd d a b t => some (slot 2 0x00 d a b (vtyCode t))
  | .vaddMasked d k b t => some (slot 2 0x01 d (k.setWidth 6) b (vtyCode t))
  | .vsub d a b t => some (slot 2 0x02 d a b (vtyCode t))
  | .vsubMasked d k b t => some (slot 2 0x03 d (k.setWidth 6) b (vtyCode t))
  | .vmul d a b t => some (slot 2 0x04 d a b (vtyCode t))
  | .vmulMasked d k b t => some (slot 2 0x05 d (k.setWidth 6) b (vtyCode t))
  | .vmulh d a b t => some (slot 2 0x06 d a b (vtyCode t))
  | .vmulhMasked d k b t => some (slot 2 0x07 d (k.setWidth 6) b (vtyCode t))
  | .vmin d a b t => some (slot 2 0x08 d a b (vtyCode t))
  | .vminMasked d k b t => some (slot 2 0x09 d (k.setWidth 6) b (vtyCode t))
  | .vmax d a b t => some (slot 2 0x0A d a b (vtyCode t))
  | .vmaxMasked d k b t => some (slot 2 0x0B d (k.setWidth 6) b (vtyCode t))
  | .vand d a b => some (slot 2 0x0C d a b 0)
  | .vandMasked d k b => some (slot 2 0x0D d (k.setWidth 6) b 0)
  | .vor d a b => some (slot 2 0x0E d a b 0)
  | .vorMasked d k b => some (slot 2 0x0F d (k.setWidth 6) b 0)
  | .vxor d a b => some (slot 2 0x10 d a b 0)
  | .vxorMasked d k b => some (slot 2 0x11 d (k.setWidth 6) b 0)
  | .vshl d a b t => some (slot 2 0x12 d a b (vtyCode t))
  | .vshlMasked d k b t => some (slot 2 0x13 d (k.setWidth 6) b (vtyCode t))
  | .vshr d a b t => some (slot 2 0x14 d a b (vtyCode t))
  | .vshrMasked d k b t => some (slot 2 0x15 d (k.setWidth 6) b (vtyCode t))
  | .vsha d a b t => some (slot 2 0x16 d a b (vtyCode t))
  | .vshaMasked d k b t => some (slot 2 0x17 d (k.setWidth 6) b (vtyCode t))
  | .vperm d a b t => some (slot 2 0x18 d a b (vtyCode t))
  | .vpermMasked d k b t => some (slot 2 0x19 d (k.setWidth 6) b (vtyCode t))
  | .vpack d a b t => some (slot 2 0x1A d a b (ntyCode t))
  | .vpackMasked d k b t => some (slot 2 0x1B d (k.setWidth 6) b (ntyCode t))
  | .vabs d a k t => some (slot 2 0x20 d a (k.setWidth 6) (vtyCode t))
  | .vneg d a k t => some (slot 2 0x21 d a (k.setWidth 6) (vtyCode t))
  | .vnot d a k => some (slot 2 0x22 d a (k.setWidth 6) 0)
  | .vrcp d a k t => some (slot 2 0x23 d a (k.setWidth 6) (vtyCode t))
  | .vrsq d a k t => some (slot 2 0x24 d a (k.setWidth 6) (vtyCode t))
  | .vexp2 d a k t => some (slot 2 0x25 d a (k.setWidth 6) (vtyCode t))
  | .vlog2 d a k t => some (slot 2 0x26 d a (k.setWidth 6) (vtyCode t))
  | .vredSum d a k t => some (slot 2 0x27 d a (k.setWidth 6) (vtyCode t))
  | .vredMax d a k t => some (slot 2 0x28 d a (k.setWidth 6) (vtyCode t))
  | .vredMin d a k t => some (slot 2 0x29 d a (k.setWidth 6) (vtyCode t))
  | .vscan d a k t => some (slot 2 0x2A d a (k.setWidth 6) (vtyCode t))
  | .vmov d a k => some (slot 2 0x2B d a (k.setWidth 6) 0)
  | .vsat d a k t => some (slot 2 0x2C d a (k.setWidth 6) (ntyCode t))
  | .vunpkLo d a k t => some (slot 2 0x2D d a (k.setWidth 6) (ntyCode t))
  | .vunpkHi d a k t => some (slot 2 0x2E d a (k.setWidth 6) (ntyCode t))
  | .vbcast d a k t => some (slot 2 0x2F d a (k.setWidth 6) (vtyCode t))
  | .vfmaF32 d a b k => some (slot 2 (bit (k.getLsbD 3) 0x30) d a b (k.setWidth 3))
  | .vfmaF16 d a b k => some (slot 2 (bit (k.getLsbD 3) 0x32) d a b (k.setWidth 3))
  | .vfmaB16 d a b k => some (slot 2 (bit (k.getLsbD 3) 0x34) d a b (k.setWidth 3))
  | .vfmsF32 d a b k => some (slot 2 (bit (k.getLsbD 3) 0x36) d a b (k.setWidth 3))
  | .vfmsF16 d a b k => some (slot 2 (bit (k.getLsbD 3) 0x38) d a b (k.setWidth 3))
  | .vfmsB16 d a b k => some (slot 2 (bit (k.getLsbD 3) 0x3A) d a b (k.setWidth 3))
  | .vfnmaF32 d a b k => some (slot 2 (bit (k.getLsbD 3) 0x3C) d a b (k.setWidth 3))
  | .vfnmaF16 d a b k => some (slot 2 (bit (k.getLsbD 3) 0x3E) d a b (k.setWidth 3))
  | .vfnmaB16 d a b k => some (slot 2 (bit (k.getLsbD 3) 0x40) d a b (k.setWidth 3))
  | .vdot4I8 d a b k => some (slot 2 (bit (k.getLsbD 3) 0x42) d a b (k.setWidth 3))
  | .vdot4W8 d a b k => some (slot 2 (bit (k.getLsbD 3) 0x44) d a b (k.setWidth 3))
  | .vsel d a b k => some (slot 2 (bit (k.getLsbD 3) 0x46) d a b (k.setWidth 3))
  | .vcmpEq d a b t => some (slot 2 0x48 (d.setWidth 6) a b (vtyCode t))
  | .vcmpNe d a b t => some (slot 2 0x49 (d.setWidth 6) a b (vtyCode t))
  | .vcmpLt d a b t => some (slot 2 0x4A (d.setWidth 6) a b (vtyCode t))
  | .vcmpLe d a b t => some (slot 2 0x4B (d.setWidth 6) a b (vtyCode t))
  | .vcvt d a sel r => some (slot 2 0x4C d a sel (roundCode r))
  | .vshuf d a kind p => some (slotI 2 0x4D d a (kind ++ p))
  | .vins d a b t => some (slot 2 0x4E d a b (vtyCode t))
  | .vext d a b t => some (slot 2 0x4F d a b (vtyCode t))
  | .vmovi d imm => some (slotL 2 0x50 d imm)
  | .kand d a b => some (slot 2 0x58 (d.setWidth 6) (a.setWidth 6) (b.setWidth 6) 0)
  | .kor d a b => some (slot 2 0x59 (d.setWidth 6) (a.setWidth 6) (b.setWidth 6) 0)
  | .knot d a => some (slot 2 0x5A (d.setWidth 6) (a.setWidth 6) 0 0)
  | .kpop d a => some (slot 2 0x5B d (a.setWidth 6) 0 0)
  | .vacr d a u => some (slotI 2 0x60 d (a.setWidth 6) (u.setWidth 9))
  | .vacrRow d a i => some (slotI 2 0x60 d (a.setWidth 6) (0x100 + i.setWidth 9))
  | .vacw d a u => some (slotI 2 0x61 (d.setWidth 6) a (u.setWidth 9))
  | .vacwRow d a i => some (slotI 2 0x61 (d.setWidth 6) a (0x100 + i.setWidth 9))
  | .vqpop d a => some (slot 2 0x62 d (a.setWidth 6) 0 0)
  | .mma d a b => some (slot 3 0x00 (d.setWidth 6) a b 0)
  | .mchk d a b => some (slot 3 0x04 (d.setWidth 6) a b 0)
  | .mmas d a b => some (slot 3 0x01 (d.setWidth 6) a b 0)
  | .mzero d => some (slot 3 0x02 (d.setWidth 6) 0 0 0)
  | .mdrn d a => some (slot 3 0x03 (d.setWidth 6) (a.setWidth 6) 0 0)
  | .mwait => some (slot 3 0x05 0 0 0 0)
  | .mstat d => some (slot 3 0x06 d 0 0 0)
  | .cpy a b m => some (slot 4 0x00 0 a b (feCode m))
  | .cpyn a b m => some (slot 4 0x01 0 a b (feCode m))
  | .cpyp a b m => some (slot 4 0x02 0 a b (feCode m))
  | .cpym a b m => some (slot 4 0x03 0 a b (feCode m))
  | .cpyg a b m => some (slot 4 0x04 0 a b (feCode m))
  | .cpyq a b m => some (slot 4 0x05 0 (a.setWidth 6) b (feCode m))
  | .rngset a b => some (slot 4 0x08 0 a b 0)
  | .rngadvRelease a b => some (slot 4 0x09 0 a b 0)
  | .rngadvCommit a b => some (slot 4 0x09 0 a b 0)
  | .barinit a b => some (slot 4 0x0C 0 a b 0)
  | .barexp a b => some (slot 4 0x0D 0 a b 0)
  | .tfetch a b => some (slot 4 0x10 0 a b 0)
  | .lnkSendPut a b => some (slot 4 0x20 0 a b 0)
  | .lnkSendGet a b => some (slot 4 0x20 0 a b 0)
  | .lnkSendAtomic a b => some (slot 4 0x20 0 a b 0)
  | .lnkSendMessage a b => some (slot 4 0x20 0 a b 0)
  | .lnkRecv a b => some (slot 4 0x21 0 a b 0)
  | .lnkRadd a b => some (slot 4 0x22 0 a b 0)
  | .lnkRed a b => some (slot 4 0x23 0 a b 0)
  | .netPost a b => some (slot 4 0x30 0 a b 0)
  | .netArm a b => some (slot 4 0x31 0 a b 0)
  | .netCqr d a => some (slot 4 0x32 d a 0 0)
  | _ => none

end Sys2Proof
end

