-- ==== Sys2Proof/Machine/Control.lean ====
section
/-!
DEFINITION. Control transfer, hardware loops, IDLE, the trap instructions and RFT (R80 to R88, R92, R93). A transfer sets
`next`, the address that the bundle selects; `step` goes there once the bundle has committed.
-/

namespace Sys2Proof.Machine

/-- A valid target: a multiple of 4 below 2^57 (R80). -/
def validTarget (t : Word) : Bool := decide (t.toNat % 4 = 0) && decide (t.toNat < 2 ^ 57)

/-- The sequential address: the bundle address plus 4 for each slot (R80). -/
def State.sequential (s : State) : Word := s.core.pc + BitVec.ofNat 64 (4 * s.core.curLen)

/-- Transfer control, or take BAD_TARGET (R80). -/
def transfer (t : Word) (s : State) (k : State → Outcome) : Outcome :=
  if validTarget t then k { s with core := { s.core with next := t } } else trap 0x006 t 0 s

/-- Target of an offset in slots (R40, R81). -/
def State.target (s : State) (off : Word) : Word := s.core.pc + 4 * off

/-- BR (R81). -/
def execBr (off : BitVec 21) (s : State) : Outcome := transfer (s.target (sext21 off)) s done
/-- CALL writes the sequential address to g62 (R81). -/
def execCall (off : BitVec 21) (s : State) : Outcome :=
  transfer (s.target (sext21 off)) s fun s => done { s with core := s.core.writeG 62 s.sequential }
/-- BRC.z (R81); the target is checked only when the transfer is taken (R80). -/
def execBrcZ (d : GReg) (off : BitVec 15) (s : State) : Outcome :=
  getG d s fun x s => if x = 0 then transfer (s.target (sext15 off)) s done else done s
/-- BRC.nz (R81). -/
def execBrcNz (d : GReg) (off : BitVec 15) (s : State) : Outcome :=
  getG d s fun x s => if x ≠ 0 then transfer (s.target (sext15 off)) s done else done s
/-- JMP (R81). -/
def execJmp (a : GReg) (s : State) : Outcome := getG a s fun x s => transfer x s done
/-- RET (R81). -/
def execRet (s : State) : Outcome := transfer (s.core.gVal 62) s done

/-! ### Loops (R83 to R85) -/

/-- Set a level up; a zero count leaves it inactive, any other makes it the most recent (R83, R84). -/
def Loops.setUp (l : Loops) (n : LoopLevel) (count ls le : Word) : Loops :=
  { lc := l.lc.set n.toNat count n.isLt, ls := l.ls.set n.toNat ls n.isLt, le := l.le.set n.toNat le n.isLt,
    order := (if count = 0 then [] else [n]) ++ l.order.filter (· ≠ n) }

/-- Bytes of a bundle whose slots start at a virtual address: the four bytes of slot i, translated for fetch (R42, R219). -/
def fetchSlot (s : State) (va : Nat) : Except (Nat × Nat) SlotWord :=
  if 2 ^ 57 < va + 4 then .error (0x010, va)
  else match s.translate va false false true with
    | .error c => .error (c, va)
    | .ok pa =>
      if s.mem.poisoned pa then .error (0x01A, va)
      else .ok (BitVec.ofNat 32 (leNat (s.mem.read pa 4)))

/-- Slots of the bundle at a virtual address, at most n, up to the first E bit; the flag says that an E bit was found (R42).
A slot that cannot be fetched gives its cause and address (R219). -/
def frame (s : State) : Nat → Nat → Except (Nat × Nat) (List SlotWord × Bool)
  | _, 0 => .ok ([], false)
  | va, n + 1 =>
    match fetchSlot s va with
    | .error e => .error e
    | .ok w =>
      if w.getLsbD 31 then .ok ([w], true)
      else match frame s (va + 4) n with
        | .error e => .error e
        | .ok (l, b) => .ok (w :: l, b)

/-- The tiles of a bundle's slots, at most n from a virtual address on, come into the last-level cache as they are fetched (R218). Log 67, DEDUCED. -/
def fetchTouch : Nat → Nat → State → State
  | 0, _, s => s
  | n + 1, va, s =>
    match s.translate va false false true with
    | .error _ => s
    | .ok pa =>
      let s := s.touchRange pa 4
      if s.mem.poisoned pa || (s.mem.word (pa / 8 * 8)).getLsbD (8 * (pa % 8) + 31) then s else fetchTouch n (va + 4) s

/-- Skip a loop with a zero count: go on behind the bundle at the end address, framed only for its length. Where that bundle cannot be framed or
fetched the core goes to it, and takes there the trap it takes on reaching it (R84). Log 69, DEDUCED. -/
def skipLoop (n : LoopLevel) (s : State) : State :=
  let le := s.core.loops.le.get ⟨n.toNat, n.isLt⟩
  let s := fetchTouch 8 le.toNat s
  let next := match frame s le.toNat 8 with
    | .ok (l, true) => le + BitVec.ofNat 64 (4 * l.length)
    | _ => le
  { s with core := { s.core with next := next } }

/-- Set up a level from the LOOP bundle (R83, R84). -/
def setUpLoop (n : LoopLevel) (count : Word) (dist : Nat) (s : State) : Outcome :=
  let le := s.core.pc + BitVec.ofNat 64 (4 * dist)
  let s := { s with core := { s.core with loops := s.core.loops.setUp n count s.sequential le } }
  done (if count = 0 then skipLoop n s else s)

/-- LOOP (R83). -/
def execLoop (n : LoopLevel) (a : GReg) (dist : BitVec 9) (s : State) : Outcome :=
  getG a s fun x s => setUpLoop n x dist.toNat s
/-- LOOPI (R83). -/
def execLoopi (n : LoopLevel) (count : BitVec 8) (dist : BitVec 7) (s : State) : Outcome :=
  setUpLoop n (count.setWidth 64) dist.toNat s

/-- The loop-end test over the levels that end at address a, most recent first (R85). -/
def loopEnd (a : Word) : List LoopLevel → Loops → Word → Loops × Word
  | [], l, next => (l, next)
  | n :: r, l, next =>
    if l.le.get ⟨n.toNat, n.isLt⟩ = a then
      let lc := l.lc.get ⟨n.toNat, n.isLt⟩ - 1
      let l' := { l with lc := l.lc.set n.toNat lc n.isLt }
      if lc ≠ 0 then (l', l.ls.get ⟨n.toNat, n.isLt⟩)
      else loopEnd a r { l' with order := l'.order.filter (· ≠ n) } next
    else loopEnd a r l next

/-- Some active level ends at address a (R86). -/
def Loops.endsAt (l : Loops) (a : Word) : Bool := l.order.any fun n => l.le.get ⟨n.toNat, n.isLt⟩ == a

/-! ### IDLE, traps, return -/

/-- A pre-emption request is outstanding, the hypervisor's or a slice's, or a scan controller's (R326, R350). -/
def Region.asked (r : Region) : Bool := !r.scanReq.isEmpty || (match r.state with | .requested _ => true | _ => false)

/-- A wake event is pending: an interrupt or trap, a watch report, a pre-emption request (R88). Log 16, DEDUCED. -/
def State.wakePending (s : State) : Bool :=
  !s.core.irqs.isEmpty || !s.core.held.isEmpty || s.core.pend.isSome || (s.core.watches.toList.any fun w => decide (w.reason ≠ 0))
    || s.myRegion.any Region.asked

/-- IDLE: the bundle commits and the core stops issuing until a wake event, unless one is pending (R88). Log 16, DEDUCED. -/
def execIdle (s : State) : Outcome :=
  if s.wakePending then done s else done { s with core := { s.core with run := .idle s.core.pc } }

/-- Leave a committed trap pending: it enters once the engines have drained, with its own next address (R53, R92). -/
def pendTrap (t : Trap) (s : State) : State := { s with core := { s.core with pend := some { t with committed := true } } }

/-- TRAP and SYSC: the bundle commits, the loop-end test runs, then the trap enters with TPC and TNPC at the next bundle,
which `step` fills in (R92, R314). Log 11, DEDUCED. -/
def softTrap (code : Nat) (v : BitVec 15) (s : State) : Outcome :=
  done (pendTrap { s.preciseTrap code (v.setWidth 64) s.core.pc with tmask := 0 } s)

/-- TRAP (R92). -/
def execTrap (code : BitVec 15) (s : State) : Outcome := softTrap 0x00B code s
/-- SYSC (R92). -/
def execSysc (code : BitVec 15) (s : State) : Outcome := softTrap 0x00C code s
/-- BRK: nothing of the bundle commits (R92). -/
def execBrk (code : BitVec 15) (s : State) : Outcome := trap 0x00D (code.setWidth 64) 0 s
/-- RFT: it waits for every engine, and for imprecise traps raised meanwhile (R93, R318). -/
def execRft (s : State) : Outcome :=
  if 2 < s.core.level.toNat then trap 0x003 0 0 s
  else if !s.core.drained || !s.core.held.isEmpty then stall s else returnFromTrap s

end Sys2Proof.Machine
end

