-- ==== Sys2Proof/Machine/Special.lean ====
section
/-!
DEFINITION. The special registers: which numbers are defined, who may read and write each, what a read gives and what a
write does (R32 to R36, R89 to R91, R119, R123, R144, R176, R206, R210, R211, R220, R223, R227, R260, R307 to R312, R319,
R427, R428). The rows that launch a region or act on one stand in their own files.
-/

namespace Sys2Proof.Machine

/-! ### Which registers there are (R32, R90) -/

/-- A number that its chapter defines for this core (R32, R33 to R36, R119, R123, R144, R176, R209, R220, R260, R307, R427). -/
def srDefined (s : State) (n : Nat) : Bool :=
  decide (n ≤ 4)
    || decide (0x040 ≤ n ∧ n ≤ 0x049) || decide (n = 0x050) || decide (n = 0x051)
    || decide (0x060 ≤ n ∧ n ≤ 0x069) || decide (0x070 ≤ n ∧ n ≤ 0x07C)
    || decide (n = 0x080) || decide (n = 0x081)
    || decide (n = 0x100) || decide (0x110 ≤ n ∧ n ≤ 0x112) || decide (0x118 ≤ n ∧ n ≤ 0x11F)
    || decide (0x180 ≤ n ∧ n ≤ 0x187) || (decide (0x1C0 ≤ n ∧ n ≤ 0x1C7) && s.core.cond)
    || decide (0x200 ≤ n ∧ n ≤ 0x20A) || decide (0x300 ≤ n ∧ n ≤ 0x30B)
    || (decide (0x800 ≤ n ∧ n < 0x980) && decide ((n - 0x800) * 0x400 < s.spadSize))

/-- The least privileged level that may use a register (R37, R307, R311, R319, R123, R427). -/
def srLevel (n : Nat) : Nat :=
  if (0x040 ≤ n ∧ n ≤ 0x051) ∨ (0x070 ≤ n ∧ n ≤ 0x07C) ∨ n = 0x081 then 2
  else if (0x060 ≤ n ∧ n ≤ 0x069) ∨ n = 0x309 ∨ n = 0x30A ∨ n = 0x30B then 1
  else 3

/-- The least privileged level that may write some field of a register; none where no field is writable. -/
def srWriteLevel (n : Nat) : Option Nat :=
  if (0x040 ≤ n ∧ n ≤ 0x050) ∨ (0x070 ≤ n ∧ n ≤ 0x07C) ∨ n = 0x080 ∨ n = 0x081 then some 2
  else if n = 0x051 ∨ (0x060 ≤ n ∧ n ≤ 0x069) then some 1
  else if n = 0x100 ∨ n = 0x110 then some 3
  else if n = 0x181 then some 1
  else if n = 0x184 ∨ n = 0x185 then some 2
  else if n = 0x187 then some 3
  else if 0x1C0 ≤ n ∧ n ≤ 0x1C7 then some 0
  else if n = 0x204 ∨ n = 0x208 ∨ n = 0x209 ∨ n = 0x20A then some 1
  else if (0x200 ≤ n ∧ n ≤ 0x203) ∨ n = 0x205 ∨ n = 0x206 then some 2
  else if n = 0x304 ∨ n = 0x30A ∨ n = 0x30B then some 1
  else if 0x800 ≤ n ∧ n < 0x980 then some 3
  else none

/-- The checks of R90 before the register's own rule: the cause of the first that fails. -/
def srCheck (s : State) (n : Nat) (wr : Bool) : Option Nat :=
  if !srDefined s n then some 0x008
  else if srLevel n < s.core.level.toNat then some 0x003
  else if wr then
    match srWriteLevel n with
    | none => some 0x009
    | some l => if l < s.core.level.toNat then some 0x009 else none
  else none

/-- A register of 0x100 to 0x17F waits for every earlier vector and matrix slot (R91). -/
def statusWaits (s : State) (n : Nat) : Bool :=
  decide (0x100 ≤ n ∧ n ≤ 0x17F) && !(s.core.veq.isEmpty && s.core.meq.isEmpty)

/-- A context register waits until every earlier global access of the core has been performed (R220). -/
def contextWaits (s : State) : Bool := s.core.laq.any fun e => !e.sp

/-! ### Reads -/

/-- QSTAT (R35). -/
def qstat (c : Core) : Word :=
  BitVec.ofNat 64 (c.laq.length + c.sldq.length * 2 ^ 6 + c.vldq.length * 2 ^ 12 + c.ssdq.length * 2 ^ 17
    + c.vsdq.length * 2 ^ 23 + c.veq.length * 2 ^ 28 + c.meq.length * 2 ^ 33 + c.ceq.length * 2 ^ 37)

/-- CID (R33). -/
def cid (c : Core) : Word :=
  BitVec.ofNat 64 (c.die * 2 ^ 29 + c.phys * 2 ^ 8 + (if c.spare then 2 ^ 7 else 0) + c.lcore)

/-- One of the ten registers of a trap bank (R307, R308). -/
def TrapBank.get (b : TrapBank) (i : Nat) : Word :=
  match i with
  | 0 => b.tcause
  | 1 => b.tpc
  | 2 => b.tmask
  | 3 => b.tval
  | 4 => b.tval2
  | 5 => b.tinfo
  | 6 => b.tnpc
  | 7 => b.tstate
  | 8 => b.tvec
  | _ => b.tscr

/-- One of the thirteen registers of the loop shadow (R312). -/
def TrapBank.getShadow (b : TrapBank) (i : Nat) : Word :=
  if i < 4 then b.lshlc.toList.getD i 0
  else if i < 8 then b.lshls.toList.getD (i - 4) 0
  else if i < 12 then b.lshle.toList.getD (i - 8) 0
  else b.lshord

/-- OP of an M slot (R67). -/
def mOp : Instr → Nat
  | .mma _ _ _ => 0
  | .mmas _ _ _ => 1
  | .mzero _ => 2
  | .mdrn _ _ => 3
  | .mchk _ _ _ => 4
  | .mwait => 5
  | _ => 6

/-- MXSTAT: the sticky bits and HEAD, which is 0xF after reset too, the queue being empty (R260). Log 84, DESIGN CHOICE. -/
def mxstatOf (c : Core) (queue : List QSlot) : Word :=
  BitVec.ofNat 64 (c.mxstat.toNat % 16 + (match queue with | [] => 15 | q :: _ => mOp q.instr) * 2 ^ 16)

/-- RQCNT (R260). -/
def rqcnt (c : Core) : Word := BitVec.ofNat 64 (c.rq.toList.foldr (fun q n => q.length + 64 * n) 0)

/-- KEYSTAT of the core's tenant (R220). -/
def keystat (s : State) : Word :=
  let k := (assocGet s.keys (fld s.core.keysel 0 10)).getD {}
  bitAt k.rot 1 ||| bitAt k.epoch 0

/-- The value of a defined register (R33 to R36, R119, R123, R144, R176, R210, R220, R260, R307 to R312, R319, R427). -/
def srRead (s : State) (n : Nat) : Word :=
  let c := s.core
  match n with
  | 0x000 => cid c
  | 0x001 => c.level.setWidth 64
  | 0x002 => qstat c
  | 0x003 => word s.pktime
  | 0x004 => if s.podGood then word s.podtime else 0
  | 0x050 => (s.asidOf c.asid).frqs.reg
  | 0x051 => (s.part c.part).frqh.reg
  | 0x080 => c.febudget
  | 0x081 => c.masplit
  | 0x100 => c.vstat
  | 0x110 => mxstatOf c c.meq
  | 0x111 => BitVec.ofNat 64 (c.accSat.toNat + c.accPois.toNat * 2 ^ 16)
  | 0x112 => rqcnt c
  | 0x180 => c.stepclk
  | 0x181 => c.dlreg
  | 0x182 => c.stepno
  | 0x183 => c.taskid
  | 0x184 => c.pkbase
  | 0x185 => c.sgbase
  | 0x186 => BitVec.ofNat 64 (fld c.frozen 0 32 * 2 ^ 32 + c.landBuf.length)
  | 0x187 => 0
  | 0x200 => c.heapbase
  | 0x201 => c.heaplim
  | 0x202 => c.heapoff
  | 0x203 => c.ptroot
  | 0x204 => BitVec.ofNat 64 ((s.asidOf c.asid).gen % 2 ^ 32 * 2 ^ 32 + c.asid % 1024)
  | 0x205 => 0
  | 0x206 => c.pfqbase
  | 0x207 => keystat s
  | 0x208 => c.s2root
  | 0x209 => c.keysel
  | 0x20A => 0
  | 0x300 => s.feat0.setWidth 64
  | 0x304 => s.featack.setWidth 64
  | 0x308 => word c.part
  | 0x309 => word c.ptres
  | 0x30A => c.rgnsel
  | 0x30B => 0
  | n =>
    if 0x040 ≤ n ∧ n ≤ 0x049 then (c.bank c.level.toNat).get (n - 0x040)
    else if 0x060 ≤ n ∧ n ≤ 0x069 then (c.bank (c.level.toNat + 1)).get (n - 0x060)
    else if 0x070 ≤ n ∧ n ≤ 0x07C then (c.bank c.level.toNat).getShadow (n - 0x070)
    else if 0x118 ≤ n ∧ n ≤ 0x11F then (c.rqhdr.toList.getD (n - 0x118) 0).setWidth 64
    else if 0x1C0 ≤ n ∧ n ≤ 0x1C7 then c.skew.toList.getD (n - 0x1C0) 0
    else if 0x800 ≤ n ∧ n < 0x980 then c.bf.toList.getD (n - 0x800) 0
    else 0

/-! ### Writes -/

/-- Writable bits of the registers of a trap bank (R307 to R310). -/
def bankBits (i : Nat) : Word :=
  match i with
  | 0 => 0x3FFF
  | 1 => 0x1FFFFFFFFFFFFFF
  | 2 => 0xFF
  | 5 => 0xFFFFFFFFFFFFC000
  | 6 => 0x1FFFFFFFFFFFFFC
  | 7 => 0x7
  | 8 => 0x1FFFFFFFFFFFFC0
  | _ => BitVec.allOnes 64

/-- Write one of the ten registers of a trap bank; reserved bits are ignored (R8, R307). -/
def TrapBank.put (b : TrapBank) (i : Nat) (w : Word) : TrapBank :=
  let w := w &&& bankBits i
  match i with
  | 0 => { b with tcause := w }
  | 1 => { b with tpc := w }
  | 2 => { b with tmask := w }
  | 3 => { b with tval := w }
  | 4 => { b with tval2 := w }
  | 5 => { b with tinfo := w }
  | 6 => { b with tnpc := w }
  | 7 => { b with tstate := w }
  | 8 => { b with tvec := w }
  | _ => { b with tscr := w }

/-- Write a register of the loop shadow (R312). -/
def TrapBank.putShadow (b : TrapBank) (i : Nat) (w : Word) : TrapBank :=
  if i < 4 then { b with lshlc := b.lshlc.setIfInBounds i w }
  else if i < 8 then { b with lshls := b.lshls.setIfInBounds (i - 4) w }
  else if i < 12 then { b with lshle := b.lshle.setIfInBounds (i - 8) w }
  else { b with lshord := w &&& 0x7FF }

/-- The bits of a register that are not reserved, for the registers that a save area brings back (R8, R119, R123, R144, R176, R211, R220, R334). -/
def regBits (n : Nat) : Word :=
  match n with
  | 0x080 => 0xFFFFFFFF
  | 0x081 => 0xF
  | 0x100 => 0xFF03FB
  | 0x110 => 0xE
  | 0x182 => 0xFFFF
  | 0x183 => 0x7FFFF
  | 0x184 => 0x1FFFFFFFFFFF000
  | 0x185 => 0x1FFFFFFFFFFC000
  | 0x200 => 0x1FFFFFFFFFFF007
  | 0x201 => 0x1FFFFFFFFFFF000
  | 0x202 => 0xFFFFFFFFFFFFF000
  | 0x203 => 0xFFFFFFFFFF000
  | 0x206 => 0x1FFFFFFFFFFFFC0
  | 0x208 => 0xFFFFFFFFFF000
  | 0x209 => 0x3FF
  | 0x30A => 0x1FFFFFFFFFFFF3F
  | n => if 0x800 ≤ n ∧ n < 0x980 then 0xF03FF else if 0x1C0 ≤ n ∧ n ≤ 0x1C7 then 0xFFFF else BitVec.allOnes 64

/-- A plain WRSR writes the register's writable bits; it may refuse a value (R8, R127, R144, R176, R220). Log 40, DEDUCED. -/
def srWrite (s : State) (n : Nat) (w : Word) : Except Nat State :=
  let c := s.core
  let put (c : Core) : Except Nat State := .ok { s with core := c }
  let v := w &&& regBits n
  match n with
  | 0x080 => put { c with febudget := v }
  | 0x081 => put { c with masplit := v }
  | 0x100 => if (fmtOf (fld w 16 8)).isSome then put { c with vstat := v } else .error 0x00A
  | 0x110 => put { c with mxstat := v }
  | 0x181 => put { c with dlreg := v }
  | 0x184 => if fld w 0 12 = 0 then put { c with pkbase := v } else .error 0x009
  | 0x200 => put { c with heapbase := v }
  | 0x201 => put { c with heaplim := v }
  | 0x202 => put { c with heapoff := v }
  | 0x203 => put { c with ptroot := v }
  | 0x204 => put { c with asid := fld w 0 10 }
  | 0x206 => put { c with pfqbase := v }
  | 0x208 => put { c with s2root := v }
  | 0x209 => put { c with keysel := v }
  | 0x30A => put { c with rgnsel := v }
  | n =>
    if 0x040 ≤ n ∧ n ≤ 0x049 then put (c.putBank c.level.toNat ((c.bank c.level.toNat).put (n - 0x040) w))
    else if 0x060 ≤ n ∧ n ≤ 0x069 then put (c.putBank (c.level.toNat + 1) ((c.bank (c.level.toNat + 1)).put (n - 0x060) w))
    else if 0x070 ≤ n ∧ n ≤ 0x07C then put (c.putBank c.level.toNat ((c.bank c.level.toNat).putShadow (n - 0x070) w))
    else if 0x1C0 ≤ n ∧ n ≤ 0x1C7 then put { c with skew := c.skew.setIfInBounds (n - 0x1C0) v }
    else put c

/-- A precise trap of a special-register access, with the register number in TVAL (R90). -/
def srTrap (code n : Nat) (s : State) : Outcome := trap code (word n) 0 s

/-- The checks and waits common to every WRSR; then the register's own rule on the value written. -/
def writing (n : Nat) (d : GReg) (s : State) (k : Word → State → Outcome) : Outcome :=
  match srCheck s n true with
  | some code => srTrap code n s
  | none =>
    if statusWaits s n then stall s
    else if decide (0x200 ≤ n ∧ n ≤ 0x2FF) && contextWaits s then stall s
    else getG d s k

/-- RDSR (R89 to R91). -/
def execRdsr (d : GReg) (n : BitVec 12) (s : State) : Outcome :=
  match srCheck s n.toNat false with
  | some code => srTrap code n.toNat s
  | none => if statusWaits s n.toNat then stall s else setG d (srRead s n.toNat) s

/-- WRSR of a register without a row of its own (R89 to R91). -/
def execWrsr (d : GReg) (n : BitVec 12) (s : State) : Outcome :=
  writing n.toNat d s fun w s =>
    match srWrite s n.toNat w with
    | .ok s' => done s'
    | .error code => if code = 0x00A then trap code (word n.toNat) w s else srTrap code n.toNat s

/-! ### Rows of their own -/

/-- The bank format register may take this value (R211). -/
def bankFormatOk (w : Word) : Bool :=
  match fmtOf (fld w 0 8) with
  | none => false
  | some f =>
    let layout := fld w 8 2
    let plane := match f with
      | .int _ n => decide (n ≤ 8)
      | _ => true
    decide (layout ≠ 3) && !(decide (layout = 1) && decide (8 < f.bits)) && !(decide (layout = 2) && !plane)
      && !(decide (fld w 16 4 ≠ 0) && decide (layout ≠ 2))

/-- A mask of n bits from bytes of memory (R361). -/
def maskFrom (bs : List Byte) (w : Nat) : BitVec w := BitVec.ofNat w (leNat bs)

/-- The scope-group table read anew; an entry that cannot be read names no core (R192). Log 35, DEDUCED. -/
def readGroups (s : State) (base : Word) : List (BitVec 1024 × BitVec 2048) :=
  (List.range 32).map fun n =>
    match s.translate (base.toNat + 512 * n) true false false with
    | .error _ => (0, 0)
    | .ok pa => (maskFrom (s.mem.read pa 128) 1024, maskFrom (s.mem.read (pa + 128) 256) 2048)

/-- The scope-group table is read: its tiles come in (R192, R218). -/
def State.touchGroups (s : State) (base : Word) : State :=
  (List.range 32).foldl (fun (s : State) n =>
    match s.translate (base.toNat + 512 * n) true false false with
    | .error _ => s
    | .ok pa => s.touchRange pa 384) s

/-- WRSR of SGBASE: a misaligned base is refused; once every earlier fence has taken effect the core reads the table (R176, R192, R206). -/
def execSgbase (d : GReg) (s : State) : Outcome :=
  writing 0x185 d s fun w s =>
    if fld w 0 14 ≠ 0 then srTrap 0x009 0x185 s
    else if !(s.core.fences.all s.core.fenceDone) then stall s
    else
      let w := w &&& regBits 0x185
      let s := s.touchGroups w
      done { s with core := { s.core with sgbase := w, groups := readGroups s w } }

/-- A ring word as written: a new base or size restarts the writer (R319). -/
def FaultRing.set (r : FaultRing) (w : Word) : FaultRing :=
  let w := w &&& 0x1FFFFFFFFFFFFFF
  if fld w 12 45 = fld r.reg 12 45 ∧ fld w 0 4 = fld r.reg 0 4 then { r with reg := w } else { reg := w, pos := 0 }

/-- WRSR of FRQS: the supervisor ring of the core's address space (R319). -/
def execFrqs (d : GReg) (s : State) : Outcome :=
  writing 0x050 d s fun w s =>
    let a := s.asidOf s.core.asid
    done (s.putAsid s.core.asid { a with frqs := a.frqs.set w })

/-- WRSR of FRQH: the hypervisor ring of the core's partition (R319). -/
def execFrqh (d : GReg) (s : State) : Outcome :=
  writing 0x051 d s fun w s =>
    let p := s.part s.core.part
    done (s.putPart s.core.part { p with frqh := p.frqh.set w })

/-- WRSR of FEATACK0: once per package reset; ACK takes OFFER and the value (R427, R428). -/
def execFeatack0 (d : GReg) (s : State) : Outcome :=
  writing 0x304 d s fun w s =>
    if s.featSet then srTrap 0x009 0x304 s
    else done { s with featack := s.feat0 &&& w.setWidth 7, featSet := true }

/-- The cores that a raise of generation concerns, each with the identifier that its next access will take (R365). -/
def State.raiseMarks (s : State) (concerns : Core → Bool) : List (Nat × Nat) :=
  (s.allCores.filter concerns).map fun c => (c.id, c.nextId)

/-- The copy chunks of those cores that are on their way to memory (R365). -/
def State.raiseChunks (s : State) (concerns : Core → Bool) : List Nat :=
  (s.flights.filter fun f => !f.sp && decide (f.path = .copy) && concerns (s.coreAt f.src)).map (·.no)

/-- Every access that was translated before a raise has been performed (R365). -/
def raiseDone (s : State) (marks : List (Nat × Nat)) (chunks : List Nat) : Bool :=
  (marks.all fun m => !((s.coreAt m.1).laq.any fun e => !e.sp && decide (e.id < m.2))) && !(s.flights.any fun f => chunks.contains f.no)

/-- A raise of generation: it is made at once, and its WRSR commits when every access translated before it has been performed (R227, R365). -/
def raising (concerns : Core → Bool) (raise : State → State) (s : State) (k : State → Outcome) : Outcome :=
  match s.core.run with
  | .raising marks chunks => if raiseDone s marks chunks then k { s with core := { s.core with run := .running } } else waits s
  | _ =>
    let marks := s.raiseMarks concerns
    let chunks := s.raiseChunks concerns
    if raiseDone s marks chunks then k (raise s) else waits (raise { s with core := { s.core with run := .raising marks chunks } })

/-- WRSR of GENRAISE (R223, R365). Log 74, DEDUCED. -/
def execGenraise (d : GReg) (s : State) : Outcome :=
  writing 0x205 d s fun _ s =>
    let id := s.core.asid
    raising (fun c => decide (c.asid = id)) (fun s =>
      s.putAsid id { s.asidOf id with gen := ((s.asidOf id).gen + 1) % 2 ^ 32 }) s done

end Sys2Proof.Machine
end

