-- ==== Sys2Proof/Machine/Vector.lean ====
section
/-!
DEFINITION. The V slots of two sources, unmasked and masked (R147 to R150, R163, R167), and the fused and dot forms (R151,
R152).
-/

namespace Sys2Proof.Machine

/-! ### Element operations (R148 to R150) -/

/-- Apply an integer or a floating operation by type. -/
def byType (t : VTy) (onInt : Nat → Nat) (onFloat : Fmt → Nat × Conds) : Nat × Conds :=
  match t.fmt with
  | none => (onInt t.width, 0)
  | some f => onFloat f

/-- VADD. -/
def addE (mode : Nat) (t : VTy) (a b : Nat) : Nat × Conds :=
  byType t (fun w => (a + b) % 2 ^ w) fun f => addVal f mode (decodeVal f a) (decodeVal f b)
/-- VSUB. -/
def subE (mode : Nat) (t : VTy) (a b : Nat) : Nat × Conds :=
  byType t (fun w => (a + 2 ^ w - b % 2 ^ w) % 2 ^ w) fun f => addVal f mode (decodeVal f a) (decodeVal f b).neg
/-- VMUL. -/
def mulE (mode : Nat) (t : VTy) (a b : Nat) : Nat × Conds :=
  byType t (fun w => a * b % 2 ^ w) fun f => mulVal f mode (decodeVal f a) (decodeVal f b)
/-- VMULH: the upper half of the signed or unsigned product. -/
def mulhE (t : VTy) (a b : Nat) : Nat × Conds :=
  (intCode t.width (Int.fdiv (intElem t.signed t.width a * intElem t.signed t.width b) (2 ^ t.width : Nat)), 0)
/-- Whether the first of two elements is below the second, for VMIN and VMAX (R149). -/
def elemLt (t : VTy) (a b : Nat) : Bool :=
  match t.fmt with
  | none => decide (intElem t.signed t.width a < intElem t.signed t.width b)
  | some f => valLt true (decodeVal f a) (decodeVal f b)
/-- An element is a NaN of its type. -/
def elemNan (t : VTy) (a : Nat) : Bool :=
  match t.fmt with
  | none => false
  | some f => decide (decodeVal f a = .nan)
/-- VMIN or VMAX: a NaN operand gives the default NaN (R149). -/
def pickE (larger : Bool) (t : VTy) (a b : Nat) : Nat × Conds :=
  if elemNan t a || elemNan t b then ((t.fmt.getD .f32).layout.nanCode, 0)
  else (if larger then (if elemLt t a b then b else a) else (if elemLt t b a then b else a), 0)
/-- The shift amount (R150). -/
def shiftBy (t : VTy) (b : Nat) : Nat := b % t.width
/-- VSHL. -/
def shlE (t : VTy) (a b : Nat) : Nat × Conds := (a * 2 ^ shiftBy t b % 2 ^ t.width, 0)
/-- VSHR. -/
def shrE (t : VTy) (a b : Nat) : Nat × Conds := (a / 2 ^ shiftBy t b, 0)
/-- VSHA. -/
def shaE (t : VTy) (a b : Nat) : Nat × Conds :=
  (intCode t.width (Int.fdiv (intElem true t.width a) (2 ^ shiftBy t b : Nat)), 0)

/-- Element-wise result of two registers, with inactive elements taken from `old` (R142). -/
def zipElems (w : Nat) (k : MaskWord) (f : Nat → Nat → Nat × Conds) (a b old : VWord) : VWord × Conds :=
  lanes w fun j => if active k w j then f (elem a w j) (elem b w j) else (elem old w j, 0)

/-- VPERM over all elements (R163). -/
def permE (t : VTy) (a b : VWord) (j : Nat) : Nat := elem a t.width (elem b t.width j % (2048 / t.width))

/-- One element of VPACK (R167): the wider source element, clamped. -/
def packE (t : NTy) (a b : VWord) (j : Nat) : Nat × Conds :=
  let w := t.width
  let half := 2048 / w / 2
  let x := signedOf (2 * w) (if j < half then elem a (2 * w) j else elem b (2 * w) (j - half))
  let (lo, hi) := intRange t.signed w
  (intCode w (max lo (min hi x)), if lo ≤ x ∧ x ≤ hi then 0 else condSAT)

/-- First, second and third v source. -/
def src (vs : List VWord) (n : Nat) : VWord := vs.getD n 0

/-- An unmasked two-source slot (R147). -/
def two (i : Instr) (d a b : VReg) (s : State) (f : Core → VWord → VWord → VWord × Conds) : Outcome :=
  vslot i [a, b] [] s fun vs _ c => c.result d (f c (src vs 0) (src vs 1))

/-- A masked two-source slot: the first source is D, popped after B when it is v63 (R25, R66, R147). -/
def masked (i : Instr) (d : VReg) (k : KReg) (b : VReg) (s : State)
    (f : Core → MaskWord → VWord → VWord → VWord × Conds) : Outcome :=
  vslot i [b, d] [] s fun vs _ c => c.result d (f c (c.kVal k) (src vs 1) (src vs 0))

/-- VADD (R148). -/
def execVadd (d a b : VReg) (t : VTy) (s : State) : Outcome :=
  two (.vadd d a b t) d a b s fun c a b => zipElems t.width (BitVec.allOnes 256) (addE c.mode t) a b a
/-- VADD, masked (R142, R148). -/
def execVaddMasked (d : VReg) (k : KReg) (b : VReg) (t : VTy) (s : State) : Outcome :=
  masked (.vaddMasked d k b t) d k b s fun c m a b => zipElems t.width m (addE c.mode t) a b a
/-- VSUB (R148). -/
def execVsub (d a b : VReg) (t : VTy) (s : State) : Outcome :=
  two (.vsub d a b t) d a b s fun c a b => zipElems t.width (BitVec.allOnes 256) (subE c.mode t) a b a
/-- VSUB, masked (R142, R148). -/
def execVsubMasked (d : VReg) (k : KReg) (b : VReg) (t : VTy) (s : State) : Outcome :=
  masked (.vsubMasked d k b t) d k b s fun c m a b => zipElems t.width m (subE c.mode t) a b a
/-- VMUL (R148). -/
def execVmul (d a b : VReg) (t : VTy) (s : State) : Outcome :=
  two (.vmul d a b t) d a b s fun c a b => zipElems t.width (BitVec.allOnes 256) (mulE c.mode t) a b a
/-- VMUL, masked (R142, R148). -/
def execVmulMasked (d : VReg) (k : KReg) (b : VReg) (t : VTy) (s : State) : Outcome :=
  masked (.vmulMasked d k b t) d k b s fun c m a b => zipElems t.width m (mulE c.mode t) a b a
/-- VMULH (R148). -/
def execVmulh (d a b : VReg) (t : VTy) (s : State) : Outcome :=
  two (.vmulh d a b t) d a b s fun _ a b => zipElems t.width (BitVec.allOnes 256) (mulhE t) a b a
/-- VMULH, masked (R142, R148). -/
def execVmulhMasked (d : VReg) (k : KReg) (b : VReg) (t : VTy) (s : State) : Outcome :=
  masked (.vmulhMasked d k b t) d k b s fun _ m a b => zipElems t.width m (mulhE t) a b a
/-- VMIN (R149). -/
def execVmin (d a b : VReg) (t : VTy) (s : State) : Outcome :=
  two (.vmin d a b t) d a b s fun _ a b => zipElems t.width (BitVec.allOnes 256) (pickE false t) a b a
/-- VMIN, masked (R142, R149). -/
def execVminMasked (d : VReg) (k : KReg) (b : VReg) (t : VTy) (s : State) : Outcome :=
  masked (.vminMasked d k b t) d k b s fun _ m a b => zipElems t.width m (pickE false t) a b a
/-- VMAX (R149). -/
def execVmax (d a b : VReg) (t : VTy) (s : State) : Outcome :=
  two (.vmax d a b t) d a b s fun _ a b => zipElems t.width (BitVec.allOnes 256) (pickE true t) a b a
/-- VMAX, masked (R142, R149). -/
def execVmaxMasked (d : VReg) (k : KReg) (b : VReg) (t : VTy) (s : State) : Outcome :=
  masked (.vmaxMasked d k b t) d k b s fun _ m a b => zipElems t.width m (pickE true t) a b a
/-- VSHL (R150). -/
def execVshl (d a b : VReg) (t : VTy) (s : State) : Outcome :=
  two (.vshl d a b t) d a b s fun _ a b => zipElems t.width (BitVec.allOnes 256) (shlE t) a b a
/-- VSHL, masked (R142, R150). -/
def execVshlMasked (d : VReg) (k : KReg) (b : VReg) (t : VTy) (s : State) : Outcome :=
  masked (.vshlMasked d k b t) d k b s fun _ m a b => zipElems t.width m (shlE t) a b a
/-- VSHR (R150). -/
def execVshr (d a b : VReg) (t : VTy) (s : State) : Outcome :=
  two (.vshr d a b t) d a b s fun _ a b => zipElems t.width (BitVec.allOnes 256) (shrE t) a b a
/-- VSHR, masked (R142, R150). -/
def execVshrMasked (d : VReg) (k : KReg) (b : VReg) (t : VTy) (s : State) : Outcome :=
  masked (.vshrMasked d k b t) d k b s fun _ m a b => zipElems t.width m (shrE t) a b a
/-- VSHA (R150). -/
def execVsha (d a b : VReg) (t : VTy) (s : State) : Outcome :=
  two (.vsha d a b t) d a b s fun _ a b => zipElems t.width (BitVec.allOnes 256) (shaE t) a b a
/-- VSHA, masked (R142, R150). -/
def execVshaMasked (d : VReg) (k : KReg) (b : VReg) (t : VTy) (s : State) : Outcome :=
  masked (.vshaMasked d k b t) d k b s fun _ m a b => zipElems t.width m (shaE t) a b a
/-- VAND (R148). -/
def execVand (d a b : VReg) (s : State) : Outcome := two (.vand d a b) d a b s fun _ a b => (a &&& b, 0)
/-- VAND, masked by bytes (R140, R142). -/
def execVandMasked (d : VReg) (k : KReg) (b : VReg) (s : State) : Outcome :=
  masked (.vandMasked d k b) d k b s fun _ m a b => zipElems 8 m (fun x y => (x &&& y, 0)) a b a
/-- VOR (R148). -/
def execVor (d a b : VReg) (s : State) : Outcome := two (.vor d a b) d a b s fun _ a b => (a ||| b, 0)
/-- VOR, masked by bytes (R140, R142). -/
def execVorMasked (d : VReg) (k : KReg) (b : VReg) (s : State) : Outcome :=
  masked (.vorMasked d k b) d k b s fun _ m a b => zipElems 8 m (fun x y => (x ||| y, 0)) a b a
/-- VXOR (R148). -/
def execVxor (d a b : VReg) (s : State) : Outcome := two (.vxor d a b) d a b s fun _ a b => (a ^^^ b, 0)
/-- VXOR, masked by bytes (R140, R142). -/
def execVxorMasked (d : VReg) (k : KReg) (b : VReg) (s : State) : Outcome :=
  masked (.vxorMasked d k b) d k b s fun _ m a b => zipElems 8 m (fun x y => (x ^^^ y, 0)) a b a
/-- VPERM (R163). -/
def execVperm (d a b : VReg) (t : VTy) (s : State) : Outcome :=
  two (.vperm d a b t) d a b s fun _ a b => lanes t.width fun j => (permE t a b j, 0)
/-- VPERM, masked: it permutes D itself (R163). -/
def execVpermMasked (d : VReg) (k : KReg) (b : VReg) (t : VTy) (s : State) : Outcome :=
  masked (.vpermMasked d k b t) d k b s fun _ m a b =>
    lanes t.width fun j => (if active m t.width j then permE t a b j else elem a t.width j, 0)
/-- VPACK (R167). -/
def execVpack (d a b : VReg) (t : NTy) (s : State) : Outcome :=
  two (.vpack d a b t) d a b s fun _ a b => lanes t.width (packE t a b)
/-- VPACK, masked: masking applies per destination element (R167). -/
def execVpackMasked (d : VReg) (k : KReg) (b : VReg) (t : NTy) (s : State) : Outcome :=
  masked (.vpackMasked d k b t) d k b s fun _ m a b =>
    lanes t.width fun j => if active m t.width j then packE t a b j else (elem a t.width j, 0)

/-! ### Fused and dot forms (R151, R152) -/

/-- x * y + z, with the signs of the product and of the addend as the operation says. Log 18, DEDUCED. -/
def fmaE (f : Fmt) (mode : Nat) (negProduct negAddend : Bool) (a b d : Nat) : Nat × Conds :=
  let x := decodeVal f a
  let z := decodeVal f d
  fmaVal f mode (if negProduct then x.neg else x) (decodeVal f b) (if negAddend then z.neg else z)

/-- A fused slot: D is read and written; inactive elements keep D (R142, R151). -/
def fused (i : Instr) (f : Fmt) (np na : Bool) (d a b : VReg) (k : KReg) (s : State) : Outcome :=
  vslot i [a, b, d] [] s fun vs _ c =>
    c.result d (lanes f.bits fun j =>
      if active (c.kVal k) f.bits j then
        fmaE f c.mode np na (elem (src vs 0) f.bits j) (elem (src vs 1) f.bits j) (elem (src vs 2) f.bits j)
      else (elem (src vs 2) f.bits j, 0))

/-- VFMA.f32 (R151). -/
def execVfmaF32 (d a b : VReg) (k : KReg) (s : State) : Outcome := fused (.vfmaF32 d a b k) .f32 false false d a b k s
/-- VFMA.f16 (R151). -/
def execVfmaF16 (d a b : VReg) (k : KReg) (s : State) : Outcome := fused (.vfmaF16 d a b k) .f16 false false d a b k s
/-- VFMA.b16 (R151). -/
def execVfmaB16 (d a b : VReg) (k : KReg) (s : State) : Outcome := fused (.vfmaB16 d a b k) .b16 false false d a b k s
/-- VFMS.f32 (R151). -/
def execVfmsF32 (d a b : VReg) (k : KReg) (s : State) : Outcome := fused (.vfmsF32 d a b k) .f32 false true d a b k s
/-- VFMS.f16 (R151). -/
def execVfmsF16 (d a b : VReg) (k : KReg) (s : State) : Outcome := fused (.vfmsF16 d a b k) .f16 false true d a b k s
/-- VFMS.b16 (R151). -/
def execVfmsB16 (d a b : VReg) (k : KReg) (s : State) : Outcome := fused (.vfmsB16 d a b k) .b16 false true d a b k s
/-- VFNMA.f32 (R151). -/
def execVfnmaF32 (d a b : VReg) (k : KReg) (s : State) : Outcome := fused (.vfnmaF32 d a b k) .f32 true false d a b k s
/-- VFNMA.f16 (R151). -/
def execVfnmaF16 (d a b : VReg) (k : KReg) (s : State) : Outcome := fused (.vfnmaF16 d a b k) .f16 true false d a b k s
/-- VFNMA.b16 (R151). -/
def execVfnmaB16 (d a b : VReg) (k : KReg) (s : State) : Outcome := fused (.vfnmaB16 d a b k) .b16 true false d a b k s

/-- The four byte products of a lane (R152). -/
def dotE (signed : Bool) (a b : VWord) (j : Nat) : Int :=
  let p (n : Nat) : Int := intElem signed 8 (elem a 8 (4 * j + n)) * intElem signed 8 (elem b 8 (4 * j + n))
  p 0 + p 1 + p 2 + p 3

/-- VDOT4 (R152). -/
def dot (i : Instr) (signed : Bool) (d a b : VReg) (k : KReg) (s : State) : Outcome :=
  vslot i [a, b, d] [] s fun vs _ c =>
    c.result d (lanes 32 fun j =>
      let old := elem (src vs 2) 32 j
      if active (c.kVal k) 32 j then (intCode 32 (old + dotE signed (src vs 0) (src vs 1) j), 0) else (old, 0))

/-- VDOT4.i8 (R152). -/
def execVdot4I8 (d a b : VReg) (k : KReg) (s : State) : Outcome := dot (.vdot4I8 d a b k) true d a b k s
/-- VDOT4.w8 (R152). -/
def execVdot4W8 (d a b : VReg) (k : KReg) (s : State) : Outcome := dot (.vdot4W8 d a b k) false d a b k s

end Sys2Proof.Machine
end

