-- ==== Sys2Proof/Machine/VectorOne.lean ====
section
/-!
DEFINITION. The V slots of one source (R153 to R155, R161, R162, R165, R168, R169), compares and selects (R156, R157),
conversion (R158 to R160), rearrangement and movement (R164 to R166) and the mask slots (R170).
-/

namespace Sys2Proof.Machine

/-- A one-source slot: inactive elements become zero (R142, R153). -/
def one (i : Instr) (w : Nat) (d a : VReg) (k : KReg) (s : State) (f : Core → VWord → Nat → Nat × Conds) : Outcome :=
  vslot i [a] [] s fun vs _ c =>
    c.result d (lanes w fun j => if active (c.kVal k) w j then f c (src vs 0) j else (0, 0))

/-- Clear or invert the sign of a floating element; a NaN gives the default NaN (R154). -/
def signE (f : Fmt) (flip : Bool) (a : Nat) : Nat :=
  let l := f.layout
  if decodeVal f a = .nan then l.nanCode
  else
    let body := a % 2 ^ l.body
    if flip then (if a / 2 ^ l.body % 2 = 0 then body + 2 ^ l.body else body) else body

/-- VABS or VNEG of an element (R154). -/
def absE (flip : Bool) (t : VTy) (a : Nat) : Nat :=
  match t.fmt with
  | some f => signE f flip a
  | none =>
    let x := intElem true t.width a
    intCode t.width (if flip then -x else (x.natAbs : Int))

/-- VABS (R154). -/
def execVabs (d a : VReg) (k : KReg) (t : VTy) (s : State) : Outcome :=
  one (.vabs d a k t) t.width d a k s fun _ v j => (absE false t (elem v t.width j), 0)
/-- VNEG (R154). -/
def execVneg (d a : VReg) (k : KReg) (t : VTy) (s : State) : Outcome :=
  one (.vneg d a k t) t.width d a k s fun _ v j => (absE true t (elem v t.width j), 0)
/-- VNOT (R154). -/
def execVnot (d a : VReg) (k : KReg) (s : State) : Outcome :=
  one (.vnot d a k) 8 d a k s fun _ v j => (255 - elem v 8 j, 0)
/-- VMOV (R154). -/
def execVmov (d a : VReg) (k : KReg) (s : State) : Outcome :=
  one (.vmov d a k) 8 d a k s fun _ v j => (elem v 8 j, 0)

/-- VRCP, VRSQ, VEXP2 or VLOG2 (R155). Log 17, DESIGN CHOICE. -/
def special (i : Instr) (op : Nat) (d a : VReg) (k : KReg) (t : VTy) (s : State) : Outcome :=
  one i t.width d a k s fun _ v j => elemFn op (t.fmt.getD .f32) (elem v t.width j)
/-- VRCP (R155). -/
def execVrcp (d a : VReg) (k : KReg) (t : VTy) (s : State) : Outcome := special (.vrcp d a k t) 0 d a k t s
/-- VRSQ (R155). -/
def execVrsq (d a : VReg) (k : KReg) (t : VTy) (s : State) : Outcome := special (.vrsq d a k t) 1 d a k t s
/-- VEXP2 (R155). -/
def execVexp2 (d a : VReg) (k : KReg) (t : VTy) (s : State) : Outcome := special (.vexp2 d a k t) 2 d a k t s
/-- VLOG2 (R155). -/
def execVlog2 (d a : VReg) (k : KReg) (t : VTy) (s : State) : Outcome := special (.vlog2 d a k t) 3 d a k t s

/-! ### Reduction and scan (R161, R162) -/

/-- The first input of a floating sum: as it stands, but a NaN gives the default NaN (R161). -/
def firstIn (t : VTy) (x : Nat) : Nat := if elemNan t x then (t.fmt.getD .f32).layout.nanCode else x

/-- The running sum after one more input (R161). -/
def sumStep (mode : Nat) (t : VTy) (acc : Option Nat × Conds) (x : Nat) : Option Nat × Conds :=
  match acc.1 with
  | none => (some (firstIn t x), acc.2)
  | some y => let r := addE mode t y x; (some r.1, acc.2 ||| r.2)

/-- The active elements in increasing order. -/
def activeElems (v : VWord) (m : MaskWord) (w : Nat) : List Nat :=
  ((List.range (2048 / w)).filter (active m w)).map (elem v w)

/-- The least or greatest value of a type, for a reduction without inputs (R161). -/
def extremeE (larger : Bool) (t : VTy) : Nat :=
  match t.fmt with
  | some f => f.layout.infinity (!larger)
  | none => intCode t.width (if larger then (intRange t.signed t.width).2 else (intRange t.signed t.width).1)

/-- A reduction: element 0 of D, every other element zero (R161). -/
def reduce (i : Instr) (d a : VReg) (k : KReg) (t : VTy) (s : State) (f : Core → List Nat → Nat × Conds) : Outcome :=
  vslot i [a] [] s fun vs _ c =>
    let r := f c (activeElems (src vs 0) (c.kVal k) t.width)
    c.result d (BitVec.ofNat 2048 r.1, r.2)

/-- VRED.sum (R161). -/
def execVredSum (d a : VReg) (k : KReg) (t : VTy) (s : State) : Outcome :=
  reduce (.vredSum d a k t) d a k t s fun c xs =>
    let r := xs.foldl (sumStep c.mode t) (none, 0)
    (r.1.getD 0, r.2)
/-- VRED.max and VRED.min (R161). -/
def pickAll (larger : Bool) (t : VTy) : List Nat → Nat
  | [] => extremeE (!larger) t
  | x :: r => r.foldl (fun y z => (pickE larger t y z).1) (firstIn t x)
/-- VRED.max (R161). -/
def execVredMax (d a : VReg) (k : KReg) (t : VTy) (s : State) : Outcome :=
  reduce (.vredMax d a k t) d a k t s fun _ xs => (pickAll true t xs, 0)
/-- VRED.min (R161). -/
def execVredMin (d a : VReg) (k : KReg) (t : VTy) (s : State) : Outcome :=
  reduce (.vredMin d a k t) d a k t s fun _ xs => (pickAll false t xs, 0)

/-- The elements of VSCAN packed so far, and the running sum (R162). -/
def scanElems (mode : Nat) (t : VTy) (v : VWord) (m : MaskWord) : Nat → Nat × Option Nat × Conds
  | 0 => (0, none, 0)
  | n + 1 =>
    let (packed, acc, fl) := scanElems mode t v m n
    if active m t.width n then
      let r := sumStep mode t (acc, fl) (elem v t.width n)
      (packed + r.1.getD 0 * 2 ^ (t.width * n), r.1, r.2)
    else (packed, acc, fl)

/-- VSCAN (R162). -/
def execVscan (d a : VReg) (k : KReg) (t : VTy) (s : State) : Outcome :=
  vslot (.vscan d a k t) [a] [] s fun vs _ c =>
    let r := scanElems c.mode t (src vs 0) (c.kVal k) (2048 / t.width)
    c.result d (BitVec.ofNat 2048 r.1, r.2.2)

/-! ### Narrowing and widening (R168, R169) -/

/-- VSAT (R169). -/
def execVsat (d a : VReg) (k : KReg) (t : NTy) (s : State) : Outcome :=
  one (.vsat d a k t) 32 d a k s fun _ v j =>
    let x := signedOf 32 (elem v 32 j)
    let (lo, hi) := intRange t.signed t.width
    (intCode 32 (max lo (min hi x)), if lo ≤ x ∧ x ≤ hi then 0 else condSAT)

/-- VUNPK from element `from'` on (R168). -/
def unpack (i : Instr) (upper : Bool) (d a : VReg) (k : KReg) (t : NTy) (s : State) : Outcome :=
  let w := t.width
  one i (2 * w) d a k s fun _ v j =>
    (intCode (2 * w) (intElem t.signed w (elem v w (if upper then 2048 / w / 2 + j else j))), 0)
/-- VUNPK.lo (R168). -/
def execVunpkLo (d a : VReg) (k : KReg) (t : NTy) (s : State) : Outcome := unpack (.vunpkLo d a k t) false d a k t s
/-- VUNPK.hi (R168). -/
def execVunpkHi (d a : VReg) (k : KReg) (t : NTy) (s : State) : Outcome := unpack (.vunpkHi d a k t) true d a k t s

/-- VBCAST (R165). -/
def execVbcast (d : VReg) (a : GReg) (k : KReg) (t : VTy) (s : State) : Outcome :=
  vslot (.vbcast d a k t) [] [a] s fun _ ws c =>
    c.result d (lanes t.width fun j => (if active (c.kVal k) t.width j then (ws.headD 0).toNat % 2 ^ t.width else 0, 0))

/-! ### Compare and select (R156, R157) -/

/-- A comparison of two elements: equal, not equal, less, less or equal (0 to 3), and its conditions (R156). -/
def cmpE (op : Nat) (t : VTy) (a b : Nat) : Bool × Conds :=
  match t.fmt with
  | none =>
    let x := intElem t.signed t.width a
    let y := intElem t.signed t.width b
    (match op with
      | 0 => decide (x = y)
      | 1 => decide (x ≠ y)
      | 2 => decide (x < y)
      | _ => decide (x ≤ y), 0)
  | some f =>
    let x := decodeVal f a
    let y := decodeVal f b
    if x = .nan ∨ y = .nan then (decide (op = 1), if 2 ≤ op then condNV else 0)
    else
      let lt := valLt false x y
      let gt := valLt false y x
      (match op with
        | 0 => !lt && !gt
        | 1 => lt || gt
        | 2 => lt
        | _ => !gt, 0)

/-- VCMP: the mask bits of each element's bytes (R156). -/
def compare (i : Instr) (op : Nat) (d : KReg) (a b : VReg) (t : VTy) (s : State) : Outcome :=
  vslot i [a, b] [] s fun vs _ c =>
    let bytes := t.width / 8
    let r := packElems bytes (fun j =>
      let e := cmpE op t (elem (src vs 0) t.width j) (elem (src vs 1) t.width j)
      (if e.1 then 2 ^ bytes - 1 else 0, e.2)) (2048 / t.width)
    (c.record r.2).writeK d (BitVec.ofNat 256 r.1)
/-- VCMP.eq (R156). -/
def execVcmpEq (d : KReg) (a b : VReg) (t : VTy) (s : State) : Outcome := compare (.vcmpEq d a b t) 0 d a b t s
/-- VCMP.ne (R156). -/
def execVcmpNe (d : KReg) (a b : VReg) (t : VTy) (s : State) : Outcome := compare (.vcmpNe d a b t) 1 d a b t s
/-- VCMP.lt (R156). -/
def execVcmpLt (d : KReg) (a b : VReg) (t : VTy) (s : State) : Outcome := compare (.vcmpLt d a b t) 2 d a b t s
/-- VCMP.le (R156). -/
def execVcmpLe (d : KReg) (a b : VReg) (t : VTy) (s : State) : Outcome := compare (.vcmpLe d a b t) 3 d a b t s

/-- VSEL (R157). -/
def execVsel (d a b : VReg) (k : KReg) (s : State) : Outcome :=
  vslot (.vsel d a b k) [a, b] [] s fun vs _ c =>
    c.result d (lanes 8 fun j => (if (c.kVal k).getLsbD j then elem (src vs 0) 8 j else elem (src vs 1) 8 j, 0))

/-! ### Conversion (R158 to R160) -/

/-- The format of a VCVT class; class 7 takes VSTAT.SFMT (R158). -/
def classFmt (c : Core) (n : Nat) : Fmt :=
  match n with
  | 0 => .f32
  | 1 => .f16
  | 2 => .b16
  | 3 => .int true 32
  | 4 => .int false 32
  | 5 => .int true 16
  | 6 => .int false 16
  | _ => (fmtOf (fld c.control 16 8)).getD (.int true 8)

/-- The rounding mode of a VCVT (R158). -/
def cvtMode (c : Core) : CvtRound → Nat
  | .status => c.mode
  | .nearest => 0
  | .zero => 1
  | .up => 2
  | .down => 3

/-- A conversion without its same-class shortcuts (R159, R160). -/
def convertAll (c : Core) (sel : BitVec 6) (r : CvtRound) (v : VWord) : VWord × Conds :=
  let sf := classFmt c (sel.toNat / 8)
  let df := classFmt c (sel.toNat % 8)
  let sat := c.control.getLsbD 9
  let n := 2048 / max sf.bits df.bits
  let r := packElems df.bits (fun j => convert sf df (cvtMode c r) sat sat (elem v sf.bits j)) n
  (BitVec.ofNat 2048 r.1, r.2)

/-- VCVT (R158 to R160). -/
def execVcvt (d a : VReg) (selector : BitVec 6) (r : CvtRound) (s : State) : Outcome :=
  vslot (.vcvt d a selector r) [a] [] s fun vs _ c => c.result d (convertAll c selector r (src vs 0))

/-! ### Rearrangement and movement (R164 to R166) -/

/-- VSHUF on a register (R164). -/
def shuffle (kind : BitVec 3) (p : BitVec 6) (a : VWord) : VWord :=
  let w := 8 * 2 ^ p.toNat
  let n := 2048 / w
  (match kind.toNat with
    | 0 => lanes 32 fun j => (elem a 32 ((j + p.toNat) % 64), 0)
    | 1 => lanes 16 fun j => (elem a 16 ((j + p.toNat) % 128), 0)
    | 2 => lanes w fun j => (elem a w (if j % 2 = 0 then j / 2 else n / 2 + j / 2), 0)
    | 3 => lanes w fun j => (elem a w (if j < n / 2 then 2 * j else 2 * (j - n / 2) + 1), 0)
    | 4 => lanes w fun j => (elem a w (n - 1 - j), 0)
    | _ => lanes 32 fun _ => (elem a 32 p.toNat, 0)).1

/-- VSHUF (R164). -/
def execVshuf (d a : VReg) (kind : BitVec 3) (p : BitVec 6) (s : State) : Outcome :=
  vslot (.vshuf d a kind p) [a] [] s fun vs _ c => c.result d (shuffle kind p (src vs 0), 0)

/-- VINS (R166). -/
def execVins (d : VReg) (a b : GReg) (t : VTy) (s : State) : Outcome :=
  vslot (.vins d a b t) [d] [a, b] s fun vs ws c =>
    let w := t.width
    let at' := (ws.getD 1 0).toNat % (2048 / w)
    c.result d (lanes w fun j => (if j = at' then (ws.getD 0 0).toNat % 2 ^ w else elem (src vs 0) w j, 0))

/-- VEXT (R166). -/
def execVext (d : GReg) (a : VReg) (b : GReg) (t : VTy) (s : State) : Outcome :=
  vslot (.vext d a b t) [a] [b] s fun vs ws c =>
    let w := t.width
    c.setBackG d (BitVec.ofInt 64 (intElem t.signed w (elem (src vs 0) w ((ws.headD 0).toNat % (2048 / w)))))

/-- VMOVI (R165). -/
def execVmovi (d : VReg) (imm : BitVec 15) (s : State) : Outcome :=
  vslot (.vmovi d imm) [] [] s fun _ _ c => c.result d (lanes 32 fun _ => ((imm.signExtend 32).toNat, 0))

/-! ### Masks (R170) -/

/-- KAND (R170). -/
def execKand (d a b : KReg) (s : State) : Outcome :=
  vslot (.kand d a b) [] [] s fun _ _ c => c.writeK d (c.kVal a &&& c.kVal b)
/-- KOR (R170). -/
def execKor (d a b : KReg) (s : State) : Outcome :=
  vslot (.kor d a b) [] [] s fun _ _ c => c.writeK d (c.kVal a ||| c.kVal b)
/-- KNOT (R170). -/
def execKnot (d a : KReg) (s : State) : Outcome :=
  vslot (.knot d a) [] [] s fun _ _ c => c.writeK d (~~~c.kVal a)
/-- The 1 bits of a mask. -/
def popMask (m : MaskWord) : Nat := ((List.range 256).filter fun i => m.getLsbD i).length
/-- KPOP (R170). -/
def execKpop (d : GReg) (a : KReg) (s : State) : Outcome :=
  vslot (.kpop d a) [] [] s fun _ _ c => c.setBackG d (word (popMask (c.kVal a)))

end Sys2Proof.Machine
end

