-- ==== Sys2Proof/Machine/Matrix.lean ====
section
/-!
DEFINITION. The M slots (R251 to R262), the accumulator ports and VQPOP (R263, R264), and the step in which a waiting MMAS
fires (R258).
-/

namespace Sys2Proof.Machine

/-- Run an operation over its tiles into a bank (R254 to R256): sums, flags, poison. -/
def overTiles (c : Core) (d : AccReg) (o : MOps) (f : List (Nat × List Int) → List (Nat × List Int) → MRes → MRes) : Core :=
  let r := (o.as'.zip o.bs).foldl (fun r x => f (blocks c.spad x.1 o.pa) (blocks c.spad x.2 o.pb) r)
    { acc := accElems (c.accOf d) }
  let poison := poisonPieces c.spad o.reads
  ((c.setAcc d (packAcc r.acc)).flagAcc d r.sat poison).recordMx
    ((if r.nan then mxNAN else 0) ||| (if poison then mxPOIS else 0) ||| (if r.sat then mxSAT else 0))

/-- MMA or MCHK once the stores before it have been performed (R255). -/
def tileOp (d : AccReg) (a b : GReg) (s : State) (f : Nat → Nat → List (Nat × List Int) → List (Nat × List Int) → MRes → MRes) :
    Outcome :=
  let c := s.core
  let o := mOps c (c.gVal a) (c.gVal (a + 1)) (c.gSecond (a + 1) b)
  if o.n = 0 then done s
  else if !c.storesDone c.curSeq true o.reads then stall s
  else done { s with core := overTiles c d o (f o.pa o.pb) }

/-- MMA (R254). -/
def execMma (d : AccReg) (a b : GReg) (s : State) : Outcome := tileOp d a b s mmaBlock
/-- MCHK (R256). -/
def execMchk (d : AccReg) (a b : GReg) (s : State) : Outcome := tileOp d a b s mchkBlock

/-- MZERO's effect (R259). -/
def Core.zeroAcc (c : Core) (d : AccReg) : Core :=
  { c.setAcc d 0 with accSat := c.accSat &&& ~~~BitVec.ofNat 16 (2 ^ d.toNat),
                      accPois := c.accPois &&& ~~~BitVec.ofNat 16 (2 ^ d.toNat) }

/-- MZERO (R259). -/
def execMzero (d : AccReg) (s : State) : Outcome := done { s with core := s.core.zeroAcc d }

/-- MDRN: all 16 entries or QUEUE_OVER (R261, R262). -/
def execMdrn (d : RqReg) (a : AccReg) (s : State) : Outcome :=
  let c := s.core
  if c.queueAhead d then stall s
  else if 32 < (c.rqOf d).length + 16 then done (holdHere 0x045 (word d.toNat) 0 s)
  else done { s with core := c.setRq d (c.rqOf d ++ drained c a) }

/-- MWAIT: every earlier M slot has completed when it reaches the head; issue waits for it (R259). -/
def execMwait (s : State) : Outcome := done s

/-- MSTAT (R259, R260); a WRSR of MXSTAT in its own bundle does not govern it (R89, R91). -/
def execMstat (d : GReg) (s : State) : Outcome :=
  let c := s.core
  if !roomFor (use (.mstat d)) c then stall s
  else done { s with core := c.setBackG d (mxstatOf { c with mxstat := (assocGet c.olds 0x110).getD c.mxstat } c.meq.tail) }

/-! ### MMAS (R257, R258) -/

/-- A ring by number. -/
def Core.ring (c : Core) (n : Nat) : Ring := c.rings.toList.getD n {}
/-- Put a ring back. -/
def Core.putRing (c : Core) (n : Nat) (r : Ring) : Core := { c with rings := c.rings.setIfInBounds n r }
/-- Address of entry x (R287). -/
def Ring.entry (r : Ring) (x : Nat) : Nat := r.base + x % r.count * r.esize

/-- A ring cannot feed an MMAS: not set up, an entry that is no plane tile, too few planes, or fewer entries than blocks (R258). -/
def ringUnfit (c : Core) (r : Ring) (planes n : Nat) : Bool :=
  !r.isSet || decide (r.count < n)
    || (List.range r.count).any fun x =>
      let a := r.entry x
      let p := c.planesAt a
      decide (p < planes) || decide (r.esize < tileBytes p) || !c.planeRange a (tileBytes p)

/-- The operands of an MMAS from its rings. -/
def ringOps (a b : Ring) (w : Word) : MOps :=
  { n := fld w 0 10, pa := fld w 16 5, pb := fld w 24 5,
    as' := (List.range (fld w 0 10)).map fun t => a.entry (a.cons + t),
    bs := (List.range (fld w 0 10)).map fun t => b.entry (b.cons + t) }

/-- Both rings hold the blocks (R258). -/
def ringsFilled (a b : Ring) (w : Word) : Bool := decide (a.cons + fld w 0 10 ≤ a.prod ∧ b.cons + fld w 0 10 ≤ b.prod)

/-- MMAS fires: zero, multiply, release the entries, drain (R257, R258). -/
def fireMmas (d : AccReg) (rw cw : Word) (c : Core) : Core :=
  let ra := c.ring (fld rw 0 4)
  let rb := c.ring (fld rw 8 4)
  let o := ringOps ra rb cw
  let c := if rw.getLsbD 20 then c.zeroAcc d else c
  let c := if o.n = 0 then c else overTiles c d o (mmaBlock o.pa o.pb)
  let c := (c.putRing (fld rw 0 4) { ra with cons := ra.cons + o.n }).putRing (fld rw 8 4) { rb with cons := rb.cons + o.n }
  let q := BitVec.ofNat 3 (fld rw 16 3)
  if rw.getLsbD 19 then c.setRq q (c.rqOf q ++ drained c d) else c

/-- MMAS at the head of the matrix queue: the checks of R258, the A ring's before the B ring's, then it fires or waits. Log 86, DESIGN CHOICE. -/
def execMmas (d : AccReg) (a b : GReg) (s : State) : Outcome :=
  let c := s.core
  let rw := c.gVal a
  let cw := c.gSecond a b
  let q := BitVec.ofNat 3 (fld rw 16 3)
  if ringUnfit c (c.ring (fld rw 0 4)) (fld cw 16 5) (fld cw 0 10) then done (holdHere 0x044 (word (fld rw 0 4)) 0 s)
  else if ringUnfit c (c.ring (fld rw 8 4)) (fld cw 24 5) (fld cw 0 10) then done (holdHere 0x044 (word (fld rw 8 4)) 0 s)
  else if rw.getLsbD 19 && c.queueAhead q then stall s
  else if rw.getLsbD 19 && decide (32 < (c.rqOf q).length + 16) then done (holdHere 0x045 (word q.toNat) 0 s)
  else if !ringsFilled (c.ring (fld rw 0 4)) (c.ring (fld rw 8 4)) cw then stall s
  else
    let reads := (ringOps (c.ring (fld rw 0 4)) (c.ring (fld rw 8 4)) cw).reads
    if !c.storesDone c.curSeq true reads then stall s
    else throughWindows false (reads.flatMap fun (p : Piece) => (probes p.at' p.len).map fun a => (a, word a, 0)) s fun s => done { s with core := fireMmas d rw cw s.core }

/-- Run a queued slot's meaning with the values it read at issue and its own bundle, slot and count (R48, R54). -/
def Core.enter (c : Core) (q : QSlot) : Core :=
  { c with curBundle := q.bundle, curSlot := q.slot, curSeq := q.seq, early := q.gsrc, earlyK := q.ksrc, olds := q.olds,
           mark := .ok }

/-- The executing slot is over: what it read at issue is forgotten. -/
def Core.leave (c : Core) : Core := { c with early := [], earlyK := [], olds := [], mine := [], mark := .ok }

/-- The MMAS that waits at the head of the matrix queue fires once each ring holds its blocks, and leaves the queue (R258). -/
def execMmasFire (s : State) : Outcome :=
  match s.core.meq with
  | [] => done s
  | q :: _ =>
    match q.instr with
    | .mmas d a b =>
      match execMmas d a b { s with core := s.core.enter q } with
      | .next s' =>
        (match s'.core.mark with
          | .ok => done { s' with core := { s'.core.leave with meq := s'.core.meq.tail } }
          | .wait => waits { s with todo := s'.todo }
          | _ => stall s)
      | o => o
    | _ => done s

/-! ### Accumulator ports and VQPOP (R263, R264) -/

/-- VACR of element rows (R264): n bits from bit lo of the bank. -/
def accPort (i : Instr) (d : VReg) (a : AccReg) (lo n : Nat) (s : State) : Outcome :=
  if !roomFor (use i) s.core then stall s
  else if s.core.accPois.getLsbD a.toNat then backTrap i 0x047 (word a.toNat) 0 s
  else done { s with core := s.core.setV d (BitVec.ofNat 2048 ((s.core.accOf a).toNat / 2 ^ lo % 2 ^ n)) }

/-- VACR of a pair of rows (R264). -/
def execVacr (d : VReg) (a : AccReg) (u : BitVec 4) (s : State) : Outcome := accPort (.vacr d a u) d a (2048 * u.toNat) 2048 s
/-- VACR of one row (R264). -/
def execVacrRow (d : VReg) (a : AccReg) (i : BitVec 5) (s : State) : Outcome :=
  accPort (.vacrRow d a i) d a (1024 * i.toNat) 1024 s

/-- A bank with n bits from bit lo replaced. -/
def Core.writeAcc (c : Core) (d : AccReg) (lo n v : Nat) : Core :=
  let a := (c.accOf d).toNat
  c.setAcc d (BitVec.ofNat 32768 (a - a / 2 ^ lo % 2 ^ n * 2 ^ lo + v % 2 ^ n * 2 ^ lo))

/-- VACW of a pair of rows (R264). -/
def execVacw (d : AccReg) (a : VReg) (u : BitVec 4) (s : State) : Outcome :=
  vslot (.vacw d a u) [a] [] s fun vs _ c => c.writeAcc d (2048 * u.toNat) 2048 (src vs 0).toNat
/-- VACW of one row (R264). -/
def execVacwRow (d : AccReg) (a : VReg) (i : BitVec 5) (s : State) : Outcome :=
  vslot (.vacwRow d a i) [a] [] s fun vs _ c => c.writeAcc d (1024 * i.toNat) 1024 (src vs 0).toNat

/-- VQPOP (R261, R263): QUEUE_UNDER pops nothing; a poisoned entry is popped and traps. -/
def execVqpop (d : VReg) (a : RqReg) (s : State) : Outcome :=
  let i := Instr.vqpop d a
  let c := s.core
  if !roomFor (use i) c then stall s
  else if c.queueAhead a then stall s
  else match c.rqOf a with
    | [] => backTrap i 0x046 (word a.toNat) 0 s
    | e :: _ =>
      let s := { s with core := (c.popRq a 1).1 }
      if e.2.getLsbD 10 then backTrap i 0x047 (word a.toNat) 0 s
      else done { s with core := s.core.setV d e.1 }

end Sys2Proof.Machine
end

