-- ==== Sys2Proof/Machine/Move.lean ====
section
/-!
DEFINITION. Moving bytes with the bits they carry: full/empty bits and poison travel with the data (R278, R280, R345, R382,
R405).
-/

namespace Sys2Proof.Machine

/-- A byte with the full/empty bit of its word and the poison bit of its sector. -/
abbrev Lump := List (Byte × Bool × Bool)

/-- Read n bytes from a with their bits. -/
def Store.lump (m : Store) (a n : Nat) : Lump := (List.range n).map fun i => (cellGet m.bytes (a + i), m.fe (a + i), m.poisoned (a + i))

/-- Bytes without bits of their own: full/empty bits as given, unpoisoned. -/
def plainLump (bs : List Byte) (full : Bool := false) (poison : Bool := false) : Lump := bs.map fun b => (b, full, poison)

/-- What becomes of the full/empty bit of each word written whole (R278). -/
inductive FeRule where
  /-- the bit that the word's first byte carries -/
  | carried
  | set (v : Bool)
  | keep
deriving DecidableEq, Repr

/-- Set the poison bit of a sector of a space; host memory has none (R216). -/
def State.poisonAt (s : State) (sp : Bool) (a : Nat) : State :=
  if sp then { s with core := { s.core with spad := s.core.spad.setPoison a true } } else if inHost a then s else { s with mem := s.mem.setPoison a true }

/-- The words of a lump written from an address on that are written whole, with the bit that a rule gives each (R278). -/
def feWords (rule : FeRule) : Nat → Lump → List (Nat × Bool)
  | _, [] => []
  | a, x :: r =>
    (if a % 8 = 0 ∧ 7 ≤ r.length then
        match rule with
        | .carried => [(wordNo a, x.2.1)]
        | .set v => [(wordNo a, v)]
        | .keep => []
      else []) ++ feWords rule (a + 1) r

/-- Give words of a space their bits in one write: those that change are seen, and one wake is posted for each tile or block (R121, R190). -/
def State.putFes (s : State) (sp : Bool) (l : List (Nat × Bool)) : State :=
  let new := l.filter fun x => (s.space sp).fe (8 * x.1) != x.2
  (new.foldl (fun (s : State) x => s.putFe sp (8 * x.1) x.2) s).postWakes sp new

/-- Set the bits of the words of a range that are written whole. -/
def State.feRange (s : State) (sp : Bool) (rule : FeRule) (a : Nat) (l : Lump) : State := s.putFes sp (feWords rule a l)

/-- Write a lump into a space: the bytes in one write, then the bits, then the poison it brings. -/
def State.putLump (s : State) (sp : Bool) (rule : FeRule) (a : Nat) (l : Lump) : State :=
  let s := s.store sp a (l.map (·.1))
  let s := s.feRange sp rule a l
  (l.zipIdx).foldl (fun (s : State) x => if x.1.2.2 then s.poisonAt sp (a + x.2) else s) s

/-- The sum of two elements of a format: .f32 to nearest even with the default NaN, .i32 modulo 2^32 (R405). -/
def redSum (fmt a b : Nat) : Nat := if fmt = 0x08 then (addVal .f32 0 (decodeVal .f32 a) (decodeVal .f32 b)).1 else (a + b) % 2 ^ 32

/-- A byte of a chunk: its address, its value, the bits of it that are written, and poison. -/
structure ChunkByte where
  at'  : Nat
  val  : Byte
  mask : Byte
  bad  : Bool
deriving DecidableEq, Repr

/-- A byte at place i of a word. -/
def byteAt (b : Byte) (i : Nat) : Word := BitVec.ofNat 64 (b.toNat * 256 ^ i)

/-- Gather bytes with rising addresses into words: number, value and mask. -/
def packWords (bs : List ChunkByte) : List FlightWord :=
  bs.foldr (fun b ws =>
    let v := byteAt b.val (b.at' % 8)
    let m := byteAt b.mask (b.at' % 8)
    match ws with
    | w :: r => if w.no = b.at' / 8 then { w with val := w.val ||| v, mask := w.mask ||| m } :: r
        else { no := b.at' / 8, val := v, mask := m, bit := none } :: ws
    | [] => [{ no := b.at' / 8, val := v, mask := m, bit := none }]) []

/-- A chunk as it will be written: its words, the sectors that poisoned data reaches, and those written whole with clean data. -/
structure Chunk where
  words : List FlightWord
  bad   : List Nat
  clean : List Nat
deriving DecidableEq, Repr

/-- A chunk of words, with the sectors that poison reaches. -/
def chunkFrom (ws : List FlightWord) (bad : List Nat) : Chunk :=
  let whole (q : Nat) : Bool := (List.range 4).all fun i => ws.any fun v => decide (v.no = 4 * q + i) && v.mask == BitVec.allOnes 64
  { words := ws, bad := bad, clean := ((ws.map fun v => v.no / 4).eraseDups.filter fun q => whole q && !bad.contains q) }

/-- The bytes of runs of addresses. -/
def runBytes : List Piece → Lump → List (Nat × Byte × Bool × Bool)
  | [], _ => []
  | p :: r, l => ((l.take p.len).zipIdx.map fun x => (p.at' + x.2, x.1)) ++ runBytes r (l.drop p.len)

/-- The bits of the words of runs that are written whole. -/
def runBits (rule : FeRule) : List Piece → Lump → List (Nat × Bool)
  | [], _ => []
  | p :: r, l => feWords rule p.at' (l.take p.len) ++ runBits rule r (l.drop p.len)

/-- Runs o to o + n - 1 of a list of runs. -/
def cutRuns : List Piece → Nat → Nat → List Piece
  | [], _, _ => []
  | p :: r, o, n =>
    if n = 0 then []
    else if p.len ≤ o then cutRuns r (o - p.len) n
    else
      let m := min n (p.len - o)
      { off := 0, at' := p.at' + o, len := m } :: cutRuns r 0 (n - m)

/-- The words that bytes with their bits write into runs of addresses; host memory has no full/empty bit (R216, R405, R422). -/
def lumpChunk (sp : Bool) (rule : FeRule) (ps : List Piece) (l : Lump) : Chunk :=
  let bs := runBytes ps l
  let bits := runBits rule ps l
  chunkFrom
    ((packWords (bs.map fun b => { at' := b.1, val := b.2.1, mask := 0xFF, bad := b.2.2.2 })).map fun v =>
      { v with bit := if !sp && inHost (8 * v.no) then none else assocGet bits v.no })
    (((bs.filter fun b => b.2.2.2).map fun b => b.1 / 32).eraseDups)

/-- Element i of a lump: its value and poison. -/
def lumpElem (l : Lump) (i : Nat) : Nat × Bool :=
  let x := (l.drop (4 * i)).take 4
  (leNat (x.map (·.1)), x.any fun (b : Byte × Bool × Bool) => b.2.2)

/-- Elements with their values that are added from an address on, each indivisibly, with the poison that they bring (R405, R408). -/
def sumChunk (fmt a : Nat) (xs : List (Nat × Nat × Bool)) : Chunk :=
  let one (e v : Nat) : FlightWord :=
    let b := a + 4 * e
    { no := b / 8, val := word (2 ^ (8 * (b % 8)) * v), mask := word (2 ^ (8 * (b % 8)) * 0xFFFFFFFF), bit := none, sum := some fmt }
  { words := xs.map fun x => one x.1 x.2.1, bad := ((xs.filter fun x => x.2.2).map fun x => (a + 4 * x.1) / 32).eraseDups, clean := [] }

/-- The elements of a lump, numbered from 0. -/
def lumpElems (l : Lump) : List (Nat × Nat × Bool) := (List.range (l.length / 4)).map fun i => (i, lumpElem l i)

/-- What a word becomes: the bits that are written, or each element added to what stood there (R299, R405). -/
def FlightWord.over (v : FlightWord) (old : Word) : Word :=
  match v.sum with
  | none => (old &&& ~~~v.mask) ||| (v.val &&& v.mask)
  | some fmt =>
    let lane (i : Nat) : Nat := if fld v.mask i 32 = 0 then fld old i 32 else redSum fmt (fld old i 32) (fld v.val i 32)
    word (lane 0 + 2 ^ 32 * lane 32)

/-- One word is written with its bit (R299). The bits that changed are kept for the wake behind the last word (R278). -/
def Flight.put (f : Flight) (v : FlightWord) (s : State) : Flight × State :=
  let a := 8 * v.no
  let new := leBytes 8 (v.over ((s.space f.sp).word a)).toNat
  let s := if f.sp then s.storeSpad a new else match f.part with
    | some p => s.forPart p fun s => s.writeRaw a new
    | none => s.writeRaw a new
  let s := if f.bad.contains (v.no / 4) then s.poisonAt f.sp a else s
  match v.bit with
  | some b =>
    if (s.space f.sp).fe a = b then (f, s) else ({ f with changed := f.changed ++ [(v.no, b)] }, s.putFe f.sp a b)
  | none => (f, s)

/-- Words leave to be written. -/
def State.launch (s : State) (f : Flight) : State := { s with flights := s.flights ++ [{ f with no := s.free }], free := s.free + 1 }

/-- The words of a chunk leave to be written, under what else is given for them. -/
def State.bring (s : State) (f : Flight) (h : Chunk) : State := s.launch { f with words := h.words, bad := h.bad, clean := h.clean }

end Sys2Proof.Machine
end

