-- ==== Sys2Proof/Machine/Descriptor.lean ====
section
/-!
DEFINITION. Copy descriptors (R271 to R273): their fields, the formats and addresses of both sides, the bytes that a command moves, and
the scratchpad bytes that it touches.
-/

namespace Sys2Proof.Machine

/-! ### Descriptor fields (R271) -/

/-- Word n of a command's descriptor. -/
def CopyCmd.w (x : CopyCmd) (n : Nat) : Word := x.desc.getD n 0
/-- NLVL. -/
def CopyCmd.nlvl (x : CopyCmd) : Nat := fld (x.w 2) 37 3
/-- LEN. -/
def CopyCmd.len (x : CopyCmd) : Nat := fld (x.w 2) 0 32
/-- CNV. -/
def CopyCmd.cnv (x : CopyCmd) : Bool := (x.w 2).getLsbD 45
/-- DRE. -/
def CopyCmd.dre (x : CopyCmd) : Bool := (x.w 2).getLsbD 44
/-- SRE. -/
def CopyCmd.sre (x : CopyCmd) : Bool := (x.w 2).getLsbD 36
/-- DRING. -/
def CopyCmd.dring (x : CopyCmd) : Nat := fld (x.w 2) 40 4
/-- SRING. -/
def CopyCmd.sring (x : CopyCmd) : Nat := fld (x.w 2) 32 4
/-- The source lies in the global space; a ring entry lies in scratchpad. -/
def CopyCmd.srcGlobal (x : CopyCmd) : Bool := (x.w 0).getLsbD 63 && !x.sre
/-- The destination lies in the global space. -/
def CopyCmd.dstGlobal (x : CopyCmd) : Bool := (x.w 1).getLsbD 63 && !x.dre
/-- AUX. -/
def CopyCmd.aux (x : CopyCmd) : Word := x.w 3
/-- COUNTn; a level at or beyond NLVL acts as one (R272). -/
def CopyCmd.count (x : CopyCmd) (n : Nat) : Nat := if n < x.nlvl then fld (x.w (5 + 2 * n)) 0 32 else 1
/-- SSTRn, signed. -/
def CopyCmd.sstr (x : CopyCmd) (n : Nat) : Word :=
  if n < x.nlvl then ((x.w (4 + 2 * n)).setWidth 32 : BitVec 32).signExtend 64 else 0
/-- DSTRn, signed. -/
def CopyCmd.dstr (x : CopyCmd) (n : Nat) : Word :=
  if n < x.nlvl then ((x.w (4 + 2 * n) >>> 32).setWidth 32 : BitVec 32).signExtend 64 else 0
/-- Innermost copies of the nest. -/
def CopyCmd.iters (x : CopyCmd) : Nat := (List.range 6).foldl (fun p n => p * x.count n) 1
/-- Index of level n at innermost copy `it`. -/
def CopyCmd.index (x : CopyCmd) (it n : Nat) : Nat :=
  it / ((List.range n).foldl (fun p m => p * x.count m) 1) % max 1 (x.count n)
/-- Full/empty mode none is .fekeep where there is no source word (R278). -/
def CopyCmd.keeps (x : CopyCmd) : Bool :=
  match x.mode, x.kind with
  | .fekeep, _ => true
  | .fesrc, .cpyp | .fesrc, .cpyq => true
  | _, _ => false
/-- Mode .fesrc takes bits from source words. -/
def CopyCmd.carries (x : CopyCmd) : Bool := decide (x.mode = .fesrc) && !x.keeps
/-- The rule for destination words (R278). -/
def CopyCmd.rule (x : CopyCmd) : FeRule :=
  if x.keeps then .keep
  else match x.mode with
    | .fefull => .set true
    | .feempty => .set false
    | .fesrc => .carried
    | .fekeep => .keep

/-- Behind the last chunk of innermost copy it - 1. -/
def atCopy (it : Nat) : Nat := it * 2 ^ 40

/-- The receivers of a multicast, by physical identifier (R273, R291). -/
def CopyCmd.receivers (x : CopyCmd) (s : State) : List Nat :=
  ((List.range 16).filter fun i => x.aux.getLsbD i).map fun i => s.logical (fld x.aux 24 3) (fld x.aux 16 7 + i)

/-! ### Formats of the two sides (R271) -/

/-- A side's format register: a bank's, or a plain format of the descriptor. -/
structure SideFmt where
  fmt    : Fmt
  layout : Nat
  planes : Nat
deriving DecidableEq, Repr

/-- The format of a side at an address: none when its code is reserved. -/
def sideFmt (c : Core) (glob : Bool) (code addr : Nat) : Option SideFmt :=
  if glob then (fmtOf code).map fun f => { fmt := f, layout := 0, planes := 1 }
  else
    let w := c.bankOf addr
    (fmtOf (fld w 0 8)).map fun f => { fmt := f, layout := fld w 8 2, planes := fld w 16 4 + 1 }

/-- Elements that n bytes of a side hold; none when they are no whole number. -/
def SideFmt.elems (f : SideFmt) (n : Nat) : Option Nat :=
  if f.layout = 2 then (if n % tileBytes f.planes = 0 then some (n / tileBytes f.planes * 1024) else none)
  else if 8 * n % f.fmt.bits = 0 then some (8 * n / f.fmt.bits) else none

/-- Bytes that n elements of a side take; none when they are no whole number. -/
def SideFmt.bytes (f : SideFmt) (n : Nat) : Option Nat :=
  if f.layout = 2 then (if n % 1024 = 0 then some (n / 1024 * tileBytes f.planes) else none)
  else if n * f.fmt.bits % 8 = 0 then some (n * f.fmt.bits / 8) else none

/-! ### Addresses -/

/-- Address of the ring entry of a side, and the entry itself. -/
def entryBase (c : Core) (ring x : Nat) : Nat := (c.ring ring).entry x

/-- Base address of the source. -/
def CopyCmd.srcBase (x : CopyCmd) (c : Core) : Word :=
  word ((match x.ringS with | some n => entryBase c x.sring n | none => 0) + fld (x.w 0) 0 57)
/-- Base address of the destination. -/
def CopyCmd.dstBase (x : CopyCmd) (c : Core) : Word :=
  word ((match x.ringD with | some n => entryBase c x.dring n | none => 0) + fld (x.w 1) 0 57)

/-- DSTR0 of a plane copy; zero means the tile size (R273). -/
def CopyCmd.tileStride (x : CopyCmd) (p : Nat) : Word := if x.dstr 0 = 0 then word (tileBytes p) else x.dstr 0

/-- Source address of an innermost copy, without a gather's index (R272). -/
def CopyCmd.srcAt (x : CopyCmd) (c : Core) (it : Nat) : Word :=
  (List.range 6).foldl (fun a n => a + BitVec.ofNat 64 (x.index it n) * x.sstr n) (x.srcBase c)
/-- Destination address of an innermost copy (R272). -/
def CopyCmd.dstAt (x : CopyCmd) (c : Core) (it : Nat) : Word :=
  if x.kind = .cpyp then x.dstBase c + BitVec.ofNat 64 it * x.tileStride (c.planesAt (x.dstBase c).toNat)
  else (List.range 6).foldl (fun a n => a + BitVec.ofNat 64 (x.index it n) * x.dstr n) (x.dstBase c)

/-- Format of the source of an innermost copy. -/
def CopyCmd.srcFmt (x : CopyCmd) (c : Core) (a : Nat) : Option SideFmt :=
  if x.kind = .cpyq then some { fmt := .f32, layout := 0, planes := 1 } else sideFmt c x.srcGlobal (fld (x.w 2) 48 8) a
/-- Format of its destination. -/
def CopyCmd.dstFmt (x : CopyCmd) (c : Core) (a : Nat) : Option SideFmt := sideFmt c x.dstGlobal (fld (x.w 2) 56 8) a

/-- Destination bytes of one innermost copy, for the cores of the source and of the destination (R271); none when the formats do not suit. -/
def CopyCmd.dlen (x : CopyCmd) (c cd : Core) : Option Nat :=
  if x.kind = .cpyp then some (tileBytes (cd.planesAt (x.dstBase cd).toNat))
  else if !x.cnv then some x.len
  else match x.srcFmt c (x.srcBase c).toNat, x.dstFmt cd (x.dstBase cd).toNat with
    | some f, some g => (f.elems x.len).bind g.bytes
    | _, _ => none

/-- The command as it writes at a receiver, with the receiver's core: the entry that it holds there, or would take (R291). -/
def CopyCmd.toward (x : CopyCmd) (s : State) (r : Nat) : CopyCmd × Core :=
  let cd := s.coreAt r
  ({ x with ringD := some ((assocGet x.landed r).getD (cd.ring x.dring).rsv) }, cd)

/-- The command with the ring entries that it holds, or would take once i more entries of its source ring are released and j more of its
destination ring reserved (R289). -/
def CopyCmd.placedAt (x : CopyCmd) (c : Core) (i j : Nat) : CopyCmd :=
  { x with ringD := if x.dre ∧ x.kind ≠ .cpym ∧ x.ringD.isNone then some ((c.ring x.dring).rsv + j) else x.ringD,
           ringS := if x.sre ∧ x.ringS.isNone then some ((c.ring x.sring).cons + i) else x.ringS }

/-- The command with the ring entries that it holds, or would take now (R289). -/
def CopyCmd.placed (x : CopyCmd) (c : Core) : CopyCmd := x.placedAt c 0 0

/-- Destination bytes of the whole command at one core. -/
def CopyCmd.total (x : CopyCmd) (c cd : Core) : Nat := x.iters * (x.dlen c cd).getD 0
/-- Bytes that it counts into its barrier: a multicast counts each receiver (R291). -/
def CopyCmd.allBytes (x : CopyCmd) (s : State) : Nat :=
  if x.kind = .tfetch then
    (match s.core.windowAt (fld (x.w 0) 0 19) with
      | some (d, _) => fld (x.w 0) 20 12 * 2 ^ d.tl
      | none => 0)
  else if x.kind = .cpym then ((x.receivers s).map fun r => let t := x.toward s r; t.1.total s.core t.2).foldl (· + ·) 0
  else x.total s.core s.core

/-! ### The scratchpad bytes that a command touches (R211, R380, R389) -/

/-- Two byte ranges, each an address and a length, meet. -/
def rangesMeet (a n b m : Nat) : Bool := decide (0 < n ∧ 0 < m ∧ a < b + m ∧ b < a + n)

/-- A range of a side, widened to whole rows where a conversion may read or write shuffled elements. -/
def CopyCmd.rows (x : CopyCmd) (a n : Nat) : Nat × Nat :=
  if x.cnv then (a / 64 * 64, (a + n + 63) / 64 * 64 - a / 64 * 64) else (a, n)

/-- The address that an element of a plane copy is read at (R273). -/
def CopyCmd.blockElem (x : CopyCmd) (src : Word) (es row k : Nat) : Nat :=
  let rstr := fld x.aux 0 32
  (src + (if x.aux.getLsbD 32 then word (k * rstr + row * es) else word (row * rstr + k * es))).toNat

/-- The address of the index of a gather (R273). -/
def CopyCmd.indexAt (x : CopyCmd) (it : Nat) : Nat := fld x.aux 0 19 + 4 * x.index it 0

/-- Innermost copy `it` reads a scratchpad byte of a range at its own core. -/
def CopyCmd.readsIn (x : CopyCmd) (c : Core) (lo n it : Nat) : Bool :=
  let index : Word := ((BitVec.ofNat 32 (leNat (c.spad.read (x.indexAt it) 4))).signExtend 64)
  let a := (x.srcAt c it + (if x.kind = .cpyg then index else 0)).toNat
  (decide (x.kind = .cpyg) && rangesMeet (x.indexAt it) 4 lo n)
    || (!x.srcGlobal && decide (x.kind ≠ .cpyq) &&
        (if x.kind = .cpyp then
          let es := ((x.srcFmt c a).map fun f => f.fmt.bits / 8).getD 1
          (List.range (fld x.aux 48 6)).any fun r => (List.range 32).any fun k => rangesMeet (x.blockElem (x.srcAt c it) es r k) es lo n
        else rangesMeet (x.rows a x.len).1 (x.rows a x.len).2 lo n))

/-- Innermost copy `it` writes a scratchpad byte of a range at the core `cd`. -/
def CopyCmd.writesIn (x : CopyCmd) (c cd : Core) (lo n it : Nat) : Bool :=
  !x.dstGlobal && (let r := x.rows (x.dstAt cd it).toNat ((x.dlen c cd).getD 0); rangesMeet r.1 r.2 lo n)

/-- The ring and count words of a queued MMAS. -/
def QSlot.ringWords (q : QSlot) (c : Core) : Option (Word × Word) :=
  let c := { c with early := q.gsrc ++ c.early }
  match q.instr with
  | .mmas _ a b => some (c.gVal a, c.gSecond a b)
  | _ => none

/-- Entries of ring n that a queued M slot releases (R258). -/
def QSlot.releasesM (q : QSlot) (c : Core) (n : Nat) : Nat :=
  match q.ringWords c with
  | some (rw, cw) => if fld rw 0 4 = n ∨ fld rw 8 4 = n then fld cw 0 10 else 0
  | none => 0

/-- Entries of ring n that queued M slots and active commands may release before another takes one (R258, R289). -/
def Core.releasing (c : Core) (n : Nat) : Nat :=
  ((c.meq.map fun q => q.releasesM c n).foldl (· + ·) 0) + (c.copies.filter fun (x : CopyCmd) => x.sre && decide (x.sring = n)).length

/-- The command reads or writes a scratchpad byte of a range at its own core, where slots queued before it release and reserve `more` entries of
its rings. -/
def CopyCmd.touches (x : CopyCmd) (s : State) (lo n : Nat) (more : Nat × Nat := (0, 0)) : Bool :=
  let c := s.core
  if x.kind = .tfetch then rangesMeet (fld (x.w 0) 0 19) (x.allBytes s) lo n
  else
    let up := if x.sre && x.ringS.isNone then min (c.ring x.sring).count (c.releasing x.sring - (if c.copies.contains x then 1 else 0) + more.1) else 0
    (List.range (up + 1)).any fun i => (List.range (min (c.ring x.dring).count more.2 + 1)).any fun j =>
      let x := x.placedAt c i j
      let y := if x.kind = .cpym then (x.toward s c.id).1 else x
      (List.range x.iters).any fun it =>
        x.readsIn c lo n it || ((decide (x.kind ≠ .cpym) || (x.receivers s).contains c.id) && y.writesIn c c lo n it)

/-- A chunk that is being written into the core's scratchpad touches a range. -/
def State.flightIn (s : State) (core lo n : Nat) : Bool :=
  s.flights.any fun f => f.sp && decide (f.core = core) && f.words.any fun w => rangesMeet (8 * w.no) 8 lo n

/-- Some active copy command of the current core touches a scratchpad range, or a chunk is being written there. -/
def State.copiesTouch (s : State) (lo n : Nat) : Bool :=
  (s.core.copies.any fun (x : CopyCmd) => x.touches s lo n) || s.flightIn s.core.id lo n

end Sys2Proof.Machine
end

