-- ==== Sys2Proof/Machine/Sched.lean ====
section
/-!
DEFINITION. What the sorus schedulers and the couching engine do: save areas (R334, R337), task records and states (R183,
R186), dependence counters (R187), the park table (R188, R189, R342), and starting or resuming a core (R175, R337).
-/

namespace Sys2Proof.Machine

/-! ### Memory in the context of a task (R337) -/

/-- The context registers in the order of offset 0x0700: PKBASE, SGBASE, HEAPBASE, HEAPLIM, HEAPOFF, PTROOT, PFQBASE. -/
def Core.context (c : Core) : List Word := [c.pkbase, c.sgbase, c.heapbase, c.heaplim, c.heapoff, c.ptroot, c.pfqbase]
/-- Load them, without reserved bits (R8); a missing word reads zero. Log 46, DESIGN CHOICE. -/
def Core.setContext (c : Core) (l : List Word) : Core :=
  let w (n sr : Nat) : Word := l.getD n 0 &&& regBits sr
  { c with pkbase := w 0 0x184, sgbase := w 1 0x185, heapbase := w 2 0x200, heaplim := w 3 0x201, heapoff := w 4 0x202,
           ptroot := w 5 0x203, pfqbase := w 6 0x206 }

/-- The registers that a C slot goes by as they were when it issued: those of R220 and the bases of R176 (R89). -/
def Core.issued (c : Core) : List Word :=
  [c.heapbase, c.heaplim, c.heapoff, c.ptroot, c.pfqbase, c.pkbase, c.sgbase, word c.asid, c.s2root, c.keysel]
/-- Let a queued slot go by the values that it issued with. -/
def Core.under (c : Core) (l : List Word) : Core :=
  match l with
  | [a, b, d, e, f, g, h, i, j, k] =>
    { c with heapbase := a, heaplim := b, heapoff := d, ptroot := e, pfqbase := f, pkbase := g, sgbase := h, asid := i.toNat, s2root := j, keysel := k }
  | _ => c
/-- The same registers as another core value has them. -/
def Core.underOf (c from' : Core) : Core :=
  { c with heapbase := from'.heapbase, heaplim := from'.heaplim, heapoff := from'.heapoff, ptroot := from'.ptroot, pfqbase := from'.pfqbase,
           pkbase := from'.pkbase, sgbase := from'.sgbase, asid := from'.asid, s2root := from'.s2root, keysel := from'.keysel }

/-- Translate an address as the region with a context would. -/
def State.translateAs (s : State) (region : Nat) (ctx : List Word) (va : Nat) (r w : Bool) : Except Nat Nat :=
  ({ s with core := ({ s.core with region := some region } : Core).setContext ctx } : State).translate va r w false

/-- Do something on behalf of a region, in a context of it: its partition, address space and key (R230, R319, R337, R437). -/
def State.inContext (s : State) (region : Nat) (ctx : List Word) (f : State → State) : State :=
  let go (s : State) : State :=
    let t := f { s with core := ({ s.core with region := some region } : Core).setContext ctx }
    { t with core := { t.core.underOf s.core with region := s.core.region } }
  match s.region? region with
  | some r => s.forSpace r.part r.asid go
  | none => go s

/-- Runs of a longer range by page. -/
def pages : Nat → Nat → Nat → List (Nat × Nat)
  | 0, _, _ => []
  | k + 1, va, n =>
    if n = 0 then [] else
      let m := min n (4096 - va % 4096)
      (va, m) :: pages k (va + m) (n - m)

/-- Write bytes at a virtual address of a context; a page that does not translate keeps its bytes. -/
def State.writeVirt (s : State) (region : Nat) (ctx : List Word) (va : Nat) (bs : List Byte) : State :=
  s.inContext region ctx fun s =>
    ((pages (bs.length / 4096 + 2) va bs.length).foldl (fun (x : State × List Byte) p =>
      (match x.1.translate p.1 false true false with
        | .ok pa => x.1.writePhys pa (x.2.take p.2)
        | .error _ => x.1, x.2.drop p.2)) (s, bs)).1

/-- The tiles of a range of a context come in, as a read of it brings them (R218, R232). -/
def State.touchVirt (s : State) (region : Nat) (ctx : List Word) (va n : Nat) : State :=
  s.inContext region ctx fun s =>
    (pages (n / 4096 + 2) va n).foldl (fun (s : State) p =>
      match s.translate p.1 true false false with
      | .ok pa => s.touchRange pa p.2
      | .error _ => s) s

/-- Read bytes at a virtual address of a context; a page that does not translate reads zero. -/
def State.readVirt (s : State) (region : Nat) (ctx : List Word) (va n : Nat) : List Byte :=
  (pages (n / 4096 + 2) va n).flatMap fun p =>
    match s.translateAs region ctx p.1 true false with
    | .ok pa => s.mem.read pa p.2
    | .error _ => List.replicate p.2 0

/-- Write one word. -/
def State.wordTo (s : State) (region : Nat) (ctx : List Word) (va : Nat) (w : Word) : State :=
  s.writeVirt region ctx va (leBytes 8 w.toNat)
/-- Read one word. -/
def State.wordFrom (s : State) (region : Nat) (ctx : List Word) (va : Nat) : Word :=
  BitVec.ofNat 64 (leNat (s.readVirt region ctx va 8))

/-- The current core's scope-group table is read in a context of a region: its tiles come in (R192, R218). -/
def State.touchGroupsAs (s : State) (region : Nat) (ctx : List Word) : State := s.inContext region ctx fun s => s.touchGroups s.core.sgbase

/-! ### Save areas (R334, R337) -/

/-- Bytes of words, padded with zeros to n bytes. -/
def wordArea (n : Nat) (l : List Word) : List Byte :=
  let b := l.flatMap fun w => leBytes 8 w.toNat
  b ++ List.replicate (n - b.length) 0

/-- The first 2 KiB of a save area; bytes that the layout does not list are 0 (R334). Log 34, DEDUCED. -/
def saveBase (c : Core) (kind : Nat) (pc : Word) : List Byte :=
  wordArea 256 [word kind, pc, c.level.setWidth 64, c.stepclk, c.dlreg, c.stepno, c.taskid]
    ++ wordArea 512 ((List.range 64).map fun n => if n = 0 ∨ n = 63 then 0 else c.g.toList.getD n 0)
    ++ wordArea 128 (c.loops.lc.toList ++ c.loops.ls.toList ++ c.loops.le.toList ++ [orderWord c.loops.order])
    ++ ((List.range 16).flatMap fun n => leBytes 32 (c.kVal (BitVec.ofNat 4 n)).toNat)
    ++ wordArea 128 ((List.range 10).map (c.bank 2).get)
    ++ wordArea 128 ((List.range 13).map (c.bank 2).getShadow)
    ++ wordArea 128 ([c.vstat, mxstatOf c c.meq, BitVec.ofNat 64 (c.accSat.toNat + c.accPois.toNat * 2 ^ 16), c.febudget,
        c.masplit] ++ c.rqhdr.toList.map fun h => h.setWidth 64)
    ++ wordArea 256 c.context

/-- v registers and bank formats, offsets 0x0800 to 0x53FF. -/
def saveVectors (c : Core) : List Byte :=
  ((List.range 64).flatMap fun n => leBytes 256 (if n = 63 then 0 else (c.v.toList.getD n 0).toNat))
    ++ wordArea 3072 c.bf.toList

/-- Accumulators, offsets 0x1_0000 to 0x1_FFFF. -/
def saveAccs (c : Core) : List Byte := c.acc.toList.flatMap fun a => leBytes 4096 a.toNat

/-- The pieces of a task's save area to its extent (R337). -/
def saveArea (c : Core) (pc : Word) (extent : Nat) : List (Nat × List Byte) :=
  [(0, saveBase c 0 pc)] ++ (if 1 ≤ extent then [(0x800, saveVectors c)] else [])
    ++ (if extent = 2 then [(0x10000, saveAccs c)] else [])

/-- Words n on of a byte string. -/
def wordOf (bs : List Byte) (n : Nat) : Word := BitVec.ofNat 64 (leNat ((bs.drop (8 * n)).take 8))
/-- k words from word n on. -/
def wordsOf (bs : List Byte) (n k : Nat) : List Word := (List.range k).map fun i => wordOf bs (n + i)
/-- A vector from a list. -/
def vecOf {α : Type} (n : Nat) (l : List α) (x : α) : Vector α n := Vector.ofFn fun i => l.getD i.val x

/-- A trap bank from its words (R334). -/
def bankFrom (b s : List Byte) : TrapBank :=
  let b' := (List.range 10).foldl (fun (t : TrapBank) i => t.put i (wordOf b i)) {}
  (List.range 13).foldl (fun (t : TrapBank) i => t.putShadow i (wordOf s i)) b'

/-- Load the first 2 KiB of a save area into a core, without reserved bits (R8, R37, R334, R337). -/
def Core.loadBase (c : Core) (bs : List Byte) : Core :=
  let lc := vecOf 4 (wordsOf bs 96 4) 0
  let st := wordsOf bs 208 13
  { ({ c with
      pc := BitVec.ofNat 64 (fld (wordOf bs 1) 2 55 * 4), level := (wordOf bs 2).setWidth 2, stepclk := wordOf bs 3, dlreg := wordOf bs 4,
      stepno := wordOf bs 5 &&& regBits 0x182, taskid := wordOf bs 6 &&& regBits 0x183,
      g := vecOf 64 (wordsOf bs 32 64) 0,
      loops := { lc := lc, ls := vecOf 4 (wordsOf bs 100 4) 0, le := vecOf 4 (wordsOf bs 104 4) 0,
                 order := wordOrder (wordOf bs 108) lc },
      k := Vector.ofFn fun i => if i.val = 0 then 0 else BitVec.ofNat 256 (leNat ((bs.drop (0x380 + 32 * i.val)).take 32)),
      banks := c.banks.setIfInBounds 2 (bankFrom (bs.drop 0x580) (bs.drop 0x600)),
      vstat := st.getD 0 0 &&& regBits 0x100, mxstat := st.getD 1 0 &&& regBits 0x110, febudget := st.getD 3 0 &&& regBits 0x080,
      masplit := st.getD 4 0 &&& regBits 0x081,
      rqhdr := vecOf 8 ((st.drop 5).map fun w => w.setWidth 16) 0 } : Core).setContext (wordsOf bs 224 7) with
    curLen := 1 }

/-- Load v registers and bank formats. -/
def Core.loadVectors (c : Core) (bs : List Byte) : Core :=
  { c with v := Vector.ofFn fun i => BitVec.ofNat 2048 (leNat ((bs.drop (256 * i.val)).take 256)),
           bf := vecOf 384 ((wordsOf (bs.drop 0x4000) 0 384).map fun w => w &&& regBits 0x800) 0 }

/-- Load accumulators; their flags stand in ACCFLAG of the first 2 KiB. -/
def Core.loadAccs (c : Core) (bs : List Byte) (flags : Word) : Core :=
  { c with acc := Vector.ofFn fun i => BitVec.ofNat 32768 (leNat ((bs.drop (4096 * i.val)).take 4096)),
           accSat := flags.setWidth 16, accPois := (flags >>> 16).setWidth 16 }

/-! ### Tasks (R183 to R186) -/

/-- A sorus by die and number. -/
def State.sorusOf (s : State) (die idx : Nat) : Sorus :=
  (s.soruses.find? fun x => decide (x.die = die ∧ x.idx = idx)).getD { die := die, idx := idx }
/-- Put a sorus back. -/
def State.putSorus (s : State) (x : Sorus) : State :=
  { s with soruses := (s.soruses.filter fun y => !decide (y.die = x.die ∧ y.idx = x.idx)) ++ [x] }

/-- STATE of a task record (R183). -/
def Task.stateWord (t : Task) : Word := BitVec.ofNat 64 (t.st + t.base * 2 ^ 4 + t.cur * 2 ^ 8 + t.id * 2 ^ 32)
/-- The scheduler writes STATE into the record. -/
def State.noteTask (s : State) (t : Task) : State := s.wordTo t.region t.ctx (t.record + 0x20) t.stateWord
/-- Put a task back in its place. -/
def State.putTask (s : State) (t : Task) : State :=
  { s with tasks := s.tasks.map fun u => if u.id = t.id then t else u }
/-- Put a task at the tail of every list it may stand on. -/
def State.tailTask (s : State) (t : Task) : State :=
  { s with tasks := (s.tasks.filter fun u => decide (u.id ≠ t.id)) ++ [t] }
/-- A task by identifier. -/
def State.task? (s : State) (id : Nat) : Option Task := s.tasks.find? fun t => decide (t.id = id)
/-- The task that a core runs. -/
def State.myTask (s : State) (c : Core) : Option Task :=
  s.tasks.find? fun t => decide (t.id = c.taskid.toNat) && decide (t.st = 2) && decide (some t.region = c.region)

/-- A task becomes ready at the tail of its level (R186, R189). -/
def State.readyTask (s : State) (t : Task) : State :=
  let t := { t with st := 1, since := s.clk, waits := none, parkKey := none, woken := false }
  (s.tailTask t).noteTask t

/-- Sori that hold a core of a region's budget, on a die. -/
def Region.inSorus (r : Region) (s : State) (die idx : Nat) : Bool :=
  r.budget.any fun id => let c := s.coreAt id; decide (c.die = die) && decide (c.sorus = idx)

/-- The regions of the tree that a region belongs to (R194). -/
def State.tree (s : State) (root : Nat) : List Region := s.regions.filter fun r => decide (r.root = root)

/-- A sorus holds a core of the running region's tree (R187). -/
def State.treeInSorus (s : State) (idx : Nat) : Bool :=
  match s.myRegion with
  | some r => (s.tree r.root).any fun q => q.inSorus s s.core.die idx
  | none => false

/-! ### Dependence counters (R187) -/

/-- A counter's value. -/
def Sorus.counter (x : Sorus) (n : Nat) : BitVec 32 := (assocGet x.counters n).getD 0
/-- Set a counter; zero counters are not listed. -/
def Sorus.setCounter (x : Sorus) (n : Nat) (v : BitVec 32) : Sorus :=
  { x with counters := if v = 0 then assocDel x.counters n else assocPut x.counters n v }

/-- A region whose tasks stay as their records hold them: it is pre-empted or stopped (R330, R331). -/
def Region.paused (r : Region) : Bool :=
  match r.state with
  | .saving | .saved _ | .halting => true
  | _ => false

/-- The task's region is pre-empted or stopped. -/
def State.pausedTask (s : State) (t : Task) : Bool := (s.region? t.region).any Region.paused

/-- IDLE has stopped the core (R88). -/
def RunState.isIdle : RunState → Bool
  | .idle _ => true
  | _ => false

/-- A core that IDLE has stopped issues again (R88). -/
def Core.wakeIdle (c : Core) : Core := { c with run := if c.run.isIdle then .running else c.run }

/-- A dispatch or wake of a sorus scheduler wakes the sorus's cores that IDLE has stopped (R88). Log 16, DEDUCED. -/
def State.wakeSorus (s : State) (die idx : Nat) : State :=
  s.mapCores fun c => if decide (c.die = die) && !c.spare && decide (c.sorus = idx) then c.wakeIdle else c

/-- A scheduler makes a task ready, and its sorus's idle cores wake (R88, R186). -/
def State.wakeTask (s : State) (t : Task) : State := (s.readyTask t).wakeSorus t.die t.sorus

/-- Every task waiting on a counter becomes ready, in the order the tasks were spawned (R187). -/
def State.releaseWaiters (s : State) (die idx n : Nat) : State :=
  (s.tasks.filter fun t => decide (t.die = die ∧ t.sorus = idx) && decide (t.st = 4) && decide (t.waits = some n) && !s.pausedTask t).foldl
    State.wakeTask s

/-- Set a counter, with the tasks that a zero releases (R187). -/
def State.counterTo (s : State) (die idx n : Nat) (v : BitVec 32) : State :=
  let s := s.putSorus ((s.sorusOf die idx).setCounter n v)
  if v = 0 then s.releaseWaiters die idx n else s

/-- Lower a counter by one; none when it is already zero (R187, R275). -/
def State.lower (s : State) (die idx n : Nat) : Option State :=
  let v := (s.sorusOf die idx).counter n
  if v = 0 then none else some (s.counterTo die idx n (v - 1))

/-! ### The park table (R188, R189, R342) -/

/-- The bucket of a word for an address space (R342). -/
def bucketOf (asid w : Nat) : Nat := (w / 8 ^^^ w / 4096 ^^^ asid) % 256

/-- Address of the bucket that holds a parked task. -/
def bucketAddr (asid : Nat) (t : Task) : Nat := (t.ctx.getD 0 0).toNat + 16 * bucketOf asid (fld t.waitw 0 57)

/-- Link a task at the tail of its bucket (R188). -/
def State.linkTail (s : State) (asid : Nat) (t : Task) : State :=
  let b := bucketAddr asid t
  let s := s.touchVirt t.region t.ctx b 16
  let tail := s.wordFrom t.region t.ctx (b + 8)
  let s := s.wordTo t.region t.ctx (t.record + 0x10) 0
  let s := if tail = 0 then s.wordTo t.region t.ctx b (word t.record)
    else s.wordTo t.region t.ctx (tail.toNat + 0x10) (word t.record)
  s.wordTo t.region t.ctx (b + 8) (word t.record)

/-- Take a record out of its list: the predecessor found within `fuel` links is linked to the successor. -/
def State.unlinkFrom (s : State) (t : Task) (b : Nat) : Nat → Nat → State
  | 0, _ => s
  | fuel + 1, prev =>
    let s := s.touchVirt t.region t.ctx (if prev = 0 then b else prev + 0x10) 8
    let next := s.wordFrom t.region t.ctx (if prev = 0 then b else prev + 0x10)
    if next = 0 then s
    else if next.toNat = t.record then
      let s := s.touchVirt t.region t.ctx (t.record + 0x10) 8
      let after := s.wordFrom t.region t.ctx (t.record + 0x10)
      let s := s.wordTo t.region t.ctx (if prev = 0 then b else prev + 0x10) after
      if after = 0 then s.wordTo t.region t.ctx (b + 8) (word prev) else s
    else s.unlinkFrom t b fuel next.toNat

/-- Unlink a task from its bucket. -/
def State.unlink (s : State) (asid : Nat) (t : Task) : State := s.unlinkFrom t (bucketAddr asid t) (s.tasks.length + 1) 0

/-! ### Starting and resuming (R175, R337) -/

/-- A core as a launch or a task start finds it: registers, trap banks, queues and status as after reset, the scratchpad, bank formats,
rings and has-parked flags as they were (R30, R175, R307, R337). Log 33, DEDUCED. -/
def Core.fresh (c : Core) : Core :=
  { Core.atReset c.id with
    die := c.die, phys := c.phys, lcore := c.lcore, spare := c.spare, cond := c.cond, bf := c.bf, spad := c.spad, rings := c.rings,
    seq := c.seq, nextId := c.nextId, s2root := c.s2root,
    keysel := c.keysel, skew := c.skew, wins := c.wins, recvs := c.recvs, msgs := c.msgs, copies := c.copies, frozen := c.frozen,
    dlreg := c.dlreg }

/-- Bind a core to a region: its address space, partition, level and context (R175, R220, R337). -/
def Core.bind (c : Core) (s : State) (r : Region) (level : BitVec 2) (ctx : List Word) : Core :=
  let p := s.part r.part
  { c.setContext ctx with region := some r.id, asid := r.asid, part := r.part, ranFor := some r.part, level := level, run := .running,
                          s2root := word (p.s2root.getD 0), keysel := word (p.key.getD 0) }

/-- A core that starts a region or a task (R175): the bundle address, g1 to g3, and a fresh copy of the scope groups (R192). Log 33, DEDUCED. -/
def Core.startAt (c : Core) (s : State) (r : Region) (level : BitVec 2) (ctx : List Word) (entry : Nat) (g2 g3 : Word) : Core :=
  let c := (c.fresh.bind s r level ctx)
  let c := { c with pc := word entry, g := ((c.g.set 1 (word r.block)).set 2 g2).set 3 g3 }
  { c with groups := readGroups { s with core := c } c.sgbase }

/-- A task's save area is read, to its extent (R218, R337). -/
def State.touchSave (s : State) (t : Task) : State :=
  let extent := fld t.save 0 2
  let touch (s : State) (off n : Nat) : State := s.touchVirt t.region t.ctx (fld t.save 8 49 * 256 + off) n
  let s := touch s 0 0x800
  let s := if 1 ≤ extent then touch s 0x800 0x4C00 else s
  if extent = 2 then touch s 0x10000 0x10000 else s

/-- A core that resumes a task from its save area (R337); the trap banks of HV and FW, which the area does not carry, are as the core last held
them, and DLREG goes on falling (R181). Log 33, DEDUCED. -/
def Core.resume (c : Core) (s : State) (r : Region) (t : Task) : Core :=
  let extent := fld t.save 0 2
  let va := fld t.save 8 49 * 256
  let read (off n : Nat) := s.readVirt r.id t.ctx (va + off) n
  let watches := c.watches.map fun (w : Watch) => if w.armed then { w with armed := false, reason := 4 } else w
  let c := { c.fresh with watches := watches, banks := c.banks }
  let base := read 0 0x800
  let c := c.bind s r 3 t.ctx
  let c := { c.loadBase base with dlreg := c.dlreg }
  let c := if 1 ≤ extent then c.loadVectors (read 0x800 0x4C00) else c
  let c := if extent = 2 then c.loadAccs (read 0x10000 0x10000) (wordOf base 210) else c
  { c with groups := readGroups { s with core := c } c.sgbase }

end Sys2Proof.Machine
end

