-- ==== Sys2Proof/Machine/Tasks.lean ====
section
/-!
DEFINITION. The task slots: SSTEP, SPAWN, TDONE, YIELD, PARK, DCSET and DCDEC (R182 to R188), and the steps of the sorus
schedulers: dispatch, ageing, wakes (R186, R189).
-/

namespace Sys2Proof.Machine

/-! ### Leaving a core (R182, R185, R188, R207, R325) -/

/-- Every access that a task has issued is performed, but for store addresses whose data nothing can push any more (R185, R207). Log 31, DEDUCED. -/
def Core.performedAll (c : Core) : Bool := c.laq.all fun e => e.prefetch || e.unpaired e.vec

/-- Engines are drained, every access of the task is performed, every landing load has landed, and no trap waits (R185, R188, R207). -/
def Core.settled (c : Core) : Bool :=
  c.drained && c.performedAll && c.landBuf.isEmpty && c.held.isEmpty && c.pend.isNone

/-- A link command writes at another package (R403). -/
def LinkCmd.writesRemote (l : LinkCmd) : Bool :=
  match l.op with
  | .get => false
  | _ => true

/-- Every remote write of the core's task is acknowledged, and every command of it that names no barrier has ended (R277, R325). -/
def State.remoteQuiet (s : State) (c : Core) : Bool :=
  !(s.links.any fun l => decide (l.core = c.id) && l.writesRemote) && !(s.mcasts.any fun m => decide (m.src = c.id))
    && !(c.copies.any fun x => !x.target.getLsbD 0 || decide (x.kind = .cpym))

/-- The core may leave its task now (R185, R325). Log 31, DEDUCED. -/
def State.mayLeave (s : State) : Bool := s.core.settled && s.remoteQuiet s.core

/-- The core goes free: it holds no task and no region (R185). -/
def Core.freed (c : Core) : Core :=
  { c with run := .free, taskid := 0, later := [], fences := [], laq := [], sldq := [], vldq := [], ssdq := [], vsdq := [] }

/-- The last work of a region has ended: its completion record is due (R193). -/
def State.workDone (s : State) (r : Region) : State :=
  let r := { r with count := r.count - 1 }
  let s := s.putRegion r
  if r.count = 0 then s.addTodo { instr := .completionRecord, args := { n := r.id } } else s

/-- The handler of a LEASE_MISS runs: a TDONE there is the supervisor's end of the task (R228). Log 82, DEDUCED. -/
def Core.endedByMiss (c : Core) : Bool :=
  let b := c.bank c.level.toNat
  b.tstate.getLsbD 0 && decide (fld b.tcause 0 9 = 0x141)

/-- The engine commands of the current core's task that have not completed are killed, each between chunks, frames or packets, and its posted
receives; in a scheduled region the core's program is its task (R348). -/
def State.killTask (s : State) : State :=
  let mine (core : Nat) (region : Option Nat) (task : Nat) : Bool :=
    decide (region.isSome ∧ region = s.core.region ∧ task = s.core.taskid.toNat) && (!s.inScheduled || decide (core = s.core.id))
  let t := s.mapCores fun c => { c with
    copies := c.copies.map fun (x : CopyCmd) => if mine c.id x.region x.task && !x.cond then { x with doom := some (x.doom.getD 0x0B) } else x
    recvs := c.recvs.map fun (v : Receive) => if mine c.id v.region v.task && !v.cond then { v with doom := true } else v }
  let t := (t.allCores.filter fun c => c.recvs.any (·.doom)).foldl (fun (t : State) c =>
    t.addTodo { instr := .messageArrival, core := c.id, args := { flag := true } }) t
  { t with links := t.links.map fun l => if mine l.core l.region l.task && !l.cond && !l.dead then { l with doom := some (l.doom.getD 0x0B) } else l,
           nets := t.nets.map fun r => if mine r.core r.region r.task then { r with doom := some (r.doom.getD 0x0B) } else r }

/-- TDONE once the core has settled: the task is done and counted off; a core of a scheduled region retires (R185). -/
def finishTask (s : State) : State :=
  let s := if s.core.endedByMiss then s.killTask else s
  match s.myRegion with
  | none => { s with core := s.core.freed }
  | some r =>
    if r.scheduled then ({ s with core := { s.core with run := .retired } } : State).workDone r
    else
      let s := match s.myTask s.core with
        | some t => { s.noteTask { t with st := 5 } with tasks := s.tasks.filter fun u => decide (u.id ≠ t.id) }
        | none => s
      ({ s with core := s.core.freed } : State).workDone r

/-- TDONE: it commits, and when everything it waits for has happened the step acts again and ends the task (R185). Log 31, DEDUCED. -/
def execTdone (s : State) : Outcome :=
  match s.core.run with
  | .leaving _ _ => if s.mayLeave then done (finishTask s) else stall s
  | _ => done { s with core := { s.core with run := .leaving 0 0 } }

/-- The couching engine writes the task's save area and its new state (R185, R188, R337). Log 28, DESIGN CHOICE. -/
def couch (t : Task) (s : State) : State :=
  let t := { t with ctx := s.core.context, level := s.core.level }
  let s := (saveArea s.core s.core.pc (fld t.save 0 2)).foldl
    (fun (s : State) p => s.writeVirt t.region t.ctx (fld t.save 8 49 * 256 + p.1) p.2) s
  s.putTask t

/-- Another task of a level or above is ready in the sorus (R185). -/
def otherReady (t : Task) (s : State) : Bool :=
  s.tasks.any fun u => decide (u.die = t.die ∧ u.sorus = t.sorus ∧ u.st = 1 ∧ t.cur ≤ u.cur ∧ u.id ≠ t.id)

/-- The task's region has a request outstanding, so that YIELD and PARK reach the boundary (R330). -/
def State.stopsAtYield (s : State) (t : Task) : Bool :=
  (s.region? t.region).any Region.asked

/-- YIELD once the core has settled: the task goes on, or is saved and ready again at the tail of its level (R185); with a request outstanding
it is always saved (R330). -/
def yieldTask (s : State) : State :=
  match s.myTask s.core with
  | none => { s with core := { s.core with run := .running } }
  | some t =>
    if otherReady t s || s.stopsAtYield t then
      let s := couch t s
      let s := ({ s with core := s.core.freed } : State)
      match s.task? t.id with
      | some t => s.readyTask { t with fresh := none }
      | none => s
    else { s with core := { s.core with run := .running } }

/-- YIELD (R185). Log 31, DEDUCED. -/
def execYield (s : State) : Outcome :=
  match s.core.run with
  | .leaving _ _ => if s.mayLeave then done (yieldTask s) else stall s
  | _ => done { s with core := { s.core with run := .leaving 1 0 } }

/-- SSTEP: it commits, and the core issues nothing until the next compute step begins (R182). -/
def execSstep (s : State) : Outcome :=
  if s.inScheduled then done { s with core := { s.core with run := .arriving s.core.pc } } else trap 0x014 0 0 s

/-! ### PARK (R188) -/

/-- The place of a parked word: its store (0 is memory, else the core's scratchpad), and its address there. -/
def parkPlace (s : State) (w : Word) : Except Nat (Bool × Nat) :=
  let ea := fld w 0 57
  if w.getLsbD 63 then .ok (true, ea)
  else match s.translate ea true false false with
    | .error c => .error c
    | .ok pa => if inHost pa then .error 0x144 else .ok (false, pa)

/-- The checks of PARK at issue: reserved bits, then the address (R188, R100, R101, R219). -/
def parkFault (s : State) (w : Word) : Option (Nat × Word) :=
  let ea := word (fld w 0 57)
  let sp := w.getLsbD 63
  if fld w 57 5 ≠ 0 then some (0x016, 0)
  else if !sp && s.inCompute then some (0x015, 0)
  else match rangeCause s sp ea.toNat 8 with
    | some c => some (c, ea)
    | none =>
      if ea.toNat % 8 ≠ 0 then some (0x011, ea)
      else match parkPlace s w with
        | .error c => some (c, ea)
        | .ok _ => none

/-- PARK once the core has settled, in one indivisible step: set the has-parked flag, test the bit, go on or park (R188). With a request
outstanding a task that would go on is saved and ready instead (R330); work without a task goes on. Log 31, DEDUCED. Log 75, DESIGN CHOICE. -/
def parkTask (w : Word) (s : State) : State :=
  match parkPlace s w, s.myTask s.core with
  | .ok (sp, a), some t =>
    let s := if sp then { s with core := { s.core with spad := s.core.spad.setParked a true } }
      else let s := s.touchRange a 8; { s with mem := s.mem.setParked a true }
    if (s.space sp).fe a = w.getLsbD 62 then
      (if s.stopsAtYield t then yieldTask s else { s with core := { s.core with run := .running } })
    else
      let key := (if sp then s.core.id + 1 else 0, wordNo a)
      let s := couch t s
      let s := ({ s with core := s.core.freed } : State)
      match s.task? t.id with
      | some t =>
        let t := { t with st := 3, waitw := w, parkKey := some key, fresh := none }
        let s := ((s.tailTask t).noteTask t).wordTo t.region t.ctx (t.record + 0x18) w
        s.linkTail s.core.asid t
      | none => s
  | _, _ => { s with core := { s.core with run := .running } }

/-- PARK's access to a word of memory is served by its port (R188, R233). -/
def State.parkServed (s : State) (w : Word) : Option State :=
  match parkPlace s w with
  | .ok (false, a) => served s [{ off := 0, at' := a, len := 8 }]
  | _ => some s

/-- PARK (R188). Log 31, DEDUCED. Log 36, DEDUCED. -/
def execPark (a : GReg) (s : State) : Outcome :=
  match s.core.run with
  | .leaving _ w =>
    if !s.mayLeave then stall s
    else match s.parkServed w with
      | none => stall s
      | some s => done (parkTask w s)
  | _ =>
    getG a s fun w s =>
      match parkFault s w with
      | some (c, v) => trap c v 0 s
      | none => done { s with core := { s.core with run := .leaving 2 w } }

/-! ### SPAWN (R184) -/

/-- Bits of a control word that may be set (R184). -/
def spawnBits : Word := 0x7FFFFF

/-- The sorus that a control word or counter operand names: its own when LOCAL is set. -/
def sorusOperand (c : Core) (local' : Bool) (n : Nat) : Nat := if local' then c.sorus else n

/-- An index that no task of the sorus holds, found from a start that the spec leaves open (R184). Log 32, DESIGN CHOICE. -/
def freeIndex (used : List Nat) : Nat → Nat → Nat
  | 0, n => n
  | k + 1, n => if used.contains n then freeIndex used k ((n + 1) % 4096) else n

/-- The record's ENTRY and SAVE are usable; bits [63:57] of SAVE are ignored (R183, R184). Log 89, DESIGN CHOICE. -/
def recordOk (entry save : Word) : Bool := decide (entry.toNat % 64 = 0) && decide (fld save 2 6 = 0) && decide (fld save 0 2 ≠ 3)

/-- Make a new task of a region in a sorus: its identifier, record fields and start values (R183, R184, R337). -/
def newTask (s : State) (r : Region) (die idx record : Nat) (entry save : Word) (base : Nat) (ctx : List Word) (level : BitVec 2)
    (g2 : Option Word) (waitOn : Option Nat) : State × Nat :=
  let used := (s.tasks.filter fun t => decide (t.die = die ∧ t.sorus = idx)).map fun t => t.id % 4096
  let id := die * 2 ^ 16 + idx * 2 ^ 12 + freeIndex used 4096 (Config.pick s.free % 4096)
  let st := if waitOn.isSome then 4 else 1
  let start := some (g2.getD (word record), word id)
  let t : Task :=
    { id, record, region := r.id, die, sorus := idx, entry := entry.toNat, save, base, cur := base, st, since := s.clk,
      waits := waitOn, fresh := start, ctx, level }
  let s := { s with free := s.free + 1 }
  let s := s.wordTo r.id ctx (record + 0x10) 0
  ((s.tailTask t).noteTask t, id)

/-- SPAWN reads and writes the record as an access of its core (R184, R294): behind the core's earlier accesses to it and its fences (R118, R192),
and served by its port (R233). -/
def recordAccess (pa : Nat) (s : State) (k : State → Outcome) : Outcome :=
  let ps : List Piece := [{ off := 0, at' := pa, len := 64 }]
  afterAccesses false ps s fun s =>
    if !(s.core.fencesPassed s.core.nextId true) then stall s
    else match served s ps with
      | none => stall s
      | some s => k (s.touchRange pa 64)

/-- SPAWN (R184): the record's own checks come before the access kinds of its translation; the task starts at the level that the launch names
(R37). Where no task spawns it PINH takes PRIO, and in a scheduled region the task is counted and never runs. Log 32, DESIGN CHOICE. Log 76,
DEDUCED. Log 89, DESIGN CHOICE. -/
def execSpawn (d a b : GReg) (s : State) : Outcome :=
  getG a s fun rec' s => getG b s fun ctl s =>
    let idx := sorusOperand s.core (ctl.getLsbD 22) (fld ctl 18 4)
    let die := s.core.die
    match s.myRegion with
    | none => trap 0x016 0 0 s
    | some r =>
      let early := !onlyBits ctl spawnBits || decide (rec'.toNat % 64 ≠ 0) || !r.inSorus s die idx
      if early then trap 0x016 0 0 s
      else match s.translate rec'.toNat false false false with
        | .error c => trap c rec' 0 s
        | .ok pa => recordAccess pa s fun s =>
          let entry := s.mem.word pa
          let save := s.mem.word (pa + 8)
          if !recordOk entry save then trap 0x016 0 0 s
          else match s.translate rec'.toNat true true false with
          | .error c => trap c rec' 0 s
          | .ok _ =>
          if 4096 ≤ (s.tasks.filter fun t => decide (t.die = die ∧ t.sorus = idx)).length then trap 0x017 0 0 s
          else
            let base := if ctl.getLsbD 4 then ((s.myTask s.core).map (·.base)).getD (fld ctl 0 4) else fld ctl 0 4
            let n := fld ctl 6 12
            let waitOn := if ctl.getLsbD 5 && (s.sorusOf die idx).counter n != 0 then some n else none
            let (s, id) := newTask s r die idx rec'.toNat entry save base s.core.context r.level none waitOn
            setG d (word id) (match s.region? r.id with
              | some r => s.putRegion { r with count := r.count + 1 }
              | none => s)

/-! ### Dependence counters (R187) -/

/-- The counter that an operand names, when it is well formed and its sorus holds a core of the tree. -/
def counterOperand (s : State) (w : Word) : Option (Nat × Nat) :=
  let idx := sorusOperand s.core (w.getLsbD 16) (fld w 12 4)
  if onlyBits w 0x1FFFF && s.treeInSorus idx then some (idx, fld w 0 12) else none

/-- DCSET (R187). -/
def execDcset (a b : GReg) (s : State) : Outcome :=
  getG a s fun w s => getG b s fun v s =>
    match counterOperand s w with
    | none => trap 0x016 0 0 s
    | some (idx, n) => done (s.counterTo s.core.die idx n (v.setWidth 32))

/-- DCDEC (R187). -/
def execDcdec (a : GReg) (s : State) : Outcome :=
  getG a s fun w s =>
    match counterOperand s w with
    | none => trap 0x016 0 0 s
    | some (idx, n) =>
      match s.lower s.core.die idx n with
      | some s => done s
      | none => trap 0x018 0 0 s

/-! ### Steps of the scheduler (R186, R189) -/

/-- The region may run tasks now: running, and no request holds its schedulers back (R327, R330). -/
def Region.dispatches (r : Region) : Bool :=
  !r.scheduled && !r.asked && (match r.state with | .running => true | _ => false)

/-- The scan rotation controller has picked this core for its slot (R350). -/
def State.picked (s : State) (c : Core) : Bool :=
  !c.cond && ((s.scans.toList.getD c.die {}).pick.any fun x => decide (x.1 = c.phys))

/-- The task that a free core takes: of the ready tasks of its sorus whose region's budget holds the core, the oldest of the
highest level (R186). A core that is to be swapped out takes none (R350). -/
def nextTask (s : State) (c : Core) : Option Task :=
  if s.picked c && decide (2 ≤ c.level.toNat) then none else
  let may (t : Task) : Bool := decide (t.die = c.die ∧ t.sorus = c.sorus ∧ t.st = 1)
    && decide (c.region = some t.region) && (s.region? t.region).any fun r => r.dispatches && r.budget.contains c.id
  let ready := s.tasks.filter may
  let top := ready.foldl (fun m t => max m t.cur) 0
  ready.find? fun t => decide (t.cur = top)

/-- The scheduler dispatches a task to the free core (R186). -/
def execTaskDispatch (s : State) : Outcome :=
  match s.core.run, nextTask s s.core with
  | .free, some t =>
    match s.region? t.region with
    | none => done s
    | some r =>
      let s := (if t.fresh.isSome then s else s.touchSave t).touchGroupsAs t.region t.ctx
      let c := match t.fresh with
        | some (g2, g3) => { s.core.startAt s r t.level t.ctx t.entry g2 g3 with taskid := word t.id }
        | none => { s.core.resume s r t with taskid := word t.id }
      let t := { t with st := 2, cur := t.base }
      let s := ({ s with core := c } : State).putRegion
        { r with usedCores := numAdd r.usedCores c.id }
      done (((s.putTask t).noteTask t).wakeSorus t.die t.sorus)
  | _, _ => done s

/-- The task has waited 2^20 clk at its level, in a region that is not pre-empted (R186, R330). -/
def State.aged (s : State) (t : Task) : Bool := decide (t.st = 1 ∧ t.cur < 15 ∧ t.since + 2 ^ 20 ≤ s.clk) && !s.pausedTask t

/-- A ready task has waited 2^20 clk at its level: it rises by one, at the tail of the new level (R186). Log 77, DESIGN CHOICE. -/
def execTaskAgeing (s : State) : Outcome :=
  match s.task? s.args.n with
  | some t =>
    if s.aged t then
      let t := { t with cur := t.cur + 1, since := t.since + 2 ^ 20 }
      done ((s.tailTask t).noteTask t)
    else done s
  | none => done s

/-- Some task is parked on a word of a block of a store. -/
def parkedOn (s : State) (store block : Nat) : Bool :=
  s.tasks.any fun t => decide (t.st = 3) && t.parkKey.any fun k => decide (k.1 = store ∧ k.2 / 512 = block)

/-- Clear the has-parked flag of a block. -/
def State.clearParked (s : State) (store block : Nat) : State :=
  if store = 0 then { s with mem := s.mem.setParked (block * 4096) false }
  else s.onCore (store - 1) fun (c : Core) => { c with spad := c.spad.setParked (block * 4096) false }

/-- A wake finds a parked task whose word it names with the bit that the task wants (R189). -/
def Wake.finds (w : Wake) (t : Task) : Bool :=
  decide (t.st = 3) && t.parkKey.any fun k => decide (k.1 = (w.core.map (· + 1)).getD 0) && w.words.contains (k.2, t.waitw.getLsbD 62)

/-- A wake reaches a parked task: it leaves its list and becomes ready; of a pre-empted region it does so once the region resumes (R189, R330). -/
def State.wakeParked (s : State) (t : Task) : State :=
  if s.pausedTask t then s.putTask { t with woken := true }
  else (s.unlink (((s.region? t.region).map (·.asid)).getD 0) t).wakeTask t

/-- The oldest posted wake: the tasks parked on its words with the wanted bits become ready in list order, and a block without a parked task
loses its flag (R189). Log 77, DESIGN CHOICE. -/
def execParkWake (s : State) : Outcome :=
  match s.wakes with
  | [] => done s
  | w :: l =>
    let store := (w.core.map (· + 1)).getD 0
    let s := (s.tasks.filter w.finds).foldl State.wakeParked { s with wakes := l }
    done (if parkedOn s store w.block then s else s.clearParked store w.block)

end Sys2Proof.Machine
end

