-- ==== Sys2Proof/Machine/Rings.lean ====
section
/-!
DEFINITION. Barrier objects (R282 to R286) and circular buffers (R287 to R290): BARINIT, BAREXP, BARWT, RNGSET, RNGADV.
-/

namespace Sys2Proof.Machine

/-- A C slot: it reads its g operands when it is accepted, g63 by a pop; poison is an imprecise POISON_READ (R51, R346). -/
def cslot (rs : List GReg) (s : State) (k : List Word → State → Outcome) : Outcome :=
  readGs rs s fun ws bad s =>
    match bad with
    | some a => done (holdHere 0x047 a 0 s)
    | none => k ws s

/-- The n-th operand. -/
def opd (ws : List Word) (n : Nat) : Word := ws.getD n 0

/-! ### Barrier objects (R282, R286) -/

/-- Word 0 of a barrier. -/
def barWord (phase : Bool) (err pend : Nat) : Word :=
  BitVec.ofNat 64 ((if phase then 2 ^ 63 else 0) + err % 256 * 2 ^ 48 + pend % 2 ^ 40)

/-- Word 0 of the barrier at an address of the current core. -/
def State.bar (s : State) (a : Nat) : Word := s.core.spad.word a
/-- TOTAL of the barrier. -/
def State.barTotal (s : State) (a : Nat) : Nat := fld (s.core.spad.word (a + 8)) 0 40
/-- Write word 0 of a barrier. -/
def State.putBar (s : State) (a : Nat) (w : Word) : State := s.store true a (leBytes 8 w.toNat)

/-- BARINIT's effect (R283). -/
def State.barInit (s : State) (a total : Nat) : State :=
  s.store true a (leBytes 8 (barWord false 0 total).toNat ++ leBytes 8 (total % 2 ^ 40))

/-- A phase of the barrier at a completes, with this word: the chunks counted in it are complete, and a core that the change wakes from IDLE
has observed them (R88, R296). -/
def State.flipBar (s : State) (a : Nat) (w : Word) : State :=
  let t := s.putBar a w
  let counted (f : Flight) : Bool := decide (f.src = s.core.id) && f.early.contains a
  let t := if t.flights.any counted then { t with flights := t.flights.map fun f => if counted f then { f with flipped := true } else f } else t
  if s.core.run.isIdle && !t.core.run.isIdle then t.observe a 8 else t

/-- Lower PEND by b bytes (R286). -/
def State.lowerBar (s : State) (a b : Nat) : State :=
  let w := s.bar a
  let pend := fld w 0 40
  let err := fld w 48 8
  let err := if pend < b ∧ err = 0 then 0x0A else err
  if pend ≤ b then s.flipBar a (barWord (!w.getLsbD 63) err (s.barTotal a))
  else s.putBar a (barWord (w.getLsbD 63) err (pend - b))

/-- A phase completes as if PEND had reached zero (R288). -/
def State.barPhase (s : State) (a : Nat) : State :=
  let w := s.bar a
  s.flipBar a (barWord (!w.getLsbD 63) (fld w 48 8) (s.barTotal a))

/-- Write an error code where none stands (R277). -/
def State.barErr (s : State) (a code : Nat) : State :=
  let w := s.bar a
  if fld w 48 8 = 0 then s.putBar a (barWord (w.getLsbD 63) code (fld w 0 40)) else s

/-! ### Completion targets (R274, R275) -/

/-- The barrier that a completion target names. -/
def barOf (target : Word) : Option Nat := if target.getLsbD 0 then some (fld target 4 15 * 16) else none
/-- The sorus whose counter a completion target names. -/
def sorusOfTarget (c : Core) (target : Word) : Nat := sorusOperand c (target.getLsbD 48) (fld target 44 4)

/-- A completion target obeys R274. -/
def targetOk (s : State) (t : Word) : Bool :=
  onlyBits t 0x3FFFF0007FFF1 && (t.getLsbD 0 || t.getLsbD 49)
    && (!t.getLsbD 0 || decide (fld t 4 15 * 16 + 16 ≤ s.spadSize))
    && (!t.getLsbD 49 || s.treeInSorus (sorusOfTarget s.core t))

/-- A command's counter goes down; one already at zero is DC_UNDER at the core, or a record when the task has left (R275). -/
def lowerTarget (target descAddr : Word) (task asid bundle slot seq : Nat) (s : State) : State :=
  if !target.getLsbD 49 then s
  else match s.lower s.core.die (sorusOfTarget s.core target) (fld target 32 12) with
    | some s => s
    | none =>
      let t := s.impreciseTrap 0x089 target descAddr (word bundle) slot seq
      if s.core.taskid.toNat = task ∧ s.core.region.isSome then hold t s else s.recordSv t asid s.core.part

/-- An active multicast of the current core delivers to it, into the ring entry `landed` where it has reserved one (R291). -/
def CopyCmd.home (x : CopyCmd) (s : State) : Bool := decide (x.kind = .cpym) && (x.receivers s).contains s.core.id

/-- An active command of the current core counts into a barrier, or will (R266, R284). -/
def State.countsInto (s : State) (a : Nat) : Bool :=
  let c := s.core
  (c.copies.any fun (x : CopyCmd) => x.home s &&
    (let r := c.ring x.dring
     match assocGet x.landed c.id with
     | some n => decide (r.bars + 16 * (n % r.count) = a)
     | none => decide (r.bars ≤ a ∧ a < r.bars + 16 * r.count)))
  || c.copies.any fun (x : CopyCmd) => decide (barOf x.target = some a)
    || (match x.ringD with
        | some n => let r := c.ring x.dring; decide (r.bars + 16 * (n % r.count) = a)
        | none => false)

/-- The operands of BARINIT and BAREXP are well formed (R283, R284). Log 11, DEDUCED. -/
def barOperand (s : State) (a n : Word) : Bool :=
  decide (a.toNat % 16 = 0) && decide (a.toNat + 16 ≤ s.spadSize) && decide (n.toNat < 2 ^ 40)

/-- BARINIT (R283, R284). -/
def execBarinit (a b : GReg) (s : State) : Outcome :=
  cslot [a, b] s fun ws s =>
    let x := opd ws 0
    let y := opd ws 1
    if !barOperand s x y then done (holdHere 0x081 x 0 s)
    else if s.countsInto x.toNat then stall s
    else done (s.barInit x.toNat y.toNat)

/-- BAREXP: behind the commands accepted before it that count into the barrier (R266, R283, R284). -/
def execBarexp (a b : GReg) (s : State) : Outcome :=
  cslot [a, b] s fun ws s =>
    let x := opd ws 0
    let y := opd ws 1
    if !barOperand s x y then done (holdHere 0x081 x 0 s)
    else if s.countsInto x.toNat then stall s
    else
      let w := s.bar x.toNat
      let sum := fld w 0 40 + y.toNat
      let err := if 2 ^ 40 ≤ sum ∧ fld w 48 8 = 0 then 0x0A else fld w 48 8
      done (s.putBar x.toNat (barWord (w.getLsbD 63) err (min sum (2 ^ 40 - 1))))

/-- A queued slot changes a barrier by hand (R285). -/
def isBarSlot (q : QSlot) : Bool :=
  match q.instr with
  | .barinit _ _ | .barexp _ _ => true
  | _ => false

/-- BARWT: the checks, then the bundle is held until the phase differs, which the core then observes (R285, R296). -/
def execBarwt (a b : GReg) (s : State) : Outcome :=
  getG a s fun x s => getG b s fun y s =>
    if s.spadSize < x.toNat + 16 then trap 0x00F x 0 s
    else if x.toNat % 16 ≠ 0 then trap 0x011 x 0 s
    else if !onlyBits y 1 then trap 0x019 0 0 s
    else if !s.core.ceq.flatten.any isBarSlot && decide ((s.bar x.toNat).getLsbD 63 ≠ y.getLsbD 0) then
      done { s.observe x.toNat 8 with core := { s.core with run := .running } }
    else if s.core.run = .barwt then stall s
    else waits { s with core := { s.core with run := .barwt } }

/-! ### Rings (R287 to R290) -/

/-- Address of the barrier of entry x. -/
def Ring.barrier (r : Ring) (x : Nat) : Nat := r.bars + 16 * (x % r.count)

/-- PROD passes every entry that has completed (R289). -/
def Ring.settle : Nat → Ring → Ring
  | 0, r => r
  | n + 1, r => if r.filled.contains r.prod then
      Ring.settle n { r with filled := r.filled.filter (· ≠ r.prod), prod := r.prod + 1 } else r

/-- An entry has completed (R289). -/
def Ring.fill (r : Ring) (x : Nat) : Ring := Ring.settle (r.filled.length + 1) { r with filled := numAdd r.filled x }

/-- Operands of RNGSET within their ranges (R288). -/
def ringSetOk (s : State) (x y : Word) : Bool :=
  let esize := fld x 20 16
  let count := fld y 32 9
  onlyBits x 0xFFFFF7FFFF && onlyBits y 0x1FF0007FFFF && decide (esize % 32 = 0 ∧ 32 ≤ esize ∧ esize ≤ 65504)
    && decide (fld x 0 19 % 32 = 0) && decide (1 ≤ count ∧ count ≤ 256) && decide (fld y 0 19 % 16 = 0)
    && decide (fld x 0 19 + esize * count ≤ s.spadSize) && decide (fld y 0 19 + 16 * count ≤ s.spadSize)

/-- An active command of the current core fills an entry of the ring, or will, a multicast to itself among them (R266, R289, R291). -/
def State.fillsRing (s : State) (n : Nat) : Bool :=
  s.core.copies.any fun (x : CopyCmd) => (x.ringD.isSome || x.home s) && decide (x.dring = n)
/-- An active command reads, or will read, an entry of the ring (R289). -/
def Core.drainsRing (c : Core) (n : Nat) : Bool := c.copies.any fun (x : CopyCmd) => x.sre && decide (x.sring = n)
/-- An active command of the current core holds an entry of the ring, or will (R266, R288). -/
def State.holdsRing (s : State) (n : Nat) : Bool :=
  s.fillsRing n || s.core.copies.any fun (x : CopyCmd) => x.ringS.isSome && decide (x.sring = n)

/-- The MMAS at the head of the matrix queue waits on the ring: it traps MTX_RING and leaves (R258, R288). -/
def dropMmas (n : Nat) (s : State) : State :=
  match s.core.meq with
  | q :: r =>
    match q.instr with
    | .mmas _ a _ =>
      let w := (overlay q.gsrc a).getD 0
      if fld w 0 4 = n ∨ fld w 8 4 = n then
        hold (s.impreciseTrap 0x044 (word n) 0 q.bundle q.slot q.seq) { s with core := { s.core with meq := r } }
      else s
    | _ => s
  | [] => s

/-- RNGSET (R288). -/
def execRngset (a b : GReg) (s : State) : Outcome :=
  cslot [a, b] s fun ws s =>
    let x := opd ws 0
    let y := opd ws 1
    if !ringSetOk s x y then done (holdHere 0x083 x 0 s)
    else
      let n := fld x 36 4
      let r : Ring := { isSet := true, base := fld x 0 19, esize := fld x 20 16, count := fld y 32 9, bars := fld y 0 19 }
      if s.holdsRing n || (List.range r.count).any fun i => s.countsInto (r.barrier i) then stall s
      else
        let s := dropMmas n s
        let s := (List.range r.count).foldl (fun (s : State) i => s.barInit (r.barrier i) r.esize) s
        done { s with core := s.core.putRing n r }

/-- What both sides of RNGADV check first (R288). -/
def ringAdvance (a b : GReg) (s : State) (k : Word → Nat → Nat → Ring → State → Outcome) : Outcome :=
  cslot [a, b] s fun ws s =>
    let x := opd ws 0
    let y := opd ws 1
    let r := s.core.ring (fld x 0 4)
    if !onlyBits x 0x3F || decide (2 ≤ fld x 4 2) || !onlyBits y 0x1FF || !r.isSet || decide (y = 0) || decide (r.count < y.toNat) then
      done (holdHere 0x083 x 0 s)
    else k x (fld x 0 4) y.toNat r s

/-- RNGADV, release: behind the commands accepted before it that fill or release entries of the ring (R266, R288). -/
def execRngadvRelease (a b : GReg) (s : State) : Outcome :=
  ringAdvance a b s fun x n k r s =>
    if fld x 4 2 ≠ 0 then done (holdHere 0x083 x 0 s)
    else if s.fillsRing n || s.core.drainsRing n then stall s
    else if r.prod < r.cons + k then done (holdHere 0x083 x 0 s)
    else done { s with core := s.core.putRing n { r with cons := r.cons + k } }

/-- RNGADV, commit: earlier stores are performed first, and the commands accepted before it that fill entries of the ring have done so (R266,
R288). -/
def execRngadvCommit (a b : GReg) (s : State) : Outcome :=
  ringAdvance a b s fun x n k r s =>
    if fld x 4 2 ≠ 1 then done (holdHere 0x083 x 0 s)
    else if s.core.laq.any fun e => e.writes && decide (e.seq ≤ s.core.curSeq) then stall s
    else if s.fillsRing n then stall s
    else if r.rsv ≠ r.prod ∨ r.cons + r.count < r.rsv + k then done (holdHere 0x083 x 0 s)
    else
      let s := (List.range k).foldl (fun (s : State) i => s.barPhase (r.barrier (r.prod + i))) s
      done { s with core := s.core.putRing n { r with rsv := r.rsv + k, prod := r.prod + k } }

end Sys2Proof.Machine
end

