-- ==== Sys2Proof/Machine/Scopes.lean ====
section
/-!
DEFINITION. Watches (R190, R191) and the scope instructions ACQ, REL, FENCE, FENCE.X and PROMOTE (R192, R197, R205, R297).
-/

namespace Sys2Proof.Machine

/-- Continue once every earlier access of the core has been performed; a store that can never have its data is stuck (R50). -/
def allPerformed (s : State) (k : State → Outcome) : Outcome :=
  if s.core.laq.all fun e => e.prefetch then k s
  else match s.core.laq.find? fun e => (e.unpaired false && decide (s.core.gPushes = 0)) || (e.unpaired true && decide (s.core.vPushes = 0)) with
    | some e => trap 0x005 (if e.vec then 4 else 3) 0 s
    | none => stall s

/-- MON's address: checked as an 8-byte access, translated for reading, not in host memory (R178, R190, R216, R450). Log 36, DEDUCED. -/
def monPlace (s : State) (sp : Bool) (ea : Word) : Except Nat Nat :=
  if !sp && s.inCompute then .error 0x015
  else match rangeCause s sp ea.toNat 8 with
    | some c => .error c
    | none =>
      if ea.toNat % 8 ≠ 0 then .error 0x011
      else if sp then .ok ea.toNat
      else match s.translate ea.toNat true false false with
        | .error c => .error c
        | .ok pa => if inHost pa then .error 0x144 else .ok pa

/-- MON: every earlier access is performed, then the entry is armed on the word (R190). -/
def execMon (n : BitVec 4) (a : GReg) (imm : BitVec 9) (gl : Bool) (s : State) : Outcome :=
  getG a s fun x s =>
    let ea := x + 8 * sext9 imm
    match monPlace s (!gl) ea with
    | .error c => trap c (if c = 0x015 then 0 else ea) 0 s
    | .ok p => throughWindows false (if gl then [] else [(p, ea, 0)]) s fun s => allPerformed s fun s =>
      let w : Watch := { armed := true, sp := !gl, addr := wordNo p, reason := 0 }
      done { s with core := { s.core with watches := s.core.watches.set n.toNat w n.isLt } }

/-- The masked entries that satisfy a test, as a mask. -/
def watchMask (c : Core) (m : BitVec 16) (f : Watch → Bool) : BitVec 16 :=
  BitVec.ofNat 16 ((List.range 16).foldr (fun i n => 2 * n + (if m.getLsbD i && f (c.watches.toList.getD i {}) then 1 else 0)) 0)

/-- Disarm the entries of a mask (R191). -/
def Core.disarm (c : Core) (m : BitVec 16) : Core :=
  { c with watches := Vector.ofFn fun i => if m.getLsbD i.val then {} else c.watches.get i }

/-- The reason that a report gives: that of the lowest entry that reports (R191). Log 66, DESIGN CHOICE. -/
def reportReason (c : Core) (hits : BitVec 16) : Nat :=
  (((List.range 16).find? fun i => hits.getLsbD i).map fun i => (c.watches.toList.getD i {}).reason).getD 0

/-- The core reads the words of the scratchpad whose entries report (R191, R296). -/
def State.observeWatches (s : State) (hits : BitVec 16) : State :=
  (List.range 16).foldl (fun (s : State) i =>
    let w := s.core.watches.toList.getD i {}
    if hits.getLsbD i && w.sp then s.observe (8 * w.addr) 8 else s) s

/-- WAITM: it returns at once with no masked entry armed, on a report, or on a timeout; else it waits (R191). -/
def execWaitm (d a : GReg) (s : State) : Outcome :=
  getG a s fun x s =>
    let m := BitVec.ofNat 16 (fld x 48 16)
    let c := s.core
    let hits := watchMask c m fun w => decide (w.reason ≠ 0)
    let giveUp (s : State) : Outcome :=
      setG d (BitVec.ofNat 64 (2 * 2 ^ 16)) { s with core := { s.core with run := .running } }
    if hits ≠ 0 then
      setG d (BitVec.ofNat 64 (reportReason c hits * 2 ^ 16 + hits.toNat))
        { s.observeWatches hits with core := { c.disarm hits with run := .running } }
    else if watchMask c m (fun w => w.armed) = 0 then setG d 0 { s with core := { c with run := .running } }
    else match c.run with
      | .waitm _ u _ => if u ≤ s.clk then giveUp s else waits s
      | _ =>
        if fld x 0 48 = 0 then giveUp s
        else
          let u := s.clk + fld x 0 48
          waits (({ s with core := { c with run := .waitm m u d } } : State).addTimer
            { instr := .waitmTimeout, core := c.id, at' := u })

/-- The time of a waiting WAITM has passed: it returns reason 2 when its bundle issues again (R191). -/
def execWaitmTimeout (s : State) : Outcome :=
  match s.core.run with
  | .waitm m u d => if u ≤ s.clk then done { s with core := { s.core with run := .waitm m 0 d } } else done s
  | _ => done s

/-! ### Scopes (R192). In this model every access is performed at every scope at once, so a scope decides nothing further: what a release has
covered is performed at every scope when its write is, and a promotion (R205) has nothing more to wait for. -/

/-- Remember a fence behind those that have not taken effect yet (R192, R202). -/
def Core.fence (c : Core) (acq rel : Bool) : Core :=
  { c with fences := (c.fences.filter fun f => !c.fenceDone f) ++ [{ at' := c.nextId, acq := acq, rel := rel }] }

/-- Later accesses wait for every earlier load, atomic and synchronising access; an open promotion closes (R192, R205). Log 6, DESIGN CHOICE. -/
def Core.acquire (c : Core) : Core := { c.fence true false with promo := none }
/-- Later stores, atomics and synchronising accesses wait for every earlier access (R192). Log 6, DESIGN CHOICE. -/
def Core.release (c : Core) : Core := c.fence false true
/-- Every later access waits for every earlier one; an open promotion closes (R192, R203, R205). Log 6, DESIGN CHOICE. -/
def Core.fenceBoth (c : Core) : Core := { c.fence true true with promo := none }

/-- ACQ (R192). -/
def execAcq (_ : Scope) (s : State) : Outcome := done { s with core := s.core.acquire }
/-- REL (R192). -/
def execRel (_ : Scope) (s : State) : Outcome := done { s with core := s.core.release }
/-- FENCE (R192, R203). -/
def execFence (_ : Scope) (s : State) : Outcome := done { s with core := s.core.fenceBoth }

/-- A queued C slot that commands the link engine (R294). -/
def isLink (i : Instr) : Bool := engineBit i == some 3
/-- A queued C slot that commands the network engine (R294). -/
def isNet (i : Instr) : Bool := engineBit i == some 4

/-- Some slot issued before and of a path in the mask has not executed (R297). -/
def pathBusy (c : Core) (mask : BitVec 6) : Bool :=
  let cq := c.ceq.flatten
  (mask.getLsbD 0 && !c.veq.isEmpty) || (mask.getLsbD 1 && !c.meq.isEmpty)
    || (mask.getLsbD 2 && cq.any fun q => !isLink q.instr && !isNet q.instr)
    || (mask.getLsbD 3 && cq.any fun q => isLink q.instr) || (mask.getLsbD 4 && cq.any fun q => isNet q.instr)

/-- What the core has observed complete of its copies, links or writes to host memory, as the mask names them, is still being written to memory
(R296 to R298). A network request's writes are made before they count. -/
def State.unwritten (s : State) (mask : BitVec 6) : Bool :=
  s.flights.any fun f => f.seen && !f.sp && decide (f.src = s.core.id)
    && ((mask.getLsbD 2 && decide (f.path = .copy)) || (mask.getLsbD 3 && decide (f.path = .link))
      || (mask.getLsbD 5 && f.words.any fun w => inHost (8 * w.no)))

/-- FENCE.X (R297, R298): the engines of its paths have executed what was issued, the transfers that the core has observed complete and the
accesses of CORE are performed, then FENCE. Log 6, DESIGN CHOICE. -/
def execFenceX (mask : BitVec 6) (sc : Scope) (s : State) : Outcome :=
  if pathBusy s.core mask || s.unwritten mask then stall s
  else if mask.getLsbD 0 then allPerformed s (execFence sc) else execFence sc s

/-- PROMOTE: the address is checked as an 8-byte access for reading; a promotion of the word opens, then it acts as ACQ (R192, R205). Log 6, DESIGN CHOICE. Log 36, DEDUCED. -/
def execPromote (a : GReg) (sc : Scope) (s : State) : Outcome :=
  getG a s fun ea s =>
    match monPlace s false ea with
    | .error c => trap c (if c = 0x015 then 0 else ea) 0 s
    | .ok p => done { s with core := { s.core.acquire with promo := some (p, sc) } }

end Sys2Proof.Machine
end

