-- ==== Sys2Proof/Machine/Windows.lean ====
section
/-!
DEFINITION. Coherent scratchpad windows: WDECL, WDROP, ACQT, RELT (R378 to R389), and the directory's steps (R382 to R384,
R391 to R393).
-/

namespace Sys2Proof.Machine

/-! ### The directory -/

/-- A window by identifier. -/
def State.win? (s : State) (wid : Nat) : Option DirWin := s.dir.find? fun w => decide (w.wid = wid)
/-- Put a window back. -/
def State.putWin (s : State) (w : DirWin) : State := { s with dir := s.dir.map fun x => if x.wid = w.wid then w else x }
/-- A tile of a window. -/
def DirWin.tile (w : DirWin) (n : Nat) : DirTile := w.tiles.getD n {}
/-- Put a tile back. -/
def DirWin.setTile (w : DirWin) (n : Nat) (t : DirTile) : DirWin := { w with tiles := w.tiles.set n t }
/-- The physical core of a participant. -/
def DirWin.coreOf (w : DirWin) (who : Nat) : Nat := ((w.parts.find? fun p => decide (p.1 = who)).map (·.2.1)).getD 0
/-- Physical address of byte x of the image. -/
def DirWin.place (w : DirWin) (x : Nat) : Nat := w.frames.getD ((w.image % 4096 + x) / 4096) 0 * 4096 + (w.image + x) % 4096

/-- A participant that is a core of another package (R391). Log 52, DESIGN CHOICE. -/
def DirWin.isAway (w : DirWin) (who : Nat) : Bool := w.away.any fun p => decide (p.1 = who)
/-- A participant of the window. -/
def DirWin.has (w : DirWin) (who : Nat) : Bool := (w.parts.any fun p => decide (p.1 = who)) || w.isAway who
/-- The numbers of the participants. -/
def DirWin.numbers (w : DirWin) : List Nat := w.parts.map (·.1) ++ w.away.map (·.1)
/-- What the entry says that a participant holds. -/
def DirTile.heldBy (t : DirTile) (who : Nat) : TileState :=
  if t.sharers.contains who then .s
  else if t.owner ≠ who then .i
  else match t.st with
    | .e => .e
    | .m => .m
    | .o => .o
    | _ => .i

/-- A participant's declaration on its core. -/
def Core.decl? (c : Core) (wid : Nat) : Option WinDecl := c.wins.find? fun (d : WinDecl) => decide (d.wid = wid)
/-- Local state of a tile at a participant. -/
def State.localState (s : State) (w : DirWin) (who n : Nat) : TileState :=
  if w.isAway who then (w.tile n).heldBy who
  else (((s.coreAt (w.coreOf who)).decl? w.wid).map fun d => d.tiles.getD n .i).getD .i
/-- Set it. -/
def State.setLocal (s : State) (w : DirWin) (who n : Nat) (t : TileState) : State :=
  if w.isAway who then s
  else s.onCore (w.coreOf who) fun (c : Core) =>
    { c with wins := c.wins.map fun (d : WinDecl) => if d.wid = w.wid then { d with tiles := d.tiles.set n t } else d }

/-- The local copy of a tile at a participant; from another package, the copy that it has sent. -/
def State.localCopy (s : State) (w : DirWin) (who n : Nat) : Lump :=
  if w.isAway who then (w.tile n).carry
  else
  let c := s.coreAt (w.coreOf who)
  match c.decl? w.wid with
  | some d => c.spad.lump (d.lbase + n * 2 ^ w.tl) (2 ^ w.tl)
  | none => []

/-- The image of a tile, in pieces of 128 bytes. -/
def State.imageCopy (s : State) (w : DirWin) (n : Nat) : Lump :=
  (List.range (2 ^ w.tl / 128)).flatMap fun i => s.mem.lump (w.place (n * 2 ^ w.tl + 128 * i)) 128

/-- The memory tiles of a window tile's image come in, with their checks (R218, R232). -/
def State.touchImage (s : State) (w : DirWin) (n : Nat) : State :=
  (s.touchTiles ((List.range (2 ^ w.tl / 128)).map fun i => w.place (n * 2 ^ w.tl + 128 * i) / 4096).eraseDups).1

/-- Write a tile back to the image, in pieces of 128 bytes (R384). -/
def State.writeBack (s : State) (w : DirWin) (n : Nat) (l : Lump) : State :=
  (List.range (l.length / 128)).foldl
    (fun (s : State) i => s.putLump false .carried (w.place (n * 2 ^ w.tl + 128 * i)) ((l.drop (128 * i)).take 128)) s

/-- A watch that an invalidation or a fill of scratchpad words lo to hi reaches (R382). -/
def State.seeTile (s : State) (w : DirWin) (who n : Nat) : State :=
  if w.isAway who then s
  else s.onCore (w.coreOf who) fun (c : Core) =>
    match c.decl? w.wid with
    | some d => c.seeSpad (wordNo (d.lbase + n * 2 ^ w.tl)) (wordNo (d.lbase + (n + 1) * 2 ^ w.tl - 1))
    | none => c

/-- The core has performed every access under the tile's old state, and no busy granule holds the tile (R382). -/
def tileQuiet (s : State) (w : DirWin) (who n : Nat) : Bool :=
  w.isAway who ||
  let c := s.coreAt (w.coreOf who)
  match c.decl? w.wid with
  | some d =>
    let p : List Piece := [{ off := 0, at' := d.lbase + n * 2 ^ w.tl, len := 2 ^ w.tl }]
    c.clearOf true p && !c.granuleBusy p && !s.flightIn c.id (d.lbase + n * 2 ^ w.tl) (2 ^ w.tl)
  | none => true

/-- The holders that must answer before the requester is served (R384): for GetS an owner that loses E or M, or sends its copy from another
package; for GetM every other holder. -/
def mustAnswer (w : DirWin) (t : DirTile) (kind who : Nat) : List Nat :=
  let owner := match t.st with
    | .e | .m | .o => [t.owner]
    | _ => []
  if kind = 0 then owner.filter fun o => decide (o ≠ who) && (decide (t.st ≠ .o) || w.isAway o)
  else (owner ++ t.sharers).filter (· ≠ who)

/-- The home takes a request for data of an idle tile: the holders concerned are asked (R383, R384); one in another package answers by an
INVALIDATION of its own. -/
def serve (s : State) (w : DirWin) (n kind who : Nat) : State :=
  let t := w.tile n
  let ask := mustAnswer w t kind who
  let s := s.putWin (w.setTile n { t with busy := some (who, kind), waits := ask })
  if ask.isEmpty then s.addTodo { instr := .windowFill, core := w.coreOf who, args := { n := w.wid, m := n, p := who } }
  else (ask.filter fun o => !w.isAway o).foldl (fun (s : State) o => s.addTodo
    { instr := .invalidation, core := w.coreOf o, args := { n := w.wid, m := n, p := o, flag := decide (kind = 0) } }) s

/-- A core of package `pkg` declares the window as participant `who`, where the home may take it (R378, R380). Log 52, DESIGN CHOICE. -/
def DirWin.join (w : DirWin) (who : Nat) (pkg : List Nat) : DirWin :=
  match pkg with
  | [g] => if w.has who || w.degraded || decide (256 ≤ w.numbers.length) then w else { w with away := w.away ++ [(who, g)] }
  | _ => w

/-- A request arrives at the home: it waits behind a busy tile, else it is served (R383). The first request of a participant in another
package names that package. Log 78, DESIGN CHOICE. -/
def request (kind : Nat) (s : State) : Outcome :=
  match s.win? s.args.n with
  | none => done s
  | some w =>
    let n := s.args.m
    let who := s.args.p
    let w := w.join who s.args.list
    if w.tiles.length ≤ n ∨ !w.has who then done s
    else
      let t := w.tile n
      if t.busy.isSome then done (s.putWin (w.setTile n { t with queue := t.queue ++ [{ kind, who }] }))
      else done (serve s w n kind who)

/-- GetS (R384). -/
def execGets (s : State) : Outcome := request 0 s
/-- GetM (R384). -/
def execGetm (s : State) : Outcome := request 1 s

/-- The copy that a message from another package brings. -/
def State.carried (s : State) : Lump := (s.args.ack.map fun a => a.data).getD []

/-- An invalidation, or a forward that takes ownership away (R382): once the holder is quiet it changes its state and answers;
an owner that had moved to M answers so (R384). The last answer lets the requester be filled. The answer of a core of another
package brings its copy, and a word that is not 0 when it had moved to M. -/
def execInvalidation (s : State) : Outcome :=
  match s.win? s.args.n with
  | none => done s
  | some w =>
    let n := s.args.m
    let who := s.args.p
    let t := w.tile n
    if !t.waits.contains who then done s
    else if !tileQuiet s w who n then stall s
    else
      let was := if w.isAway who && decide (s.args.w ≠ 0) then .m else s.localState w who n
      let now : TileState := if s.args.flag then (match was with | .m => .o | .o => .o | _ => .s) else .i
      let t := { t with waits := t.waits.filter (· ≠ who), st := if t.st = .e ∧ was = .m then .m else t.st, carry := if w.isAway who then s.carried else t.carry }
      let s := ((s.putWin (w.setTile n t)).setLocal w who n now)
      let s := if s.args.flag then s else s.seeTile w who n
      match t.busy with
      | some (r, _) => if t.waits.isEmpty then
          done (s.addTodo { instr := .windowFill, core := w.coreOf r, args := { n := w.wid, m := n, p := r } })
        else done s
      | none => done s

/-- The entry after a request has been served; a GetS of a tile's own owner leaves it (R384). -/
def DirTile.after (t : DirTile) (who kind : Nat) : DirTile × TileState :=
  let t := { t with busy := none, waits := [], carry := [] }
  if kind = 1 then ({ t with st := .m, owner := who, sharers := [] }, .m)
  else if t.owner = who ∧ t.heldBy who ≠ .i then (t, t.heldBy who)
  else match t.st with
    | .i => ({ t with st := .e, owner := who, sharers := [] }, .e)
    | .s => ({ t with sharers := numAdd t.sharers who }, .s)
    | .e => ({ t with st := .s, sharers := numAdd (numAdd [] t.owner) who }, .s)
    | .m => ({ t with st := .o, sharers := numAdd [] who }, .s)
    | .o => ({ t with sharers := numAdd t.sharers who }, .s)

/-- A fill replaces the local bytes of the tile and their bits; watches see it and changed bits post wakes (R382). -/
def fillCopy (s : State) (w : DirWin) (n who : Nat) (data : Lump) : State :=
  if w.isAway who then s
  else
  let here := s.core.id
  let s := s.focus (w.coreOf who)
  let s := match s.core.decl? w.wid with
    | some d =>
      let base := d.lbase + n * 2 ^ w.tl
      let s := (s.writeSpad base (data.map (fun (x : Byte × Bool × Bool) => x.1))).feRange true .carried base data
      (data.zipIdx).foldl (fun (s : State) (x : (Byte × Bool × Bool) × Nat) => if x.1.2.2 then s.poisonAt true (base + x.2) else s) s
    | none => s
  s.focus here

/-- One participant's copy of a tile is dropped (R384). -/
def dropTile (s : State) (wid n who : Nat) : State :=
  match s.win? wid with
  | none => s
  | some w =>
    let t := w.tile n
    let dirty := match s.localState w who n, t.st with
      | .m, _ | .o, _ | _, .m | _, .o => true
      | _, _ => false
    let owned : Bool := match t.st with
      | .e | .m | .o => decide (t.owner = who)
      | _ => false
    let s := if owned && dirty then s.writeBack w n (s.localCopy w who n) else s
    let rest := t.sharers.filter (· ≠ who)
    let t' : DirTile :=
      if owned then
        (match t.st with
          | .o => { t with st := if rest.isEmpty then .i else .s, sharers := rest }
          | _ => { t with st := .i, sharers := [] })
      else match t.st with
        | .s => { t with st := if rest.isEmpty then .i else .s, sharers := rest }
        | .o => { t with st := if rest.isEmpty then .m else .o, sharers := rest }
        | _ => t
    let s := s.putWin (w.setTile n t')
    let s := s.setLocal w who n .i
    if !owned && decide (t.st = .o) && rest.isEmpty then s.setLocal w t.owner n .m else s

/-- A participant leaves a window; the last one frees it (R389). -/
def leaveWindow (s : State) (wid who : Nat) : State :=
  let dir := s.dir.map fun w =>
    if w.wid = wid then { w with parts := w.parts.filter fun p => decide (p.1 ≠ who), away := w.away.filter fun p => decide (p.1 ≠ who) } else w
  { s with dir := dir.filter fun w => !(decide (w.wid = wid) && w.parts.isEmpty && w.away.isEmpty) }

/-- A drop by a participant takes place; one of another package brings its copy, and says whether it had moved to M (R384). -/
def takeDrop (s : State) (w : DirWin) (n : Nat) (q : DirReq) : State :=
  let t := w.tile n
  let s := if w.isAway q.who then
      s.putWin (w.setTile n { t with carry := q.data, st := if t.st = .e ∧ t.owner = q.who ∧ q.hadM then .m else t.st })
    else s
  let s := dropTile s w.wid n q.who
  if w.isAway q.who && q.leaves then leaveWindow s w.wid q.who else s

/-- An idle tile serves the requests that wait for it, in their order, up to the first that makes it busy (R383). -/
def serveQueue (wid n : Nat) : List DirReq → State → State
  | [], s => s
  | q :: l, s =>
    match s.win? wid with
    | none => s
    | some w =>
      let w := w.setTile n { w.tile n with queue := l }
      if q.kind = 2 then serveQueue wid n l (takeDrop (s.putWin w) w n q) else serve s w n q.kind q.who

/-- The tile has become idle: the next requests are served (R383). -/
def serveNext (s : State) (wid n : Nat) : State :=
  match s.win? wid with
  | none => s
  | some w => if (w.tile n).busy.isSome then s else serveQueue wid n (w.tile n).queue s

/-- The fill reaches the requester: data from the owner or the image, unless it holds a copy; then the next request is served
(R382 to R384). -/
def execWindowFill (s : State) : Outcome :=
  match s.win? s.args.n with
  | none => done s
  | some w =>
    let n := s.args.m
    let t := w.tile n
    match t.busy with
    | none => done s
    | some (who, kind) =>
      if who ≠ s.args.p ∨ !t.waits.isEmpty then done s
      else
        let holds := s.localState w who n ≠ .i
        if !holds && !tileQuiet s w who n then stall s
        else
          let fromOwner : Bool := match t.st with
            | .e | .m | .o => decide (t.owner ≠ who)
            | _ => false
          let s := if fromOwner || holds then s else s.touchImage w n
          let data : Lump := if fromOwner then s.localCopy w t.owner n else s.imageCopy w n
          let (t', local') := t.after who kind
          let s := s.putWin (w.setTile n t')
          let s := if holds then s else fillCopy s w n who data
          let s := if holds && decide (kind = 0) then s else s.setLocal w who n local'
          done (serveNext s w.wid n)

/-- The notice that an owner has written its E tile (R381, R384): the home makes E(o) into M(o), else discards it. -/
def execNoticeEToM (s : State) : Outcome :=
  match s.win? s.args.n with
  | none => done s
  | some w =>
    let t := w.tile s.args.m
    if t.st = .e ∧ t.owner = s.args.p then done (s.putWin (w.setTile s.args.m { t with st := .m })) else done s

/-- Drop, as a request of its own (R384). One from another package brings the copy; its last one, with `flag`, leaves the window. Log 78, DESIGN CHOICE. -/
def execDrop (s : State) : Outcome :=
  match s.win? s.args.n with
  | none => done s
  | some w =>
    let n := s.args.m
    let t := w.tile n
    let q : DirReq := { kind := 2, who := s.args.p, data := s.carried, hadM := decide (s.args.w ≠ 0), leaves := s.args.flag }
    if w.tiles.length ≤ n then done s
    else if t.busy.isSome then done (s.putWin (w.setTile n { t with queue := t.queue ++ [q] }))
    else done (serveNext (takeDrop s w n q) w.wid n)

/-- A core gives one declaration up, as WDROP does (R389, R390). -/
def dropDecl (s : State) (d : WinDecl) : State :=
  let s := (List.range d.nt).foldl (fun (s : State) n => dropTile s d.wid n d.who) s
  let s := leaveWindow s d.wid d.who
  { s with core := { s.core with wins := s.core.wins.filter fun (x : WinDecl) => decide (x.slot ≠ d.slot) } }

/-- Every declaration of the current core is dropped (R390). -/
def dropAll (s : State) : State := s.core.wins.foldl dropDecl s

/-! ### Loss (R391 to R393) -/

/-- The copy that a holder writes back: a core of another package sends bytes that this model leaves open. Log 52, DESIGN CHOICE. -/
def heldCopy (s : State) (w : DirWin) (who n : Nat) : Lump × State :=
  if w.isAway who then
    ((List.range (2 ^ w.tl)).map fun i =>
      (BitVec.ofNat 8 (Config.pick (s.free + i)), decide (Config.pick (s.free + i / 8 * 8) / 256 % 2 = 1), decide (Config.pick (s.free + i / 32 * 32) / 512 % 2 = 1)),
     { s with free := s.free + 2 ^ w.tl })
  else (s.localCopy w who n, s)

/-- Every sector of a tile's image is poisoned (R391). -/
def State.poisonImage (s : State) (w : DirWin) (n : Nat) : State :=
  (List.range (2 ^ w.tl / 32)).foldl (fun (s : State) i => s.poisonAt false (w.place (n * 2 ^ w.tl + 32 * i))) s

/-- A WINDOW_LOST record to the FRQS ring of every participant of this package (R391, R393). -/
def recordLost (s : State) (w : DirWin) (n why : Nat) : State :=
  w.parts.foldl (fun (s : State) p =>
    let c := s.coreAt p.2.1
    s.recordSv { code := 0x149, tval := BitVec.ofNat 64 (w.wid * 2 ^ 32 + n), tval2 := word why, tinfo := s.vatInfo } c.asid c.part) s

/-- The window is degraded until it is freed (R393). -/
def markDegraded (s : State) (wid : Nat) : State :=
  { s with dir := s.dir.map fun w => if w.wid = wid then { w with degraded := true } else w }

/-- Once a loss has settled an entry, a request under way that waits for nobody is filled, and an idle tile serves the next. -/
def settle (s : State) (wid n : Nat) : State :=
  match s.win? wid with
  | none => s
  | some w =>
    match (w.tile n).busy with
    | some (r, _) => if (w.tile n).waits.isEmpty then
        s.addTodo { instr := .windowFill, core := w.coreOf r, args := { n := w.wid, m := n, p := r } } else s
    | none => serveNext s wid n

/-- Participants `gone` leave the entry of a tile (R391). A lost owner's tile is written back by its lowest-numbered surviving
sharer, or is lost; the request of a lost core is given up, and what its holders had given away for it is lost with it. -/
def loseHolders (gone : List Nat) (s : State) (wid n : Nat) : State :=
  match s.win? wid with
  | none => s
  | some w =>
    let t := w.tile n
    let dead := (t.busy.map fun b => gone.contains b.1).getD false
    let given : Bool := dead && (t.busy.map fun b => decide (b.2 = 1)).getD false
    let gone' := if given then gone ++ (t.owner :: t.sharers).filter (fun x => !t.waits.contains x) else gone
    let sharers := t.sharers.filter fun x => !gone'.contains x
    let owned : Bool := match t.st with
      | .e | .m | .o => gone'.contains t.owner
      | _ => false
    let t1 : DirTile := { t with
      sharers := sharers, busy := if dead then none else t.busy
      waits := if dead then [] else t.waits.filter fun x => !gone.contains x
      queue := t.queue.filter fun q => !gone.contains q.who }
    let s := match owned, sharers with
      | true, [] => markDegraded (recordLost ((s.poisonImage w n).putWin (w.setTile n { t1 with st := .i })) w n 0) wid
      | true, x :: l =>
        let (copy, s) := heldCopy s w (l.foldl min x) n
        (s.writeBack w n copy).putWin (w.setTile n { t1 with st := .s })
      | false, [] =>
        (match t.st with
          | .s => s.putWin (w.setTile n { t1 with st := .i })
          | .o => (s.putWin (w.setTile n { t1 with st := .m })).setLocal w t.owner n .m
          | _ => s.putWin (w.setTile n t1))
      | false, _ => s.putWin (w.setTile n t1)
    settle s wid n

/-- A package is lost: its cores leave every window homed here (R391). -/
def losePackage (pkg : Nat) (s : State) : State :=
  s.dir.foldl (fun (s : State) w =>
    let gone := (w.away.filter fun p => decide (p.2 = pkg)).map (·.1)
    if gone.isEmpty then s
    else
      let s := s.putWin { w with away := w.away.filter fun p => decide (p.2 ≠ pkg) }
      let s := (List.range w.tiles.length).foldl (fun (s : State) n => loseHolders gone s w.wid n) s
      { s with dir := s.dir.filter fun x => !(decide (x.wid = w.wid) && x.parts.isEmpty && x.away.isEmpty) }) s

/-- The participants that hold a tile. -/
def DirTile.holders (t : DirTile) : List Nat :=
  match t.st with
  | .i => []
  | .s => t.sharers
  | .e | .m => [t.owner]
  | .o => t.owner :: t.sharers

/-- A directory message about a tile is lost: the tile is forced invalid at every holder, dirty copies come back poisoned, and the
image is poisoned when there was one (R392). -/
def forceInvalid (s : State) (wid n : Nat) : State :=
  match s.win? wid with
  | none => s
  | some w =>
    let t := w.tile n
    let dirty (x : Nat) : Bool := match s.localState w x n with
      | .m | .o => true
      | _ => false
    let s1 := t.holders.foldl (fun (s : State) x =>
      let s := if dirty x then
          let (copy, s) := heldCopy s w x n
          s.writeBack w n (copy.map fun b => (b.1, b.2.1, true))
        else s
      (s.setLocal w x n .i).seeTile w x n) s
    -- an owner in M or O that has answered a request under way held a dirty copy
    let s1 := if t.holders.any dirty || decide (t.st = .m) || decide (t.st = .o) then s1.poisonImage w n else s1
    let s1 := s1.putWin (w.setTile n { t with st := .i, sharers := [], waits := [] })
    settle (markDegraded (recordLost s1 w n 1) wid) wid n

/-- Every core of this package that holds one of the tiles (window, number in turn) has performed its accesses (R382). -/
def lossQuiet (s : State) : List Nat → Bool
  | wid :: n :: l => ((s.win? wid).all fun w => (w.tile n).holders.all fun x => tileQuiet s w x n) && lossQuiet s l
  | _ => true

/-- The directory messages that were lost, by window and tile number in turn (R392, R400, R401). Log 52, DESIGN CHOICE. -/
def loseMessages : List Nat → State → State
  | wid :: n :: l, s => loseMessages l (forceInvalid s wid n)
  | _, s => s

/-! ### WDECL and WDROP (R379, R380, R389) -/

/-- The result word of WDECL (R380). -/
def declResult (status wid who slot : Nat) : Word :=
  if status = 0 then BitVec.ofNat 64 (wid * 2 ^ 32 + who * 2 ^ 8 + slot) else BitVec.ofNat 64 (status * 2 ^ 56)

/-- The rules that STATUS 1 names (R379, R380). -/
def declOk (s : State) (a b : Word) : Bool :=
  let tl := fld b 20 4 + 7
  let nt := fld b 32 12
  onlyBits b 0x1FFF00F7FFFF && decide (fld a 57 7 = 0) && decide (1 ≤ nt ∧ nt ≤ 3072) && decide (tl ≤ 16)
    && decide (a.toNat % 2 ^ tl = 0) && decide (fld b 0 19 % 2 ^ tl = 0) && decide (fld b 0 19 + nt * 2 ^ tl ≤ s.spadSize)

/-- Translate every page of an image (R380): the physical pages, or the first failure. -/
def imagePages (s : State) (w : Bool) : List (Nat × Nat) → Except (Nat × Nat) (List Nat)
  | [] => .ok []
  | (va, _) :: l =>
    match s.translate va true w false with
    | .error c => .error (c, va)
    | .ok pa =>
      if inHost pa then .error (0x144, va)
      else match imagePages s w l with
        | .error e => .error e
        | .ok r => .ok (pa :: r)

/-- A number not in use, from a start that the spec leaves open. Log 32, DESIGN CHOICE. -/
def unusedFrom (used : List Nat) (bound : Nat) : Nat → Nat → Nat
  | 0, n => n
  | k + 1, n => if used.contains n then unusedFrom used bound k ((n + 1) % bound) else n

/-- The home answers a declaration of an image (R378, R380): the window with the participant added, or a status. Log 32, DESIGN CHOICE. -/
def homeDeclares (s : State) (core tl nt : Nat) (w : Bool) (pas : List Nat) : Except Nat (State × Nat × Nat) :=
  let image := pas.headD 0
  match s.dir.find? fun x => decide (x.image = image) with
  | some x =>
    if x.degraded then .error 7
    else if x.tl ≠ tl ∨ x.tiles.length ≠ nt then .error 6
    else if 256 ≤ x.numbers.length then .error 5
    else
      let who := unusedFrom x.numbers 256 256 (Config.pick s.free % 256)
      .ok (({ s with free := s.free + 1 } : State).putWin { x with parts := x.parts ++ [(who, core, w)] }, x.wid, who)
  | none =>
    if 4096 ≤ s.dir.length ∨ 2 ^ 20 < nt + (s.dir.map fun x => x.tiles.length).foldl (· + ·) 0 then .error 4
    else
      let wid := unusedFrom (s.dir.map (·.wid)) (2 ^ 16) 4097 (Config.pick s.free % 2 ^ 16)
      let who := Config.pick (s.free + 1) % 256
      let x : DirWin := { wid, image, frames := pas.map (· / 4096), tl, nt, parts := [(who, core, w)], tiles := List.replicate nt {} }
      .ok ({ s with dir := s.dir ++ [x], free := s.free + 2 }, wid, who)

/-- Continue once every earlier access, and every accepted copy command of the core that touches a scratchpad range, has been performed
(R380, R389). -/
def whenQuiet (lo n : Nat) (s : State) (k : State → Outcome) : Outcome :=
  afterAccesses true [{ off := 0, at' := lo, len := n }] s fun s => if s.copiesTouch lo n then stall s else k s

/-- WDECL (R379, R380). -/
def execWdecl (d a b : GReg) (s : State) : Outcome :=
  getG a s fun x s => getG b s fun y s =>
    let fail (n : Nat) (s : State) : Outcome := setG d (declResult n 0 0 0) s
    let tl := fld y 20 4 + 7
    let nt := fld y 32 12
    let lbase := fld y 0 19
    whenQuiet lbase (nt * 2 ^ tl) s fun s =>
    if !declOk s x y then fail 1 s
    else match imagePages s (y.getLsbD 44) (pages (nt * 2 ^ tl / 4096 + 2) x.toNat (nt * 2 ^ tl)) with
      | .error (c, va) => trap c (word va) 0 s
      | .ok pas =>
        let c := s.core
        let used := c.wins.map fun (w : WinDecl) => w.slot
        if 16 ≤ used.length then fail 2 s
        else if (c.wins.any fun (w : WinDecl) =>
            decide (lbase < w.lbase + w.nt * 2 ^ w.tl ∧ w.lbase < lbase + nt * 2 ^ tl)
              || (s.win? w.wid).any fun v => decide (v.image = pas.headD 0)) then fail 3 s
        else match homeDeclares s c.id tl nt (y.getLsbD 44) pas with
          | .error n => fail n s
          | .ok (s, wid, who) =>
            let slot := unusedFrom used 16 16 0
            let w : WinDecl := { slot, wid, who, lbase, nt, tl, write := y.getLsbD 44, image := x, tiles := List.replicate nt .i }
            setG d (declResult 0 wid who slot) { s with core := { s.core with wins := s.core.wins ++ [w] } }

/-- A tile of a window has a request in progress. -/
def windowBusy (s : State) (wid : Nat) : Bool := (s.win? wid).any fun w => w.tiles.any fun t => t.busy.isSome || !t.queue.isEmpty

/-- WDROP (R389). -/
def execWdrop (a : GReg) (s : State) : Outcome :=
  getG a s fun x s =>
    match s.core.wins.find? fun (w : WinDecl) => decide (w.slot = fld x 0 4) with
    | none => done s
    | some w =>
      whenQuiet w.lbase (w.nt * 2 ^ w.tl) s fun s => if windowBusy s w.wid then stall s else done (dropDecl s w)

/-! ### ACQT and RELT (R386, R387) -/

/-- The window tile that an address names; any other address is BAD_ADDRESS (R386). -/
def windowTile (a : GReg) (s : State) (k : Word → WinDecl → Nat → State → Outcome) : Outcome :=
  getG a s fun x s =>
    match s.core.windowAt x.toNat with
    | none => trap 0x010 x 0 s
    | some (d, n) => k x d n s

/-- RELT: earlier accesses are performed, then the tile's marker is written at the home (R387). -/
def execRelt (a : GReg) (_ : Scope) (s : State) : Outcome :=
  windowTile a s fun _ d n s => allPerformed s fun s =>
    let s := { s with core := s.core.release }
    match s.win? d.wid with
    | some w => done (s.putWin (w.setTile n { w.tile n with marker := (w.tile n).marker + 1 }))
    | none => done s

/-- ACQT: the tile is obtained for reading and its marker read at the home, then it acts as ACQ (R387). -/
def execAcqt (a : GReg) (_ : Scope) (s : State) : Outcome :=
  windowTile a s fun x _ _ s => throughWindows false [(x.toNat, x, 0)] s fun s => done { s with core := s.core.acquire }

end Sys2Proof.Machine
end

