-- ==== Sys2Proof/Machine/Copy.lean ====
section
/-!
DEFINITION. The copy engine: checks of descriptors (R271 to R274), acceptance (R266, R270, R289), chunks (R267, R268, R272, R278 to R280),
the order in which their words are written (R295, R299), format conversion (R139, R213, R236 to R239), failure (R276, R277), multicast
(R291, R292, R324), TFETCH (R388), and the WRSR of a bank format register (R211).
-/

namespace Sys2Proof.Machine

/-! ### Checks at acceptance (R271 to R273, R276) -/

/-- Reserved bits of a descriptor are zero (R271). -/
def descBits (x : CopyCmd) : Bool :=
  decide (fld (x.w 0) 57 6 = 0) && decide (fld (x.w 1) 57 6 = 0) && decide (fld (x.w 2) 46 2 = 0)
    && (List.range 6).all fun n => decide (fld (x.w (5 + 2 * n)) 32 32 = 0)

/-- Highest set bit of a mask of 16. -/
def topBit (m : Nat) : Nat := Nat.log2 (m % 65536)

/-- The conditions that a command puts on its descriptor (R273). -/
def descKind (x : CopyCmd) : Bool :=
  let nest := decide (1 ≤ x.nlvl ∧ x.nlvl ≤ 6)
  match x.kind with
  | .cpy => decide (x.nlvl = 0) && decide (x.aux = 0)
  | .cpyn => nest && decide (x.aux = 0)
  | .cpyp => decide (x.nlvl = 1) && decide (x.len = 0) && onlyBits x.aux 0x3F3F01FFFFFFFF
      && decide (1 ≤ fld x.aux 48 6 ∧ fld x.aux 48 6 ≤ 32) && decide (1 ≤ fld x.aux 40 6 ∧ fld x.aux 40 6 ≤ 32)
  | .cpym => nest && x.dre && !(x.w 1).getLsbD 63 && onlyBits x.aux 0x77FFFFF
      && decide (fld x.aux 16 7 + topBit (fld x.aux 0 16) ≤ 127)
  | .cpyg => nest && onlyBits x.aux 0x7FFFF && decide (x.aux.toNat % 4 = 0) && decide (x.sstr 0 = 0) && decide (x.count 0 ≤ 65536)
  | .cpyq => decide (x.w 0 = 0) && decide (x.len = 256) && decide (x.nlvl = 1) && decide (1 ≤ x.count 0 ∧ x.count 0 ≤ 32)
  | .tfetch => true

/-- Something of the command lies in the global space. -/
def CopyCmd.global (x : CopyCmd) : Bool := x.dstGlobal || (x.srcGlobal && decide (x.kind ≠ .cpyq))

/-- The formats suit the command (R273, R276). -/
def formatOk (s : State) (x : CopyCmd) : Bool :=
  let c := s.core
  if x.kind = .cpyp then
    let d := (x.dstBase c).toNat
    !x.dstGlobal && ((x.srcFmt c (x.srcBase c).toNat).any fun f => decide (8 ≤ f.fmt.bits))
      && decide (fld (c.bankOf d) 8 2 = 2)
      && (List.range x.iters).all fun t =>
        let a := (x.dstAt c t).toNat
        decide (a % 32 = 0) && c.planeRange a (tileBytes (c.planesAt d)) && decide (c.planesAt a = c.planesAt d)
  else !x.cnv || ((x.srcFmt c (x.srcBase c).toNat).isSome && (decide (x.kind = .cpym) || (x.dstFmt c (x.dstBase c).toNat).isSome))

/-- LEN makes whole elements and whole bytes (R271); a multicast's receivers have their own formats. -/
def lenOk (x : CopyCmd) (c : Core) : Bool :=
  if x.kind = .cpym then !x.cnv || ((x.srcFmt c (x.srcBase c).toNat).any fun f => (f.elems x.len).isSome) else (x.dlen c c).isSome

/-- A command fails at its acceptance with this code (R276). Log 22, DEDUCED. -/
def acceptFault (s : State) (x : CopyCmd) : Option Nat :=
  let c := s.core
  let rd := c.ring x.dring
  let x' := x.placed c
  if !descBits x || !descKind x || decide (2 ^ 40 ≤ x.len * x.iters) then some 0x01
  else if s.inCompute && x.global && !x.cond then some 0x05
  else if (x.dre && decide (x.kind ≠ .cpym) && !rd.isSet) || (x.sre && !(c.ring x.sring).isSet) then some 0x08
  else if !formatOk s x' then some 0x07
  else if !lenOk x' c then some 0x01
  else if x.dre && decide (x.kind ≠ .cpym) && decide (x'.total c c ≠ rd.esize) then some 0x08
  else none

/-! ### Ends of a command (R275, R277, R289) -/

/-- Take a command off the active list. -/
def Core.endCopy (c : Core) (id : Nat) : Core := { c with copies := c.copies.filter fun (x : CopyCmd) => decide (x.id ≠ id) }
/-- Put an active command back. -/
def Core.putCopy (c : Core) (x : CopyCmd) : Core := { c with copies := c.copies.map fun (y : CopyCmd) => if y.id = x.id then x else y }

/-- A command that failed and names no barrier, or whose target is bad: the trap, or STEP_SCHED for the conductor's (R277, R281). -/
def copyTrap (code : Nat) (tval tval2 : Word) (x : CopyCmd) (s : State) : State :=
  if x.cond then s.haltRegion x.region 0x01E else hold (s.impreciseTrap code tval tval2 x.bundle x.slot x.seq) s

/-- A command fails (R277); what it has sent or is writing still arrives: the code and the missing bytes go to its barrier and the counter falls, or COPY_FAIL is raised. -/
def failCopy (code missing : Nat) (x : CopyCmd) (s : State) : State :=
  let s := { s with core := s.core.endCopy x.id }
  match barOf x.target with
  | none => copyTrap 0x082 (word code) x.descAddr x s
  | some a =>
    let s := s.barErr a code
    let s := if missing = 0 then s else s.lowerBar a missing
    lowerTarget x.target x.descAddr x.task x.asid x.bundle.toNat x.slot x.seq s

/-- An active command fails: what it has neither counted nor sent is missing. -/
def failActive (code : Nat) (x : CopyCmd) (s : State) : State := failCopy code (x.allBytes s - x.counted) x s

/-- A command has moved its last chunk: ring positions, then the counter (R275, R289). -/
def endCommand (x : CopyCmd) (s : State) : State :=
  let c := s.core.endCopy x.id
  let c := match x.ringD with
    | some n => c.putRing x.dring ((c.ring x.dring).fill n)
    | none => c
  let c := match x.ringS with
    | some _ => c.putRing x.sring { c.ring x.sring with cons := (c.ring x.sring).cons + 1 }
    | none => c
  lowerTarget x.target x.descAddr x.task x.asid x.bundle.toNat x.slot x.seq { s with core := c }

/-! ### Acceptance (R266, R270, R273, R289) -/

/-- Bytes that a refused command's LEN and counts name, when below 2^40 (R277). Log 22, DEDUCED. -/
def refusedBytes (s : State) (x : CopyCmd) : Nat :=
  let n := (x.placed s.core).allBytes s
  if n < 2 ^ 40 then n else 0

/-- Read n words of a descriptor in scratchpad. -/
def descWords (c : Core) (a n : Nat) : List Word := (List.range n).map fun i => c.spad.word (a + 8 * i)

/-- A command with nothing to move (R272). -/
def CopyCmd.isEmpty (x : CopyCmd) (s : State) : Bool :=
  decide (x.iters = 0) || (decide (x.len = 0) && decide (x.kind ≠ .cpyp)) || (decide (x.kind = .cpym) && (x.receivers s).isEmpty)

/-- Start an accepted command: its ring entry is reserved (R289); one with nothing to move ends at once, or once its source entry is filled
(R272, R289). -/
def startCopy (x : CopyCmd) (s : State) : Outcome :=
  let c := s.core
  let rd := c.ring x.dring
  let takes := x.dre && decide (x.kind ≠ .cpym)
  if takes && decide (rd.cons + rd.count ≤ rd.rsv) then stall s
  else
    let x := { x with id := c.nextId, ringD := if takes then some rd.rsv else none }
    let c := if takes then c.putRing x.dring { rd with rsv := rd.rsv + 1 } else c
    let s : State := { s with core := { c with nextId := c.nextId + 1, copies := c.copies ++ [x] } }
    if x.isEmpty s && !x.sre then done (endCommand x s) else done s

/-- The copy engine accepts a command whose g operands, mode and origin stand in it (R266). Log 21, DEDUCED. Log 22, DEDUCED. -/
def acceptCopy (x : CopyCmd) (rq : Option RqReg) (s : State) : Outcome :=
  let c := s.core
  let n := if x.kind = .cpy then 4 else 16
  if 8 ≤ c.copies.length then stall s
  else if rq.isNone ∧ !targetOk s x.target then done (copyTrap 0x081 x.target 0 x s)
  else if x.descAddr.toNat % 64 ≠ 0 ∨ s.spadSize < x.descAddr.toNat + 128 then
    (if rq.isSome then done (copyTrap 0x082 1 x.descAddr x s) else done (failCopy 0x01 0 x s))
  else if !c.storesDone x.seq true [{ off := 0, at' := x.descAddr.toNat, len := 8 * n }] then stall s
  else
    let x := { x with desc := descWords c x.descAddr.toNat n }
    let x := if rq.isSome then { x with target := x.aux } else x
    if rq.isSome ∧ !targetOk s x.target then done (copyTrap 0x081 x.target 0 x s)
    else match acceptFault s x with
      | some code => done (failCopy code (refusedBytes s x) x s)
      | none =>
        match rq with
        | none => startCopy x s
        | some q =>
          if c.queueAhead q then stall s
          else if (c.rqOf q).length < x.count 0 then done (copyTrap 0x085 (word q.toNat) 0 x s)
          else
            let (c, es) := c.popRq q (x.count 0)
            startCopy { x with entries := es.map fun (e : VWord × BitVec 16) => (e.1, e.2.getLsbD 10) } { s with core := c }

/-- A copy slot's command before its descriptor is read. -/
def slotCopy (c : Core) (kind : CopyKind) (m : FeMode) (descAddr target : Word) : CopyCmd :=
  { id := 0, kind := kind, mode := m, desc := [], target := target, descAddr := descAddr, bundle := c.curBundle, slot := c.curSlot,
    seq := c.curSeq, region := c.region, ctx := c.context, task := c.taskid.toNat, asid := c.asid, olds := c.olds }

/-- A copy slot with its descriptor address in A and its target in B (R270). -/
def copySlot (kind : CopyKind) (a b : GReg) (m : FeMode) (s : State) : Outcome :=
  cslot [a, b] s fun ws s => acceptCopy (slotCopy s.core kind m (opd ws 0) (opd ws 1)) none s

/-- CPY (R273). -/
def execCpy (a b : GReg) (m : FeMode) (s : State) : Outcome := copySlot .cpy a b m s
/-- CPYN (R273). -/
def execCpyn (a b : GReg) (m : FeMode) (s : State) : Outcome := copySlot .cpyn a b m s
/-- CPYP (R273). -/
def execCpyp (a b : GReg) (m : FeMode) (s : State) : Outcome := copySlot .cpyp a b m s
/-- CPYM (R273, R291). -/
def execCpym (a b : GReg) (m : FeMode) (s : State) : Outcome := copySlot .cpym a b m s
/-- CPYG (R273). -/
def execCpyg (a b : GReg) (m : FeMode) (s : State) : Outcome := copySlot .cpyg a b m s
/-- CPYQ (R273). -/
def execCpyq (a : RqReg) (b : GReg) (m : FeMode) (s : State) : Outcome :=
  cslot [b] s fun ws s => acceptCopy (slotCopy s.core .cpyq m (opd ws 0) 0) (some a) s

/-! ### Reading a side -/

/-- What reading or reaching bytes comes to: bytes with their bits and whether a fill failed its tag check; an error code; or a wait. -/
inductive Got where
  | ok (s : State) (l : Lump) (bad : Bool)
  | fail (code : Nat)
  | wait (s : State)

/-- A wait for a window tile: the request goes out once (R381). -/
def waitTile (d : WinDecl) (tile : Nat) (write : Bool) (s : State) : State :=
  let s' := askHome s d tile write
  if s'.todo.length = s.todo.length then { s with core := { s.core with mark := .stall } }
  else { s' with core := { s'.core with mark := .wait } }

/-- Physical runs of a range of the global space, or the code of a failure (R276, R279, R450). -/
def reach (s : State) (r w noHost : Bool) : List (Nat × Nat) → Except Nat (List Piece)
  | [] => .ok []
  | (va, n) :: l =>
    if 2 ^ 57 < va + n then .error 0x02
    else match s.translate va r w false with
      | .error _ => .error 0x03
      | .ok pa =>
        if noHost && inHost pa then .error 0x04
        else match reach s r w noHost l with
          | .error c => .error c
          | .ok ps => .ok ({ off := 0, at' := pa, len := n } :: ps)

/-- Continue with the tokens and the fills of global pieces. Log 23, DEDUCED. -/
def charged (ps : List Piece) (s : State) (k : State → Bool → Got) : Got :=
  match served s ps with
  | none => .wait { s with core := { s.core with mark := .stall } }
  | some s => let (s, bad) := s.touchPieces ps; k s bad

/-- Read n bytes of a side (R267, R268, R276, R279, R280). Log 54, DEDUCED. -/
def readSide (glob noHost : Bool) (seq a n : Nat) (s : State) : Got :=
  let stalled : Got := .wait { s with core := { s.core with mark := .stall } }
  if glob then
    match reach s true false noHost (pages (n / 4096 + 2) a n) with
    | .error c => .fail c
    | .ok ps =>
      if !s.core.storesDone seq false ps || s.unmade ps then stalled
      else charged ps s fun s bad => .ok s (ps.flatMap fun p => s.mem.lump p.at' p.len) bad
  else if s.spadSize < a + n then .fail 0x02
  else
    match s.core.needOf false (probes a n) with
    | .obtain d t => .wait (waitTile d t false s)
    | _ =>
      if !s.core.storesDone seq true [{ off := 0, at' := a, len := n }] then stalled
      else .ok s (s.core.spad.lump a n) false

/-- The current core with a command's own region, context and special registers, for its checks and translations (R89). -/
def State.asCopy (s : State) (x : CopyCmd) : State :=
  { s with core := ({ s.core with region := x.region, olds := x.olds } : Core).setContext x.ctx }
/-- The core's own region and context back again. -/
def State.asBefore (s : State) (c : Core) : State :=
  { s with core := ({ s.core with region := c.region, olds := c.olds } : Core).setContext c.context }

/-! ### Elements (R133, R213, R214, R239) -/

/-- Byte address and bit of element j of a run that starts at an address. -/
def elemPlace (layout w start j : Nat) : Nat × Nat :=
  if layout = 1 then
    let e := 8 * start / w + j
    let i := e % (512 / w)
    let pos := 32 * (i % 16) + w * (i / 16)
    (64 * (e / (512 / w)) + pos / 8, pos % 8)
  else ((8 * start + w * j) / 8, w * j % 8)

/-- The code of w bits at a place, from bytes that start at address b. -/
def codeAt (l : Lump) (b w : Nat) (p : Nat × Nat) : Nat :=
  leNat (((l.drop (p.1 - b)).take (max 1 (w / 8))).map fun (x : Byte × Bool × Bool) => x.1) / 2 ^ p.2 % 2 ^ w

/-- The element number, counted from the run's start, that holds w bits at a place of a shuffled bank. -/
def elemNumber (w start : Nat) (p : Nat × Nat) : Int :=
  let pos := 8 * (p.1 % 64) + p.2
  let e := p.1 / 64 * (512 / w) + pos % 32 / w * 16 + pos / 32
  (e : Int) - (8 * start / w : Nat)

/-- The bytes that hold elements j0 to j1 - 1 of a source run: address and length. -/
def elemSpan (f : SideFmt) (start j0 j1 : Nat) : Nat × Nat :=
  if f.layout = 2 then (start + j0 / 1024 * tileBytes f.planes, (j1 - 1) / 1024 * tileBytes f.planes + tileBytes f.planes - j0 / 1024 * tileBytes f.planes)
  else if f.layout = 1 then
    let a := (elemPlace 1 f.fmt.bits start j0).1 / 64 * 64
    (a, (elemPlace 1 f.fmt.bits start (j1 - 1)).1 / 64 * 64 + 64 - a)
  else
    let a := (elemPlace 0 f.fmt.bits start j0).1
    (a, (8 * start + f.fmt.bits * j1 + 7) / 8 - a)

/-- A source element: its value, whether it is an integer, the full/empty bit of the word that holds its first byte, and poison. -/
structure SrcElem where
  isInt : Bool
  val   : Val
  full  : Bool
  bad   : Bool
deriving DecidableEq, Repr

/-- Read element j of a source run whose span stands in `l` from address b. -/
def srcElem (f : SideFmt) (start : Nat) (l : Lump) (b j : Nat) : SrcElem :=
  if f.layout = 2 then
    let a := start + j / 1024 * tileBytes f.planes - b
    let tile := (l.drop a).take (tileBytes f.planes)
    let m : Store := { bytes := (tile.zipIdx.map fun (x : (Byte × Bool × Bool) × Nat) => (x.2, x.1.1)) }
    let r := j % 1024 / 32
    let first := tile.headD (0, false, false)
    let spoilt (i : Nat) : Bool := (tile.getD i (0, false, false)).2.2
    { isInt := false, val := planeVal f.planes (header m 0 r) (planeValue m 0 f.planes r (j % 32)),
      full := first.2.1, bad := spoilt r || (List.range f.planes).any fun p => spoilt (32 + 128 * p + 4 * (j % 32) + r / 8) }
  else
    let p := elemPlace f.layout f.fmt.bits start j
    let xs := (l.drop (p.1 - b)).take (max 1 (f.fmt.bits / 8))
    { isInt := f.fmt.isInt, val := decodeVal f.fmt (codeAt l b f.fmt.bits p), full := (xs.headD (0, false, false)).2.1,
      bad := xs.any fun (x : Byte × Bool × Bool) => x.2.2 }

/-- A converted element's code (R139). -/
def SrcElem.code (e : SrcElem) (f : Fmt) : Nat := (convertVal e.isInt e.val f 0 false true).1

/-- Byte i of the packed stream of elements j0 on (R133), with the bits it carries. -/
def packedByte (f : Fmt) (j0 : Nat) (es : List SrcElem) (i : Nat) : Byte × Bool × Bool :=
  let at' (j : Nat) : SrcElem := es.getD (j - j0) { isInt := true, val := .fin false 0 0, full := false, bad := false }
  if 8 ≤ f.bits then
    let j := 8 * i / f.bits
    (BitVec.ofNat 8 ((at' j).code f / 2 ^ (8 * i % f.bits)), (at' j).full, (at' j).bad)
  else
    let k := 8 / f.bits
    let js := (List.range k).map fun n => at' (k * i + n)
    (BitVec.ofNat 8 (js.foldr (fun e n => e.code f + 2 ^ f.bits * n) 0), (js.headD (at' 0)).full, js.any (·.bad))

/-- The number format that a side's elements have; a plane tile's values have none (R236, R239). -/
def SideFmt.numeric (f : SideFmt) : Option Fmt := if f.layout = 2 then none else some f.fmt

/-- The first element of byte i of a plane tile, by number: that of its block for a header byte, the lowest row's for a plane byte (R214, R278). -/
def planeFirst (i : Nat) : Nat := if i < 32 then 32 * i else 256 * ((i - 32) % 4) + (i - 32) % 128 / 4

/-- Bytes o to o + n - 1 of plane tiles made of the elements from j0 on, which come from side f (R237, R238). -/
def planeStream (f : SideFmt) (p j0 : Nat) (es : List SrcElem) (o n : Nat) : Lump :=
  let tiles := (List.range (es.length / 1024)).flatMap fun t =>
    let tile := (es.drop (1024 * t)).take 1024
    let bs := (List.range 32).map fun r => quantise f.numeric p (((tile.drop (32 * r)).take 32).map (·.val))
    let spoilt := tile.any (·.bad)
    (tileOfBlocks p bs).zipIdx.map fun b => (b.1, (tile[planeFirst b.2]?).any (·.full), spoilt)
  (tiles.drop (o - j0 / 1024 * tileBytes p)).take n

/-! ### The destination bytes of a chunk -/

/-- Elements that destination bytes o to o + n - 1 of an innermost copy come from: the first, and the one after the last. -/
def elemRange (g : SideFmt) (o n : Nat) : Nat × Nat :=
  if g.layout = 2 then (o / tileBytes g.planes * 1024, ((o + n - 1) / tileBytes g.planes + 1) * 1024)
  else (8 * o / g.fmt.bits, (8 * (o + n) + g.fmt.bits - 1) / g.fmt.bits)

/-- Convert a chunk: read the source elements from address a, or from the start of a popped entry, and make the destination's units: bytes of
the stream, or the elements of a shuffled bank, one unit each (R139, R213, R271, R273). -/
def convertedChunk (x : CopyCmd) (f g : SideFmt) (entry : VWord × Bool) (a o n : Nat) (s : State) : Got :=
  let (j0, j1) := elemRange g o n
  let make (l : Lump) (b : Nat) : Lump :=
    let es := (List.range (j1 - j0)).map fun i => srcElem f a l b (j0 + i)
    if g.layout = 2 then planeStream f g.planes j0 es o n
    else if g.layout = 1 then es.map fun e => (BitVec.ofNat 8 (e.code g.fmt), e.full, e.bad)
    else (List.range n).map fun i => packedByte g.fmt j0 es (o + i)
  if x.kind = .cpyq then
    .ok s (make (plainLump (takeBytes entry.1 0 256) false entry.2) 0) false
  else
    let (b, k) := elemSpan f a j0 j1
    match readSide x.srcGlobal x.carries x.seq b k s with
    | .ok s l bad => .ok s (make l b) bad
    | r => r

/-- Read elements one by one. -/
def readElems (x : CopyCmd) (f : SideFmt) (es : Nat) : List Nat → State → Except Got (State × List SrcElem × Bool)
  | [], s => .ok (s, [], false)
  | a :: r, s =>
    match readSide x.srcGlobal false x.seq a es s with
    | .ok s l bad =>
      match readElems x f es r s with
      | .ok (s, q, bad') => .ok (s, srcElem { f with layout := 0 } a l a 0 :: q, bad || bad')
      | .error e => .error e
    | g => .error g

/-- A chunk of a plane copy: tile t is quantised from its blocks (R237, R238, R273). -/
def planeChunk (x : CopyCmd) (f : SideFmt) (p t o n : Nat) (s : State) : Got :=
  let rows := fld x.aux 48 6
  let kc := if t + 1 = x.iters then fld x.aux 40 6 else 32
  let src := x.srcAt s.core t
  let es := f.fmt.bits / 8
  let addrs := (List.range rows).flatMap fun r => (List.range kc).map fun k => x.blockElem src es r k
  match readElems x f es addrs s with
  | .error g => g
  | .ok (s, l, bad) =>
    let zero : Val := .fin false 0 0
    let bs := (List.range 32).map fun r =>
      if r < rows then quantise (some f.fmt) p (((l.drop (kc * r)).take kc).map (·.val) ++ List.replicate (32 - kc) zero)
      else (0, List.replicate 32 0)
    .ok s (((plainLump (tileOfBlocks p bs) false (l.any (·.bad))).drop o).take n) bad

/-- The index of a gather (R273). -/
def gatherIndex (x : CopyCmd) (it : Nat) (s : State) : Except Got Word :=
  if x.kind ≠ .cpyg then .ok 0
  else
    match readSide false false x.seq (x.indexAt it) 4 s with
    | .ok _ l _ => .ok ((BitVec.ofNat 32 (leNat (l.map fun (b : Byte × Bool × Bool) => b.1))).signExtend 64)
    | g => .error g

/-- The destination bytes o to o + n - 1 of innermost copy `it`, for the destination's core `cd`. -/
def chunkBytes (x : CopyCmd) (cd : Core) (it o n : Nat) (s : State) : Got :=
  let c := s.core
  let entry := x.entries.getD it (0, false)
  match gatherIndex x it s with
  | .error g => g
  | .ok off =>
    let a := (x.srcAt c it + off).toNat
    if x.kind = .cpyp then
      match x.srcFmt c (x.srcBase c).toNat with
      | some f => planeChunk x f (cd.planesAt (x.dstBase cd).toNat) it o n s
      | none => .fail 0x07
    else if x.cnv then
      match x.srcFmt c a, x.dstFmt cd (x.dstAt cd it).toNat with
      | some f, some g => convertedChunk x f g entry (if x.kind = .cpyq then 0 else a) o n s
      | _, _ => .fail 0x07
    else if x.kind = .cpyq then .ok s (plainLump (takeBytes entry.1 o n) false entry.2) false
    else readSide x.srcGlobal x.carries x.seq ((word a + word o).toNat) n s

/-! ### The words of a chunk (R213, R278, R299, R345) -/

/-- Bits of a destination unit: an element of a shuffled bank that a conversion writes, else a byte. -/
def unitBits (g : Option SideFmt) : Nat :=
  match g with
  | some f => if f.layout = 1 then f.fmt.bits else 8
  | none => 8

/-- The format that a conversion's destination has at innermost copy `it`. -/
def CopyCmd.into (x : CopyCmd) (cd : Core) (it : Nat) : Option SideFmt := if x.cnv && decide (x.kind ≠ .cpyp) then x.dstFmt cd (x.dstAt cd it).toNat else none

/-- The units of a word, the one that holds its first byte first. -/
def wordUnits (g : Option SideFmt) (no : Nat) : List Nat :=
  let w := unitBits g
  if g.any fun f => decide (f.layout = 1) then
    (List.range (64 / w)).map fun i => (elemNumber w 0 (8 * no + w * i / 8, w * i % 8)).toNat
  else (List.range 8).map fun i => 8 * no + i

/-- The latest innermost copy below `k` that has written unit u, and u's place in its run; the copy `it` has written its first `o` bytes only
(R278). -/
def CopyCmd.writer (x : CopyCmd) (cd : Core) (w dlen it o u : Nat) : Nat → Option (Nat × Nat)
  | 0 => none
  | k + 1 =>
    let d := 8 * (x.dstAt cd k).toNat / w
    let n := 8 * (if k = it then o else dlen) / w
    if d ≤ u ∧ u < d + n then some (k, u - d) else x.writer cd w dlen it o u k

/-- The bit that the chunk of `l.length` units at byte o of innermost copy `it` brings for the first unit of a word, where it holds it (R278). -/
def CopyCmd.firstBit (x : CopyCmd) (cd : Core) (it o no : Nat) (l : Lump) : Option Bool :=
  let g := x.into cd it
  let w := unitBits g
  let start := 8 * (x.dstAt cd it).toNat / w + 8 * o / w
  match wordUnits g no with
  | u :: _ => if start ≤ u then (l[u - start]?).map fun b => b.2.1 else none
  | [] => none

/-- The command has written every unit of a word once n more bytes at byte o of innermost copy `it` are written (R278). -/
def CopyCmd.wordWhole (x : CopyCmd) (cd : Core) (dlen it o n no : Nat) : Bool :=
  let g := x.into cd it
  (wordUnits g no).all fun u => (x.writer cd (unitBits g) dlen it (o + n) u (it + 1)).isSome

/-- The bit that a word takes with this chunk, when it is whole then (R278); the bit for a first byte that an earlier chunk brought has been
kept. -/
def CopyCmd.wordBit (x : CopyCmd) (cd : Core) (dlen it o n no : Nat) (l : Lump) : Option Bool :=
  if x.keeps || !x.wordWhole cd dlen it o n no then none
  else match x.rule with
    | .set v => some v
    | .keep => none
    | .carried => (x.firstBit cd it o no l).orElse fun _ => x.bits.lookup (cd.id, no)

/-- The bits that the command keeps behind a chunk: those of the words that it has written in part (R278). -/
def CopyCmd.keptBits (x : CopyCmd) (cd : Core) (dlen it o n : Nat) (l : Lump) (ws : List FlightWord) : List ((Nat × Nat) × Bool) :=
  if !x.carries then []
  else ws.foldl (fun bits v =>
    let rest := bits.filter fun b => decide (b.1 ≠ (cd.id, v.no))
    if x.wordWhole cd dlen it o n v.no then rest
    else match x.firstBit cd it o v.no l with
      | some b => ((cd.id, v.no), b) :: rest
      | none => bits) x.bits

/-- Destination bytes in place of a shuffled bank, for the elements of stream bytes o to o + n - 1 (R213): each touched byte with the bits that
the chunk holds. -/
def shuffledBytes (w d o n : Nat) (l : Lump) : List ChunkByte :=
  let lo := (d + o) / 64 * 64
  let hi := (d + o + n - 1) / 64 * 64 + 64
  let at' (j : Nat) : Byte × Bool × Bool := l.getD (j - 8 * o / w) (0, false, false)
  let inside (e : Int) : Bool := decide ((8 * o / w : Nat) ≤ e ∧ e < (8 * (o + n) / w : Nat))
  (List.range (hi - lo)).filterMap fun i =>
    let a := lo + i
    let us := (List.range (8 / w)).map fun u => elemNumber w d (a, w * u)
    if us.any inside then
      let pack (f : Int → Nat) : Byte := BitVec.ofNat 8 (us.foldr (fun u n => 2 ^ w * n + f u) 0)
      some { at' := a, val := pack fun u => if inside u then (at' u.toNat).1.toNat else 0
             mask := pack fun u => if inside u then 2 ^ w - 1 else 0, bad := us.any fun u => inside u && (at' u.toNat).2.2 }
    else none

/-- The words of the units for stream bytes o to o + n - 1 of innermost copy `it`, with the full/empty bits that they take (R213, R278, R280,
R345). -/
def chunkOf (x : CopyCmd) (cd : Core) (dlen it o n : Nat) (l : Lump) : Chunk :=
  let d := (x.dstAt cd it).toNat
  let a := (word d + word o).toNat
  let bs : List ChunkByte :=
    if (x.into cd it).any fun g => decide (g.layout = 1) then shuffledBytes (unitBits (x.into cd it)) d o n l
    else l.zipIdx.map fun b => { at' := a + b.2, val := b.1.1, mask := 0xFF, bad := b.1.2.2 }
  let bad := ((bs.filter (·.bad)).map fun b => b.at' / 32).eraseDups
  chunkFrom ((packWords bs).map fun v => { v with bit := x.wordBit cd dlen it o n v.no l }) bad

/-- The chunk moved by whole pages from one address to another of the same place in its page. -/
def Chunk.moved (h : Chunk) (a b : Nat) : Chunk :=
  let go (k n : Nat) : Nat := n + b / k - a / k
  { words := h.words.map fun v => { v with no := go 8 v.no }, bad := h.bad.map (go 32), clean := h.clean.map (go 32) }

/-! ### Writing (R267, R275, R278, R289, R299) -/

/-- The command has moved its last chunk to every destination. -/
def CopyCmd.allMoved (x : CopyCmd) (s : State) : Bool :=
  if x.kind = .cpym then (x.receivers s).all fun r => decide (atCopy x.iters ≤ (assocGet x.sent r).getD 0)
  else decide (atCopy x.iters ≤ x.cursor)

/-- Nothing of a command of core `src` is on its way or being written. -/
def State.cmdLanded (s : State) (src id : Nat) : Bool :=
  !(s.flights.any fun f => decide (f.path = .copy ∧ f.src = src ∧ f.cmd = id)) && !(s.mcasts.any fun m => decide (m.src = src ∧ m.cmd = id))

/-- A command of the current core ends, or fails, when its last word has been written (R275, R277). -/
def endIfDone (id : Nat) (s : State) : State :=
  match s.core.copies.find? fun (x : CopyCmd) => decide (x.id = id) with
  | some x =>
    if !s.cmdLanded s.core.id id then s
    else match x.doom with
      | some code => failActive code x s
      | none => if decide (x.kind ≠ .tfetch) && x.allMoved s then endCommand x s else s
  | none => s

/-- An active command is to fail: no later chunk moves, and what it has sent is written first (R275, R276). -/
def doomed (code : Nat) (x : CopyCmd) (s : State) : State :=
  endIfDone x.id { s with core := s.core.putCopy { x with doom := some (x.doom.getD code) } }

/-- The last word has been written: poison is cleared, the wakes are posted, the bytes are counted, a multicast's ring entry is filled, a
copy command that has nothing left ends, and what waited for the writes is answered and done (R121, R275, R289, R291, R345, R405, R407,
R422). The entry of a multicast that has failed stays unfilled. -/
def Flight.finish (f : Flight) (s : State) : State :=
  let clear (m : Store) : Store := f.clean.foldl (fun m q => m.setPoison (32 * q) false) m
  let s := if f.sp then { s with core := { s.core with spad := clear s.core.spad } } else { s with mem := clear s.mem }
  let s := s.postWakes f.sp f.changed
  let s : State := { s with flights := s.flights.filter fun g => decide (g.no ≠ f.no) }
  let s := f.counts.foldl (fun (s : State) p => s.visit p.1 fun s => s.lowerBar p.2 f.bytes) s
  let s := match f.fill with
    | some (n, e) =>
      if (s.coreAt f.src).copies.any fun (x : CopyCmd) => decide (x.id = f.cmd) && x.doom.isNone then
        { s with core := s.core.putRing n ((s.core.ring n).fill e) }
      else s
    | none => s
  let s := match f.recv with
    | some v => s.visit f.core (lowerTarget v.target v.desc v.task v.asid v.bundle.toNat v.slot v.seq)
    | none => s
  let s : State := { s with ackOut := s.ackOut ++ f.acks, todo := s.todo ++ f.after }
  if f.path = .copy then s.visit f.src (endIfDone f.cmd) else s

/-- A flight completes behind an earlier one: the next chunk of its command for the same core, or the next message of its engine (R267, R407). -/
def Flight.follows (f g : Flight) : Bool :=
  if f.path = .copy then decide (g.path = .copy ∧ f.src = g.src ∧ f.cmd = g.cmd ∧ f.core = g.core) else f.lane.isSome && decide (f.lane = g.lane)

/-- The flights that a flight completes behind. -/
def State.ahead (s : State) (f : Flight) : List Flight := (s.flights.takeWhile fun g => decide (g.no ≠ f.no)).filter f.follows

/-- The words of a flight that may be written now: none that an earlier one has still to write, and not the last one while one is ahead. -/
def State.landable (s : State) (f : Flight) : List FlightWord :=
  let ahead := s.ahead f
  let free := f.words.filter fun v => !(ahead.any fun g => g.words.any fun w => decide (w.no = v.no))
  if !ahead.isEmpty && decide (free.length = f.words.length) then free.drop 1 else free

/-- Some of the words that may be written are, which of them the spec leaves open, but one at least (R267, R299, R405, R422).
Log 7, DESIGN CHOICE. -/
def landFlight (f : Flight) (s : State) : Outcome :=
  match s.landable f with
  | [] => if f.words.isEmpty && (s.ahead f).isEmpty then done (f.finish s) else stall s
  | v :: r =>
    let chosen (i : Nat) : Bool := (Config.pick s.free).testBit i
    let now := v :: ((r.zipIdx).filter fun p => chosen p.2).map (·.1)
    let rest := f.words.filter fun w => !now.contains w
    let (f, s) := now.foldl (fun (p : Flight × State) v => p.1.put v p.2) (f, { s with free := s.free + 1 })
    let f := { f with words := rest }
    done (if rest.isEmpty then f.finish s else { s with flights := s.flights.map fun g => if g.no = f.no then f else g })

/-- The flight of a chunk of a command of the current core. -/
def CopyCmd.flight (x : CopyCmd) (c : Core) (h : Chunk) (sp : Bool) (bytes : Nat) (counts : List (Nat × Nat)) : Flight :=
  { no := 0, core := c.id, src := c.id, cmd := x.id, region := x.region, cond := x.cond, sp, words := h.words, bad := h.bad, clean := h.clean,
    bytes, counts }

/-- The innermost copies of a command, from the first, that follow on to cover addresses lo to hi - 1 without a gap. -/
def CopyCmd.covers (x : CopyCmd) (c : Core) (dlen hi : Nat) : Nat → Nat → Bool
  | 0, lo => decide (hi ≤ lo)
  | k + 1, lo =>
    if hi ≤ lo then true
    else match (List.range x.iters).find? fun i => let d := (x.dstAt c i).toNat; decide (d ≤ lo ∧ lo < d + dlen) with
      | some i => x.covers c dlen hi k ((x.dstAt c i).toNat + dlen)
      | none => false

/-- The global tile of a chunk is written whole by its command with a set mode: it is allocated without a fill (R278). -/
def allocates (x : CopyCmd) (c : Core) (dlen a : Nat) : Bool :=
  (decide (x.mode = .fefull) || decide (x.mode = .feempty)) && x.covers c dlen (a / 4096 * 4096 + 4096) 4096 (a / 4096 * 4096)

/-- A tile comes in without a fill: nothing of it is checked (R218, R278). -/
def State.allocTile (s : State) (n : Nat) : State :=
  if (s.tileOf n).inCache then s else s.putTile n { s.tileOf n with inCache := true, broken := false, under := none, stored := none, keyid := fld s.core.keysel 0 10 }

/-- A chunk of an innermost copy leaves for its destination: the state, or a failure or a wait. A chunk for the scratchpad is counted when
its last word is written; one for global memory may be counted before (R275, R285, R295). -/
def writeSide (x : CopyCmd) (dlen it o n : Nat) (l : Lump) (s : State) : Got :=
  let c := s.core
  let d := (x.dstAt c it).toNat
  let a := (word d + word o).toNat
  let bars := (barOf x.target).toList ++ (x.ringD.toList.map fun e => (c.ring x.dring).barrier e)
  if x.dstGlobal then
    match reach s false true (!x.keeps) [(a, n)] with
    | .error c => .fail c
    | .ok ps =>
      let pa := (ps.head?.map (·.at')).getD 0
      if s.unmade ps then .wait { s with core := { s.core with mark := .stall } }
      else match served s ps with
      | none => .wait { s with core := { s.core with mark := .stall } }
      | some s =>
        let s := if inDevice pa && allocates x c dlen a then s.allocTile (pa / 4096) else s
        let (s, bad) := s.touchPieces ps
        let s := s.launch { x.flight c ((chunkOf x c dlen it o n l).moved a pa) false 0 [] with early := bars }
        .ok (bars.foldl (fun (s : State) b => s.lowerBar b n) s) [] bad
  else if s.spadSize < a + n then .fail 0x02
  else
    match c.needOf true (probes a n) with
    | .perm => .fail 0x03
    | .obtain w t => .wait (waitTile w t true s)
    | .none =>
      if c.granuleBusy [{ off := 0, at' := a, len := n }] then .wait { s with core := { c with mark := .stall } }
      else .ok (s.launch (x.flight c (chunkOf x c dlen it o n l) true n (bars.map fun b => (c.id, b)))) [] false

/-! ### Chunks (R267) -/

/-- Bytes of the chunk at destination offset o: up to the end of its block of 256 bytes (R267). -/
def chunkLen (d o dlen : Nat) : Nat := min (dlen - o) (256 - (d + o) % 256)

/-- The cursor behind a chunk. -/
def cursorPast (dlen it o n : Nat) : Nat := if o + n = dlen then atCopy (it + 1) else atCopy it + o + n

/-- Poison every sector of a lump. -/
def spoil (l : Lump) : Lump := l.map fun (b : Byte × Bool × Bool) => (b.1, b.2.1, true)

/-- One chunk of a command that writes here: a failed fill poisons it and ends the command with TAG_FAIL (R232, R276). Log 7, DESIGN CHOICE. Log 23, DEDUCED. -/
def moveChunk (x : CopyCmd) (dlen it o : Nat) (s : State) : Outcome :=
  let c := s.core
  let n := chunkLen (x.dstAt c it).toNat o dlen
  match chunkBytes x c it o n s with
  | .fail code => done (doomed code x s)
  | .wait s' => .next s'
  | .ok s1 l bad =>
    match writeSide x dlen it o n (if bad then spoil l else l) s1 with
    | .fail code => done (doomed code x s)
    | .wait s' => .next s'
    | .ok s2 _ bad' =>
      let y := { x with cursor := cursorPast dlen it o n, counted := x.counted + n,
                        bits := x.keptBits c dlen it o n l (chunkOf x c dlen it o n l).words }
      if bad || bad' then
        let s3 := if bad then s2 else match writeSide x dlen it o n (spoil l) s1 with | .ok s3 _ _ => s3 | _ => s2
        done (doomed 0x06 y s3)
      else done { s2 with core := s2.core.putCopy y }

/-! ### Multicast (R291, R292) -/

/-- The receiver whose chunk is next: the one least far on among those that have chunks to come and are not waited for. The second chunk
leaves for a receiver when the first has reserved its entry. -/
def nextReceiver (x : CopyCmd) (s : State) : Option Nat :=
  let at' (r : Nat) : Nat := (assocGet x.sent r).getD 0
  let open' := (x.receivers s).filter fun r =>
    decide (at' r < atCopy x.iters) && ((assocGet x.landed r).isSome || decide (at' r = 0))
  open'.foldl (fun (b : Option Nat) r => match b with
    | some q => if at' r < at' q then some r else b
    | none => some r) none

/-- One chunk of a multicast leaves for one receiver, cut and converted for the entry that it holds or would take there (R271, R291). -/
def sendChunk (x : CopyCmd) (r : Nat) (s : State) : Outcome :=
  let c := s.core
  let (y, cd) := x.toward s r
  let e := y.ringD.getD 0
  let at' := (assocGet x.sent r).getD 0
  let it := at' / 2 ^ 40
  let o := at' % 2 ^ 40
  match y.dlen c cd with
  | none => done (doomed 0x07 x s)
  | some dlen =>
    let d := (y.dstAt cd it).toNat
    let n := chunkLen d o dlen
    let a := (word d + word o).toNat
    if (if r = c.id then s.spadSize else 0x60000) < a + n then done (doomed 0x02 x s)
    else match chunkBytes y cd it o n s with
      | .fail code => done (doomed code x s)
      | .wait s' => .next s'
      | .ok s l bad =>
        let h := chunkOf y cd dlen it o n (if bad then spoil l else l)
        let past := cursorPast dlen it o n
        let m : Mcast :=
          { core := r, ring := x.dring, entry := e, first := (assocGet x.landed r).isNone, at' := a, bytes := n, words := h.words, bad := h.bad,
            clean := h.clean, src := c.id, cmd := x.id, region := x.region, cond := x.cond, bar := barOf x.target, bundle := x.bundle,
            slot := x.slot, seq := x.seq, total := y.total c cd, last := decide (past = atCopy x.iters) }
        let z := { x with sent := assocPut x.sent r past, counted := x.counted + n, bits := y.keptBits cd dlen it o n l h.words }
        let s : State := { s with mcasts := s.mcasts ++ [m], core := s.core.putCopy z }
        if bad then done (doomed 0x06 z s) else done s

/-! ### TFETCH (R388) -/

/-- One tile of a TFETCH: obtain it, count it, go to the next. A tile in E that is asked for as M becomes M with its notice, as at a first
write (R381, R388). -/
def fetchTile (x : CopyCmd) (s : State) : Outcome :=
  let req := x.w 0
  let own := req.getLsbD 32
  match s.core.windowAt (fld req 0 19) with
  | none => done (failActive 0x01 x s)
  | some (d, first) =>
    let t := first + x.cursor
    if (d.tiles.getD t .i).serves own then
      let n := 2 ^ d.tl
      let x := { x with cursor := x.cursor + 1, counted := x.counted + n }
      let s := if own then s.winWrote (d.lbase + t * n) else s
      let s : State := { s with core := s.core.putCopy x }
      let s := match barOf x.target with
        | some a => s.lowerBar a n
        | none => s
      if fld req 20 12 ≤ x.cursor then done (endCommand x s) else done s
    else .next (waitTile d t own s)

/-- TFETCH is accepted as a copy command (R388). -/
def execTfetch (a b : GReg) (s : State) : Outcome :=
  cslot [a, b] s fun ws s =>
    let c := s.core
    let req := opd ws 0
    let x : CopyCmd := { slotCopy c .tfetch .fekeep req (opd ws 1) with desc := [req] }
    if 8 ≤ c.copies.length then stall s
    else if !targetOk s x.target then done (copyTrap 0x081 x.target 0 x s)
    else
      let missing := x.allBytes s
      match c.windowAt (fld req 0 19) with
      | none => done (failCopy 0x01 missing x s)
      | some (d, first) =>
        if !onlyBits req 0x1FFF7FFFF || decide (fld req 20 12 = 0) || decide (3072 < fld req 20 12)
            || decide ((fld req 0 19 - d.lbase) % 2 ^ d.tl ≠ 0) || decide (d.nt < first + fld req 20 12) then done (failCopy 0x01 missing x s)
        else if req.getLsbD 32 && !d.write then done (failCopy 0x03 missing x s)
        else if s.inCompute then done (failCopy 0x05 missing x s)
        else done { s with core := { c with nextId := c.nextId + 1, copies := c.copies ++ [{ x with id := c.nextId }] } }

/-! ### Steps -/

/-- The next chunk of an active command; one that is to fail does so once it has nothing on its way (R267, R276). -/
def copyStep (x : CopyCmd) (s : State) : Outcome :=
  if x.doom.isSome then (if s.cmdLanded s.core.id x.id then done (endIfDone x.id s) else stall s)
  else if x.kind = .tfetch then fetchTile x s
  else
    let c := s.core
    let rs := c.ring x.sring
    if x.sre && x.ringS.isNone && decide (rs.prod ≤ rs.cons) then stall s
    else
      let x := if x.sre ∧ x.ringS.isNone then { x with ringS := some rs.cons } else x
      let s := ({ s with core := c.putCopy x } : State).asCopy x
      let r :=
        if x.isEmpty s then done (endCommand x s)
        else if x.allMoved s then stall s
        else if x.kind = .cpym then (match nextReceiver x s with | some r => sendChunk x r s | none => stall s)
        else moveChunk x ((x.dlen s.core s.core).getD 0) (x.cursor / 2 ^ 40) (x.cursor % 2 ^ 40) s
      match r with
      | .next s' => .next (s'.asBefore c)
      | o => o

/-- The command can move a chunk now. -/
def copyReady (x : CopyCmd) (s : State) : Bool :=
  match copyStep x s with
  | .next s' => decide (s'.core.mark = .ok)
  | _ => false

/-- The command whose turn comes last has moved to the end of the list (R267). -/
def Core.turned (c : Core) (id : Nat) : Core :=
  { c with copies := (c.copies.filter fun (x : CopyCmd) => decide (x.id ≠ id)) ++ c.copies.filter fun (x : CopyCmd) => decide (x.id = id) }

/-- COPY_CHUNK: one chunk of active command n of the core, when no command before it in turn can move one (R267); with `flag`, words of
chunk n on its way to this core's scratchpad, or from its engine to memory, are written (R299). Log 7, DESIGN CHOICE. -/
def execCopyChunk (s : State) : Outcome :=
  if s.args.flag then
    match s.flights.find? fun f => decide (f.no = s.args.n) && decide (f.core = s.core.id) with
    | some f => landFlight f s
    | none => done s
  else match s.core.copies.find? fun (x : CopyCmd) => decide (x.id = s.args.n) with
    | none => done s
    | some x =>
      if (s.core.copies.takeWhile fun (y : CopyCmd) => decide (y.id ≠ x.id)).any fun y => copyReady y s then stall s
      else match copyStep x s with
        | .next s' => .next { s' with core := if s'.core.mark = .ok then s'.core.turned x.id else s'.core }
        | o => o

/-- The sender's command, from the receiver's side. -/
def Mcast.command (m : Mcast) (s : State) : Option CopyCmd := (s.coreAt m.src).copies.find? fun (x : CopyCmd) => decide (x.id = m.cmd)

/-- The receiver refuses a chunk: the sender's command fails, or has failed already; the chunk's bytes will not be delivered (R277, R292). -/
def failSender (m : Mcast) (code : Nat) (s : State) : State :=
  s.visit m.src fun s =>
    match s.core.copies.find? fun (x : CopyCmd) => decide (x.id = m.cmd) with
    | some x => doomed code { x with counted := x.counted - m.bytes } s
    | none => match m.bar with
      | some b => s.lowerBar b m.bytes
      | none => s

/-- The target's die refuses a chunk that its core's region does not allow: a record here, REMOTE_PERM at the sender, or its region's halt,
and the command fails with XLATE (R209, R324, R325). Log 13, DEDUCED. -/
def refuseMcast (m : Mcast) (s : State) : State :=
  let here := if s.inPod then s.pkg else 0
  let src := s.coreAt m.src
  let t : Trap :=
    { code := 0x0C1, impr := true, tpc := m.bundle, tmask := word (2 ^ m.slot), tval := word m.at',
      tinfo := tinfoImage m.seq false true 0 here src.die src.lcore }
  let s' := s.recordHv t 0 s.core.part
  let info := tinfoImage m.seq false true 0 here s.core.die s.core.lcore
  failSender m 0x03 (if m.cond then s'.haltRegion m.region 0x01E else s'.visit m.src (hold { t with tinfo := info }))

/-- The chunk is written into ring entry e, and counts there and at the sender (R291). -/
def takeMcast (m : Mcast) (e : Nat) (s : State) : State :=
  let r := s.core.ring m.ring
  s.launch { no := 0, core := m.core, src := m.src, cmd := m.cmd, region := m.region, cond := m.cond, sp := true, words := m.words, bad := m.bad,
             clean := m.clean, bytes := m.bytes, counts := (m.core, r.barrier e) :: (m.bar.toList.map fun b => (m.src, b)),
             fill := if m.last then some (m.ring, e) else none }

/-- MULTICAST_ARRIVAL: the oldest chunk on its way to this core lands in its ring (R291, R292). The first chunk reserves the entry; one that
was made for another entry than it gets is sent anew. Log 22, DEDUCED. -/
def execMulticastArrival (s : State) : Outcome :=
  match s.mcasts.find? fun (m : Mcast) => decide (m.core = s.core.id) with
  | none => done s
  | some m =>
    let r := s.core.ring m.ring
    let gone (s : State) : State := { s with mcasts := s.mcasts.erase m }
    if !r.isSet ∨ r.esize ≠ m.total then done (failSender m 0x08 (gone s))
    else if m.first ∧ r.cons + r.count ≤ r.rsv then
      let s := gone s
      let s := if s.inScheduled then s.haltRegion s.core.region 0x086
        else hold { s.impreciseTrap 0x086 (word m.ring) 0 s.core.pc 0 s.core.seq with tmask := 0 } s
      done (failSender m 0x09 s)
    else if s.spadSize < m.at' + m.bytes then done (refuseMcast m (gone s))
    else match s.core.needOf true (probes m.at' m.bytes) with
      | .perm => done (if m.src = s.core.id then failSender m 0x03 (gone s) else refuseMcast m (gone s))
      | .obtain w t => .next (waitTile w t true s)
      | .none =>
        if s.core.granuleBusy [{ off := 0, at' := m.at', len := m.bytes }] then stall s
        else if m.last && s.flights.any fun f => decide (f.path = .copy ∧ f.core = m.core ∧ f.src = m.src ∧ f.cmd = m.cmd) then stall s
        else
          let s := gone s
          let s := if m.first then { s with core := s.core.putRing m.ring { r with rsv := r.rsv + 1 } } else s
          let e := if m.first then r.rsv else m.entry
          let told (f : CopyCmd → CopyCmd) (s : State) : State := s.visit m.src fun s =>
            match s.core.copies.find? fun (x : CopyCmd) => decide (x.id = m.cmd) with
            | some x => { s with core := s.core.putCopy (f x) }
            | none => s
          let s := if m.first then told (fun x => { x with landed := assocPut x.landed m.core e }) s else s
          if e = m.entry then done (takeMcast m e s)
          else done (told (fun x => { x with sent := assocPut x.sent m.core 0, counted := x.counted - m.bytes, bits := x.bits.filter fun b => decide (b.1.1 ≠ m.core) }) s)

/-! ### WRSR of a bank format register (R211) -/

/-- The core as a queued slot reads its g operands there. -/
def QSlot.reader (q : QSlot) (c : Core) : Core := { c with early := q.gsrc ++ c.early }

/-- The command that the descriptor of a queued C slot would make now, with the descriptor's address and words. -/
def QSlot.command (q : QSlot) (c : Core) : Option (Nat × Nat × CopyCmd) :=
  let c := q.reader c
  let copy (kind : CopyKind) (a : GReg) (m : FeMode) : Option (Nat × Nat × CopyCmd) :=
    let k := if kind = .cpy then 4 else 16
    let at' := (c.gVal a).toNat
    some (at', k, { slotCopy c kind m (c.gVal a) 0 with desc := descWords c at' k })
  match q.instr with
  | .cpy a _ m => copy .cpy a m
  | .cpyn a _ m => copy .cpyn a m
  | .cpyp a _ m => copy .cpyp a m
  | .cpym a _ m => copy .cpym a m
  | .cpyg a _ m => copy .cpyg a m
  | .cpyq _ b m => copy .cpyq b m
  | _ => none

/-- Entries of ring n that a queued C slot releases and reserves (R288, R289). -/
def QSlot.ringMoves (q : QSlot) (c : Core) (n : Nat) : Nat × Nat :=
  match q.command c with
  | some (_, _, x) => (if x.sre && decide (x.sring = n) then 1 else 0, if x.dre && decide (x.dring = n) then 1 else 0)
  | none =>
    let c := q.reader c
    match q.instr with
    | .rngadvRelease a b | .rngadvCommit a b =>
      if fld (c.gVal a) 0 4 ≠ n then (0, 0) else if fld (c.gVal a) 4 2 = 0 then ((c.gVal b).toNat, 0) else (0, (c.gVal b).toNat)
    | _ => (0, 0)

/-- The same for a list of slots. -/
def slotMoves (c : Core) (l : List QSlot) (n : Nat) : Nat × Nat :=
  l.foldl (fun p q => let m := q.ringMoves c n; (p.1 + m.1, p.2 + m.2)) (0, 0)

/-- A queued C slot reads or writes a scratchpad byte of a range, behind the C slots `before`: the command that its descriptor would make, the
descriptor, or the barrier and ring objects that it names. -/
def QSlot.touches (q : QSlot) (s : State) (before : List QSlot) (lo n : Nat) : Bool :=
  let c := q.reader s.core
  let at' (r : GReg) : Nat := (c.gVal r).toNat
  let bars (r : Ring) : Bool := rangesMeet r.bars (16 * r.count) lo n
  (match q.command s.core with
    | some (a, k, x) => rangesMeet a (8 * k) lo n || x.touches s lo n ((slotMoves s.core before x.sring).1, (slotMoves s.core before x.dring).2)
    | none => false)
  || match q.instr with
  | .tfetch a _ => ({ slotCopy c .tfetch .fekeep 0 0 with desc := [c.gVal a] } : CopyCmd).touches s lo n
  | .barinit a _ | .barexp a _ => rangesMeet (at' a) 16 lo n
  | .rngset _ b => rangesMeet (fld (c.gVal b) 0 19) (16 * fld (c.gVal b) 32 9) lo n
  | .rngadvRelease a _ | .rngadvCommit a _ => bars (c.ring (fld (c.gVal a) 0 4))
  | .lnkSendPut a _ | .lnkSendGet a _ | .lnkSendAtomic a _ | .lnkSendMessage a _ | .lnkRecv a _ | .lnkRadd a _ | .lnkRed a _ | .netPost a _ =>
    rangesMeet (at' a) 64 lo n
  | _ => false

/-- A queued M slot reads a scratchpad byte of a range: the tiles of an operation, or the ring entries that an MMAS will take behind the slots and
commands that release entries before it. -/
def QSlot.readsTiles (q : QSlot) (c : Core) (lo n : Nat) : Bool :=
  let take (r planes count : Nat) : List Piece :=
    let ring := c.ring r
    let k := min ring.count (c.releasing r + (slotMoves c c.ceq.flatten r).1)
    (List.range (max k count)).map fun t => { off := 0, at' := ring.entry (ring.cons + t), len := tileBytes planes }
  let ps := match q.ringWords c with
    | some (rw, cw) => take (fld rw 0 4) (fld cw 16 5) (fld cw 0 10) ++ take (fld rw 8 4) (fld cw 24 5) (fld cw 0 10)
    | none => ((queuedOps c q).map MOps.reads).getD []
  ps.any fun (p : Piece) => rangesMeet p.at' p.len lo n

/-- WRSR of a bank format register waits for every earlier slot and every command that touches the bank, and for its granule; it governs
later slots (R211). Log 34, DEDUCED. -/
def execBankFormatRegister (d : GReg) (bank : BitVec 9) (s : State) : Outcome :=
  let n := 0x800 + bank.toNat
  match srCheck s n true with
  | some code => srTrap code n s
  | none =>
    let lo := bank.toNat * 0x400
    let p : List Piece := [{ off := 0, at' := lo, len := 0x400 }]
    getG d s fun w s =>
      if !bankFormatOk w then trap 0x00A (word n) w s
      else afterAccesses true p s fun s =>
        if s.copiesTouch lo 0x400 || s.core.granuleBusy p || (s.core.meq.any fun q => q.readsTiles s.core lo 0x400)
            || s.core.ceq.flatten.zipIdx.any fun x => x.1.touches s (s.core.ceq.flatten.take x.2) lo 0x400 then stall s
        else done { s with core := { s.core with bf := s.core.bf.setIfInBounds bank.toNat (w &&& regBits n) } }

end Sys2Proof.Machine
end

