-- ==== Sys2Proof/Machine/Interrupts.lean ====
section
/-!
DEFINITION. What happens at a bundle boundary (R53, R54, R316, R317): the entry of held imprecise traps, of a pending trap and
of interrupts.
-/

namespace Sys2Proof.Machine

/-- Bundles issued since the one a trap names, modulo 2^24 (R309). -/
def Trap.age (now : Nat) (t : Trap) : Nat := (now % 2 ^ 24 + 2 ^ 24 - fld t.tinfo 40 24) % 2 ^ 24

/-- One trap comes before another in the issue order of their slots (R54). -/
def Trap.precedes (now : Nat) (a b : Trap) : Bool :=
  decide (b.age now < a.age now) || (decide (a.age now = b.age now) && decide (a.tmask.toNat < b.tmask.toNat))

/-- The trap of a list that enters first: issue order, a committed trap last (R54, R317). -/
def firstHeld (now : Nat) : List Trap → Option Trap
  | [] => none
  | t :: r =>
    match firstHeld now r with
    | none => some t
    | some u => if t.committed && !u.committed then some u
        else if u.committed && !t.committed then some t
        else if u.precedes now t then some u else some t

/-- An interrupt may be taken at the core's level (R316). -/
def takeable (c : Core) (t : Trap) : Bool :=
  let l := (t.level.map BitVec.toNat).getD (handlingLevel t.code)
  decide (l < c.level.toNat) || (decide (l = c.level.toNat) && (c.bank l).tstate.getLsbD 1)

/-- The interrupt that is taken next: PREEMPT before INT_EXT (R317). -/
def nextInterrupt (c : Core) : Option Trap :=
  match c.irqs.find? fun t => decide (t.code = 0x01D) && takeable c t with
  | some t => some t
  | none => c.irqs.find? (takeable c)

/-- The core runs work, be it waiting. -/
def RunState.active : RunState → Bool
  | .running | .idle _ | .barwt | .feWait _ _ | .waitm _ _ _ | .raising _ _ | .arriving _ | .atBarrier | .leaving _ _ => true
  | _ => false

/-- A raise of generation that has been made holds its bundle until it commits (R365). -/
def RunState.raises : RunState → Bool
  | .raising _ _ => true
  | _ => false

/-- Something is due at the next bundle boundary, so the core issues nothing (R53, R54, R316). -/
def Core.entryDue (c : Core) : Bool :=
  c.run.active && !c.run.raises && (!c.held.isEmpty || c.pend.isSome || (nextInterrupt c).isSome)

/-- Give an interrupt its addresses (R314); the count is the core's when the core detected it (R309). -/
def atBoundary (t : Trap) (c : Core) : Trap :=
  { t with tpc := c.pc, tnpc := c.pc, tinfo := if fld t.tinfo 35 3 ≤ 1 then setFld t.tinfo 40 24 c.seq else t.tinfo }

/-- An imprecise trap at the boundary: TNPC is the first bundle that has not issued (R54, R314); one that ends the wait of a synchronising access,
of BARWT or of WAITM is delivered with TPC at the waiting bundle, and one that wakes IDLE with TPC at the next bundle (R88, R122, R191, R285).
Log 70, DEDUCED. -/
def atWait (t : Trap) (c : Core) : Trap :=
  if t.committed then t
  else match c.run with
    | .feWait _ _ | .waitm _ _ _ | .barwt | .idle _ => { t with tpc := c.pc, tnpc := c.pc }
    | _ => { t with tnpc := c.pc }

/-- Once the engines have drained, the first event of R317 enters: a held imprecise trap; then a pending trap; then an interrupt. Held traps
behind it wait for the RFT of its handler, and so does a committed trap; any other pending trap is raised again by its bundle (R53, R54). -/
def execTrapEntry (s : State) : Outcome :=
  let c := s.core
  if !c.entryDue || !c.drained then stall s
  else match firstHeld c.seq c.held with
    | some t =>
      let rest := c.held.erase t ++ (c.pend.filter fun (p : Trap) => p.committed).toList
      done (enterTrap (atWait t c) { s with core := { c with held := [], later := (rest.map fun u => (0, u)) ++ c.later, pend := none } })
    | none =>
      match c.pend with
      | some t => done (enterTrap t { s with core := { c with pend := none } })
      | none =>
        match nextInterrupt c with
        | some t => done (enterTrap (atBoundary t c) { s with core := { c with irqs := c.irqs.erase t } })
        | none => stall s

/-- An interrupt becomes pending at a core; one that sleeps in IDLE wakes (R88, R316). -/
def Core.interrupt (c : Core) (t : Trap) : Core := { c with irqs := c.irqs ++ [t] }.wakeIdle

end Sys2Proof.Machine
end

