-- ==== Sys2Proof/Machine/Launch.lean ====
section
/-!
DEFINITION. The launch engine: region control blocks (R173, R174), child launches (R194), leases and page faults (R224 to R226),
the start of a region's cores (R175, R187, R355), and its end: the completion record (R193, R352) and the verdict (R353).
-/

namespace Sys2Proof.Machine

/-! ### Memory as the launch engine sees it -/

/-- Physical address of a region's virtual address: its frozen leases first, else as its address space stands (R219, R225). -/
def State.regionPlace (s : State) (r : Region) (va : Nat) (rd wr : Bool) : Option Nat :=
  match leasedPage r (va / 4096) with
  | some (f, pr, pw, _) => if (rd && !pr) || (wr && !pw) then none else some (f * 4096 + va % 4096)
  | none => s.vatPlace r.part r.asid va rd wr

/-- Places of every page of a range. -/
def placeAll (f : Nat → Option Nat) : List (Nat × Nat) → Option (List Piece)
  | [] => some []
  | (va, n) :: l =>
    match f va, placeAll f l with
    | some pa, some ps => some ({ off := 0, at' := pa, len := n } :: ps)
    | _, _ => none

/-- The tiles of the table entries that a translation for a region reads come in, where no lease holds the page (R218, R225, R230). -/
def State.touchWalk (s : State) (r : Region) (va : Nat) : State :=
  if (leasedPage r (va / 4096)).isSome then s else s.touchVat r.part r.asid va

/-- The tiles that an access to a range of a region's memory meets come in: those of the tables, and those of the range (R218, R230). -/
def State.touchRegion (s : State) (r : Region) (va n : Nat) : State :=
  (pages (n / 4096 + 2) va n).foldl (fun (s : State) p =>
    let s := s.touchWalk r p.1
    match s.regionPlace r p.1 false false with
    | some pa => s.forSpace r.part r.asid fun s => s.touchRange pa p.2
    | none => s) s

/-- Write bytes piece by piece. -/
def State.writePieces (s : State) : List Piece → List Byte → State
  | [], _ => s
  | p :: r, bs => (s.writePhys p.at' (bs.take p.len)).writePieces r (bs.drop p.len)

/-- Write a range of a region's memory, when every page of it can be written: the pages are its partition's, under the partition's key (R230,
R437). -/
def State.writeFor (s : State) (r : Region) (va : Nat) (bs : List Byte) : Option State :=
  let s := s.touchRegion r va bs.length
  (placeAll (fun va => s.regionPlace r va false true) (pages (bs.length / 4096 + 2) va bs.length)).map fun ps =>
    s.forSpace r.part r.asid fun s => s.writePieces ps bs

/-! ### Region control blocks (R173, R174) -/

/-- Bits of word n of a block that are not reserved. -/
def rcbBits (n : Nat) : Word :=
  match n with
  | 0 => 0x7FFF0007
  | 1 | 2 | 7 | 11 | 12 | 13 => 0x1FFFFFFFFFFFFFF
  | 3 => 0x7FF07FF
  | 4 => 0x1F1F01FF
  | 5 => 0xFFFF000F
  | 6 | 9 | 10 => BitVec.allOnes 64
  | 8 => 0xFFFF
  | _ => 0

/-- A field with OVR bit `bit`: given by the block, or inherited. -/
def rcbField (ws : List Word) (bit at' lo n inherited : Nat) : Nat :=
  if (ws.getD 0 0).getLsbD (16 + bit) then fld (ws.getD at' 0) lo n else inherited

/-- The effective fields of a block (R173, R174). -/
def regionOf (p : Partition) (ws : List Word) (block asid part : Nat) (level : BitVec 2) (parent : Option Region) : Region :=
  let up (f : Region → Nat) (root : Nat) : Nat := (parent.map f).getD root
  let has : BitVec 15 := (ws.getD 0 0 >>> 16).setWidth 15
  { id := 0, block, asid, part, level,
    parent := parent.map fun q => q.id,
    scheduled := decide (fld (ws.getD 0 0) 0 2 = 0), fe := (ws.getD 0 0).getLsbD 2,
    entry := rcbField ws 0 2 0 57 (up (·.entry) 0),
    ncores := rcbField ws 1 3 0 11 (up (·.ncores) 1),
    roots := rcbField ws 2 3 16 11 (up (·.roots) 1),
    banks := rcbField ws 3 4 0 9 (up (·.banks) 384),
    accs := rcbField ws 4 4 16 5 (up (·.accs) 16),
    engines := rcbField ws 5 4 24 5 (up (·.engines) ((p.engines.map BitVec.toNat).getD 31)),
    priority := rcbField ws 6 5 0 4 (up (·.priority) 0),
    fdom := rcbField ws 7 5 16 16 (up (·.fdom) 0),
    deadline := rcbField ws 8 6 0 64 (up (·.deadline) 0),
    leaseList := rcbField ws 9 7 0 57 (up (·.leaseList) 0),
    nleases := rcbField ws 9 8 0 16 (up (·.nleases) 0),
    rate := rcbField ws 10 9 0 32 (up (·.rate) p.rate),
    ceiling := rcbField ws 10 9 32 32 (up (·.ceiling) p.ceiling),
    arg := word (rcbField ws 11 10 0 64 (up (·.arg.toNat) 0)),
    sched := rcbField ws 12 11 0 57 (up (·.sched) 0),
    tasks := rcbField ws 13 12 0 57 (up (·.tasks) 0),
    compl := rcbField ws 14 13 0 57 (up (·.compl) 0),
    has := has ||| (parent.map fun q => q.has).getD 0 }

/-- A value stays within a limit where 0 means none. Log 39, DEDUCED. -/
def withinLimit (x limit : Nat) : Bool := decide (limit = 0) || decide (x ≠ 0 ∧ x ≤ limit)

/-- The block's fields are in range and its required addresses given (R173, R174). -/
def blockRanges (ws : List Word) (r : Region) : Bool :=
  ((List.range 32).all fun i => onlyBits (ws.getD i 0) (rcbBits i)) && decide (fld (ws.getD 0 0) 0 2 ≤ 1)
    && r.has.getLsbD 0 && decide (r.entry % 64 = 0) && r.has.getLsbD 14
    && (if r.scheduled then r.has.getLsbD 12 else r.has.getLsbD 13 && decide (1 ≤ r.roots ∧ r.roots ≤ r.ncores))
    && decide (1 ≤ r.ncores ∧ r.ncores ≤ 1024) && decide (r.banks ≤ 384) && decide (r.accs ≤ 16) && decide (r.nleases ≤ 8192)
    && decide (r.rate = 0 ∨ 1 ≤ r.ceiling)

/-- The block keeps within its parent's effective values, or a root within its partition (R174). -/
def blockLimits (p : Partition) (ws : List Word) (r : Region) (parent : Option Region) : Bool :=
  let sub (a b : Nat) : Bool := (List.range 5).all fun i => decide (a / 2 ^ i % 2 ≤ b / 2 ^ i % 2)
  match parent with
  | some q => decide (ws.getD 1 0 = word q.block) && decide (r.ncores ≤ q.ncores ∧ r.banks ≤ q.banks ∧ r.accs ≤ q.accs)
      && sub r.engines q.engines && decide (r.ceiling ≤ q.ceiling) && withinLimit r.deadline q.deadline
  | none => decide (ws.getD 1 0 = 0) && decide (r.ncores ≤ (p.cores.getD []).length)
      && sub r.engines ((p.engines.map BitVec.toNat).getD 31) && decide (r.ceiling ≤ p.ceiling)

/-! ### Taking a launch -/

/-- A region's priority is lowered to its partition's ceiling (R433). -/
def Region.lowered (r : Region) (p : Partition) : Region := { r with priority := min r.priority p.prio }

/-- The launch engine takes a region: it becomes live under a new identifier, and belongs to its parent's tree (R194). -/
def State.addRegion (s : State) (r : Region) (parent : Option Region) : State :=
  let id := s.nextRgn
  { s with nextRgn := id + 1,
           regions := s.regions ++ [{ r.lowered (s.part r.part) with id := id, root := (parent.map fun q => q.root).getD id }] }

/-- A work queue. -/
def State.queue (s : State) (q : Nat) : WorkQueue := (assocGet s.wqs q).getD {}
/-- EN. -/
def WorkQueue.en (w : WorkQueue) : Bool := w.cfg.getLsbD 63
/-- Entries published and not read. -/
def WorkQueue.waiting (w : WorkQueue) : Nat := (w.tail + 2 ^ 16 - w.head) % 2 ^ 16
/-- There is an entry to read. -/
def WorkQueue.hasEntry (w : WorkQueue) : Bool := w.en && !w.err && decide (w.waiting ≠ 0)
/-- Put a queue back. -/
def State.putQueue (s : State) (q : Nat) (w : WorkQueue) : State := { s with wqs := assocPut s.wqs q w }

/-- An active queue that has come to have no entry to read becomes inactive in 10 us (R376). -/
def State.idleTimer (s : State) (q : Nat) : State :=
  let d : Due := { instr := .queueInactive, args := { n := q, m := s.clk }, at' := s.pktime + 22500 }
  if s.active.contains q && !(s.queue q).hasEntry && !s.timers.contains d then (s.putQueue q { s.queue q with idle := s.clk }).addTimer d else s
/-- The same, where the queue had an entry before. -/
def State.lostEntries (s : State) (had : Bool) (q : Nat) : State := if had then s.idleTimer q else s

/-- A queue stops on an error (R375); one that had entries to read has none now (R376). -/
def State.queueErr (s : State) (q code : Nat) : State :=
  (s.putQueue q { s.queue q with err := true, code := code }).lostEntries (s.queue q).hasEntry q

/-- The completion record can be written: compl is given, aligned, and translates for writing (R375). -/
def State.complOk (s : State) (r : Region) : Bool :=
  r.has.getLsbD 14 && decide (r.compl % 8 = 0) && (placeAll (fun va => s.regionPlace r va false true) (pages 2 r.compl 256)).isSome

/-- A launch that cannot start ends with a status (R321). -/
def State.failLaunch (s : State) (id code : Nat) : State :=
  match s.region? id with
  | some r =>
    (s.putRegion { r with status := if r.status = 0 then code else r.status, state := .complete, count := 0 }).addTodo
      { instr := .completionRecord, args := { n := id } }
  | none => s

/-- Take a block whose words have been read: an invalid one ends with RCB_INVALID, and where no record can be written its queue stops behind
the entry, with CODE 0x04 (R174, R194, R375). Log 42, DEDUCED. -/
def State.takeBlock (s : State) (ws : List Word) (block asid part : Nat) (level : BitVec 2) (parent : Option Region)
    (fromQ : Option (Nat × Word × Bool × Nat)) : State :=
  let p := s.part part
  let r := { regionOf p ws block asid part level parent with fromQ := fromQ }
  let ok := blockRanges ws r && blockLimits p ws r parent
  let id := s.nextRgn
  let s := (s.addRegion r parent).touchWalk r r.compl
  let s := match fromQ with
    | some (q, _) => if s.complOk r then s else s.queueErr q 0x04
    | none => s
  if ok then s else s.failLaunch id 0x148

/-- WRSR of LAUNCH (R194): the block must lie in the leases of the running region; the launch engine takes the request. -/
def execLaunch (d : GReg) (s : State) : Outcome :=
  writing 0x187 d s fun w s =>
    match s.myRegion with
    | none => trap 0x016 w 0 s
    | some q =>
      match leasedPage q (w.toNat / 4096) with
      | some (f, _) =>
        if w.toNat % 256 ≠ 0 ∨ 2 ^ 57 ≤ w.toNat then trap 0x016 w 0 s
        else
          let pa := f * 4096 + w.toNat % 4096
          let s := s.forSpace q.part q.asid fun s => s.touchRange pa 256
          let ws := (List.range 32).map fun i => s.mem.word (pa + 8 * i)
          done (s.takeBlock ws w.toNat q.asid q.part s.core.level (some q) none)
      | none => trap 0x016 w 0 s

/-! ### Leases (R224 to R226) -/

/-- An entry of the lease list; none when it is not well formed (R224). -/
def leaseOf (w0 w1 : Word) : Option Lease :=
  if !onlyBits w0 0x1FFFFFFFFFFF007 || decide (fld w0 0 3 = 0) || decide (2 ^ 32 ≤ w1.toNat) || decide (w1 = 0) then none
  else some { start := fld w0 12 45, pages := w1.toNat, x := w0.getLsbD 2, w := w0.getLsbD 1, r := w0.getLsbD 0 }

/-- A child's lease lies inside one of its parent's, with no further kind (R194). -/
def Lease.inside (l m : Lease) : Bool :=
  decide (m.start ≤ l.start ∧ l.start + l.pages ≤ m.start + m.pages) && (!l.x || m.x) && (!l.w || m.w) && (!l.r || m.r)

/-- A second-stage fault of a region's launch: a record for the hypervisor (R226). Log 45, DEDUCED. -/
def State.stage2Fault (s : State) (r : Region) (va gpa : Nat) (table : Bool) : State :=
  s.recordHv { code := 0x145, walk := table, tval := word va, tval2 := word gpa, tinfo := s.vatInfo } r.asid r.part

/-- A first-stage fault: a record at the tail of the page-fault queue, and the launch waits for its answer (R226); where the queue itself cannot be
reached the launch fails. Log 45, DEDUCED. Log 90, DESIGN CHOICE. -/
def State.pageFaultRecord (s : State) (r : Region) (e p va : Nat) : State :=
  let a := s.asidOf r.asid
  let at' := fld (a.word 6) 6 51 * 64 + 32 * a.pfq
  let s := s.touchVat r.part r.asid at'
  match s.vatPlace r.part r.asid at' true true with
  | none => s.failLaunch r.id 0x146
  | some pa =>
    let s := s.forSpace r.part r.asid fun s => s.writePhys pa
      ([word va, word e, Config.faultKind va, 0].flatMap fun (w : Word) => leBytes 8 w.toNat)
    let s := s.putAsid r.asid { s.asidOf r.asid with pfq := a.pfq + 1 }
    s.putRegion { r with state := .pageFault e p pa }

/-- Read a word of the lease list through the two stages (R226). -/
def leaseWord (r : Region) (n va : Nat) (s : State) (k : Word → State → State) : State :=
  let s := s.touchWalk r va
  match s.walk r.part r.asid va true false with
  | .second g t => (s.stage2Fault r va g t).failLaunch r.id 0x146
  | .first => s.pageFaultRecord r n 0 va
  | .ok pa _ _ _ _ =>
    let s := s.forSpace r.part r.asid fun s => s.touchRange pa 8
    k (s.mem.word pa) s

/-- Read entry n of the lease list (R224, R226). -/
def readLease (r : Region) (n : Nat) (s : State) : State :=
  let va := r.leaseList + 16 * n
  leaseWord r n va s fun w0 s => leaseWord r n (va + 8) s fun w1 s =>
    match leaseOf w0 w1 with
    | some l => s.putRegion { r with leases := r.leases ++ [l] }
    | none => s.failLaunch r.id 0x148

/-- A migration toward the device that a lease asks for (R225). -/
def leaseMove (r : Region) (va : Nat) : MigReq := { asid := r.asid, part := r.part, va := va, toHost := false }

/-- A free page of device memory that a partition may use (R221, R225). Log 53, DESIGN CHOICE. -/
def State.devicePage (s : State) (part : Nat) : Option Nat :=
  s.spareDev.find? fun f => inDevice (f * 4096) && frameOk (s.part part).memports (f * 4096)

/-- Acquire page p of entry e: walk, place, pin (R225). A page in host memory is first asked for; with no page to take it, the
acquisition fails. Log 38, DEDUCED. Log 45, DEDUCED. -/
def acquirePage (r : Region) (e p : Nat) (l : Lease) (s : State) : Outcome :=
  let va := (l.start + p) * 4096
  let s := s.touchWalk r va
  match s.walk r.part r.asid va false false with
  | .first => done (s.pageFaultRecord r e p va)
  | .second g t => done ((s.stage2Fault r va g t).failLaunch r.id 0x146)
  | .ok pa pr pw px _ =>
    if inHost pa then
      if s.migs.contains (leaseMove r va) then stall s
      else if (s.devicePage r.part).isNone then done (s.failLaunch r.id 0x146)
      else done { s with migs := s.migs ++ [leaseMove r va] }
    else
      let l := { l with frames := l.frames ++ [pa / 4096], perms := l.perms ++ [(pr, pw, px)] }
      let next := if p + 1 < l.pages then RegionState.acquiring e (p + 1) else .acquiring (e + 1) 0
      done (s.putRegion { r with leases := r.leases.set e l, state := next })

/-- One step of the acquisition (R224, R225, R194). -/
def acquireStep (r : Region) (e p : Nat) (s : State) : Outcome :=
  if r.leases.length < r.nleases then done (readLease r r.leases.length s)
  else if e = 0 ∧ p = 0 ∧ (r.parent.bind s.region?).any (fun q => !(r.leases.all fun l => q.leases.any fun m => l.inside m)) then
    done (s.failLaunch r.id 0x146)
  else match r.leases[e]? with
    | some l => acquirePage r e p l s
    | none => done (s.putRegion { r with state := .waitingCores })

/-- PAGE_FAULT_RESPONSE: the supervisor has answered a page-fault record, 1 retry or 2 abandon (R226). A retry goes on where the launch stood:
at the entry of the list that it was reading, or at the page that it was acquiring. -/
def execPageFaultResponse (s : State) : Outcome :=
  match s.region? s.args.n with
  | some r =>
    match r.state with
    | .pageFault e p pa =>
      let s := s.forSpace r.part r.asid fun s => s.touchRange (pa + 24) 8
      let a := s.mem.word (pa + 24)
      if a = 1 then done (s.putRegion { r with state := if r.leases.length < r.nleases then .acquiring 0 0 else .acquiring e p })
      else if a = 2 then done (s.failLaunch r.id 0x146)
      else stall s
    | _ => done s
  | none => done s

/-! ### Starting a region (R175, R187, R194, R355) -/

/-- Numbers in rising order. -/
def sortNat : List Nat → List Nat
  | [] => []
  | a :: r => insert' a (sortNat r)
where
  insert' (a : Nat) : List Nat → List Nat
    | [] => [a]
    | b :: r => if a ≤ b then a :: b :: r else b :: insert' a r

/-- The sorus of a core holds no tree but this one (R187). Log 41, DEDUCED. -/
def sorusFree (s : State) (c : Core) (root : Nat) : Bool :=
  match (s.sorusOf c.die c.sorus).tree with
  | some t => decide (t = root)
  | none => true

/-- The physical cores that a launch may take, lowest package core number first (R194). Log 41, DEDUCED. -/
def freeCores (s : State) (r : Region) : List Nat :=
  match r.parent.bind s.region? with
  | some q =>
    let ok (id : Nat) : Bool :=
      let c := s.coreAt id
      decide (c.region = some q.id) && (if q.scheduled then decide (c.run = .retired) else decide (c.run = .free))
    (sortNat ((q.budget.filter ok).map fun id => (s.coreAt id).number)).map s.byNumber
  | none =>
    ((sortNat ((s.part r.part).cores.getD [])).map s.byNumber).filter fun id =>
      let c := s.coreAt id
      c.region.isNone && sorusFree s c r.id

/-- The loader's program for a region. -/
def State.program (s : State) (r : Region) : Option Program := s.programs.find? fun p => decide (p.asid = r.asid ∧ p.block = r.block)

/-- Put element j of a shuffled bank's run from address a (R213). -/
def putShuffled (g : SideFmt) (a : Nat) (fe : Bool) (m : Store) (x : SrcElem × Nat) : Store :=
  let w := g.fmt.bits
  let p := elemPlace 1 w a x.2
  let code := x.1.code g.fmt
  if 8 ≤ w then m.load p.1 (leBytes (w / 8) code) fe
  else
    let old := leNat (m.read p.1 1)
    m.load p.1 (leBytes 1 (old - old / 2 ^ p.2 % 2 ^ w * 2 ^ p.2 + code * 2 ^ p.2)) fe

/-- Elements of a format that the loader writes from address a on: it converts them into the format and layout of their bank (R139, R212, R239). -/
def Core.loadTyped (c : Core) (fe : Bool) (m : Store) (x : Nat × Nat × List Byte) : Store :=
  match fmtOf x.2.1, sideFmt c false 0 x.1 with
  | some f, some g =>
    let src : SideFmt := { fmt := f, layout := 0, planes := 1 }
    let n := 8 * x.2.2.length / f.bits
    let es := (List.range n).map fun j => srcElem src 0 (plainLump x.2.2) 0 j
    if g.layout = 1 then es.zipIdx.foldl (putShuffled g x.1 fe) m
    else
      let l := if g.layout = 2 then planeStream src g.planes 0 es 0 (n / 1024 * tileBytes g.planes)
        else (List.range (n * g.fmt.bits / 8)).map fun i => packedByte g.fmt 0 es i
      m.load x.1 (l.map fun (b : Byte × Bool × Bool) => b.1) fe
  | _, _ => m

/-- The scratchpad image and the bank formats of a launch, written into a core (R18, R19, R175): bytes of the image as they are, and elements that
have a format of their own converted into that of their bank. Log 81, DEDUCED. -/
def Core.loadImage (c : Core) (r : Region) (p : Option Program) : Core :=
  let limit := r.banks * 0x400
  let m := c.spad
  let m : Store :=
    { m with bytes := m.bytes.filter fun x => decide (limit ≤ x.1),
             full := m.full.filter fun w => decide (limit ≤ 8 * w),
             poison := m.poison.filter fun x => decide (limit ≤ 32 * x) }
  let pieces := (p.map fun q => q.scratch).getD []
  let m := pieces.foldl (fun (m : Store) x => m.load x.1 x.2 r.fe) m
  let bf := ((p.map fun q => q.formats).getD []).foldl (fun (v : Vector Word 384) x => v.setIfInBounds x.1 x.2) (Vector.replicate 384 0)
  let c := { c with spad := m, bf := bf }
  { c with spad := ((p.map fun q => q.typed).getD []).foldl (c.loadTyped r.fe) m }

/-- The scratchpad image keeps within the region's limit (R209). -/
def imageFits (r : Region) (p : Option Program) : Bool :=
  ((p.map fun q => q.scratch).getD []).all fun x => decide (x.1 + x.2.length ≤ r.banks * 0x400)

/-- The plan that a scheduled region asks for is in force (R355). -/
def planOk (s : State) (r : Region) : Bool :=
  !r.scheduled || (match s.regionPlace r (r.sched - 0x80000) true false with
    | some pa => let n := fld (s.mem.word pa) 0 16; decide (n = 0 ∨ n = s.plan.toNat)
    | none => true)

/-- The first entry of a scheduled region's boundary table is read (R218, R355). -/
def State.touchPlan (s : State) (r : Region) : State := if r.scheduled then s.touchRegion r (r.sched - 0x80000) 8 else s

/-- An earlier launch from the same queue has not started (R375). -/
def queueAheadOf (s : State) (r : Region) : Bool :=
  match r.fromQ with
  | none => false
  | some (q, _) => s.regions.any fun x =>
      decide (x.id < r.id) && (x.fromQ.any fun y => decide (y.1 = q))
        && (match x.state with | .acquiring _ _ | .pageFault _ _ _ | .waitingCores => true | _ => false)

/-- Bucket of a port for a context (R233). -/
def bucketFor (r : Region) (port : Nat) : Bucket :=
  { port := port, ctx := r.asid, prio := r.priority, rate := r.rate, ceiling := r.ceiling, tokens := r.ceiling }

/-- The sori of a budget belong to the tree; a root finds every counter zero (R187). -/
def State.holdSori (s : State) (r : Region) : State :=
  r.budget.foldl (fun (s : State) id =>
    let c := s.coreAt id
    let x := s.sorusOf c.die c.sorus
    if x.tree = some r.root then s else s.putSorus { x with tree := some r.root, counters := [] }) s

/-- A core of a tasked region's budget waits for work, in the region's name (R175). -/
def Core.await (c : Core) (s : State) (r : Region) (ctx : List Word) : Core :=
  { (c.fresh.bind s r r.level ctx) with run := .free, dlreg := word r.deadline, frozen := 0, febudget := 0x100 }

/-- Root task i goes to the sorus of the core of rank i (R175, R183), with the region's priority as its base. Log 41, DEDUCED.
Log 89, DESIGN CHOICE. -/
def State.rootTask (s : State) (r : Region) (ctx : List Word) (i : Nat) : State :=
  let c := s.coreAt (r.budget.getD i 0)
  let rec' := r.tasks + 64 * i
  let s := s.touchVirt r.id ctx (rec' + 8) 8
  (newTask s r c.die c.sorus rec' (word r.entry) (s.wordFrom r.id ctx (rec' + 8)) r.priority ctx r.level (some r.arg) none).1

/-- The region has lent a core to a child (R194). -/
def State.lends (s : State) (r : Region) : Bool := r.budget.any fun id => decide ((s.coreAt id).region ≠ some r.id)

/-- A parent lends cores: it keeps the least DLREG of those that it has lent (R181, R194). Log 40, DEDUCED. -/
def State.lend (s : State) (r : Region) (budget : List Nat) : State :=
  match r.parent.bind s.region? with
  | none => s
  | some q =>
    let m := budget.foldl (fun n id => min n (s.coreAt id).dlreg.toNat) (if s.lends q then q.left else 2 ^ 64)
    s.putRegion { q with left := m }

/-- A SLICE that was written while sealed takes effect at the next launch of a partition that has no slices (R429, R435). Log 44, DEDUCED. -/
def State.takeSlice (s : State) (n : Nat) : State :=
  let p := s.part n
  match p.sliceDue with
  | some k => if p.slice ≠ 0 ∨ k = 0 then s
    else (s.putPart n { p with slice := k, sliceDue := none, sliceAt := s.clk }).addTimer
      { instr := .sliceEnd, args := { n := n, m := s.clk }, at' := s.pktime + k * 2250 }
  | none => s

/-- The cores of a region start (R175, R181, R187, R233, R364). -/
def State.startRegion (s : State) (r : Region) (budget : List Nat) : State :=
  let s := (s.takeSlice r.part).lend r budget
  let ctx := (s.asidOf r.asid).ctx
  let p := s.program r
  let r := { r.lowered (s.part r.part) with
    budget := budget, state := .running, count := if r.scheduled then budget.length else r.roots,
    usedCores := if r.scheduled then sortNat budget else [], left := r.deadline,
    skew := (s.coreAt 1056).skew.toList.map BitVec.toNat }
  let s := (s.putRegion r).holdSori r
  let s : State := { s with buckets := (s.buckets.filter fun b => decide (b.ctx ≠ r.asid))
      ++ (if r.rate = 0 then [] else (List.range 16).map (bucketFor r)) }
  let s := if r.scheduled then s.touchGroupsAs r.id ctx else s
  let s := budget.zipIdx.foldl (fun (s : State) x =>
    s.onCore x.1 fun c =>
      let c := c.loadImage r p
      if r.scheduled then
        { c.startAt s r r.level ctx r.entry r.arg (word x.2) with dlreg := word r.deadline, frozen := 0 }
      else c.await s r ctx) s
  if r.scheduled then s else (List.range r.roots).foldl (fun (s : State) i => s.rootTask r ctx i) s

/-- LEASE_ACQUISITION: the launch engine goes on with launch n: it reads a lease entry, acquires a page, or starts the cores
(R194, R225, R375, R429). -/
def execLeaseAcquisition (s : State) : Outcome :=
  match s.region? s.args.n with
  | none => done s
  | some r =>
    match r.state with
    | .acquiring e p =>
      if 256 ≤ ((s.tree r.root).filter fun q => decide (q.id < r.id)).length then stall s else acquireStep r e p s
    | .waitingCores =>
      if r.hold || queueAheadOf s r || decide ((s.part r.part).st ≠ .sealed) || !(s.part r.part).holds
          || (s.part r.part).ending then stall s
      else
      let s := s.touchPlan r
      if !planOk s r || !imageFits r (s.program r) then done (s.failLaunch r.id 0x148)
      else
        let free := freeCores s r
        if free.length < r.ncores then stall s else done (s.startRegion r (free.take r.ncores))
    | _ => done s

/-! ### The end of a launch (R193, R302, R352) -/

/-- Some command of the region is active; a posted receive is, until a message has landed in it (R269, R302, R405). -/
def regionBusy (s : State) (r : Region) : Bool :=
  (r.budget.any fun id => let c := s.coreAt id
    (c.copies.any fun (x : CopyCmd) => decide (x.region = some r.id)) || c.recvs.any fun (v : Receive) => decide (v.region = some r.id))
    || (s.flights.any fun f => decide (f.region = some r.id)) || (s.mcasts.any fun m => decide (m.region = some r.id))
    || (s.links.any fun l => decide (l.region = some r.id)) || (s.nets.any fun n => decide (n.region = some r.id))

/-- The words of a completion record, word 0 first (R352). -/
def completionWords (s : State) (r : Region) : List Word :=
  let bits := r.usedCores.foldl (fun (n : Nat) id => n ||| 2 ^ id) 0
  let dieUsed (d : Nat) : Bool := r.usedCores.any fun id => decide (id / 132 = d)
  [BitVec.ofNat 64 (2 ^ 63 + 2 ^ 16 + r.status % 512), word (if r.dump = 0 then 0 else (((s.part r.part).dump.map (·.1)).getD 0) + r.dump), word s.pktime, word s.plan.toNat]
    ++ ((List.range 8).map fun d => BitVec.ofNat 64 ((if dieUsed d then 2 ^ 32 else 0) + (s.scans.toList.getD d {}).sseq % 2 ^ 32))
    ++ ((List.range 17).map fun i => BitVec.ofNat 64 (bits / 2 ^ (64 * i)))
    ++ [0, (match r.fromQ with | some (_, t, _) => t | none => 0),
        (match r.fromQ with | some (q, _) => BitVec.ofNat 64 (2 ^ 16 + q % 2 ^ 16) | none => 0)]

/-- The record cannot be written: a queue's ERR with CODE 0x04, or for a child without one a record to FRQS (R194, R375). -/
def State.noRecord (s : State) (r : Region) : State :=
  match r.fromQ with
  | some (q, _) => s.queueErr q 0x04
  | none => if r.has.getLsbD 14 ∨ r.parent.isNone then s else s.recordSv { code := 0x148, tinfo := s.vatInfo } r.asid r.part

/-- A core that belongs to no region. -/
def Core.unbound (c : Core) : Core :=
  { c.freed with
    region := none, run := .halted, part := 0, asid := 0, rq := Vector.replicate 8 [], veq := [], vbusy := false, meq := [], ceq := [], copies := [],
    landBuf := [], pend := none, held := [], irqs := [], after := none, promo := none }

/-- The cores of a region go back: to its parent's budget, whose deadline they count again, or free of any region (R181, R185, R194, R390). Log
33, DEDUCED. -/
def State.releaseCores (s : State) (r : Region) : State :=
  let back := r.parent.bind s.region?
  r.budget.foldl (fun (s : State) id =>
    if (s.coreAt id).region ≠ some r.id then s
    else
      let here := s.core.id
      let s := (dropAll (s.focus id)).focus here
      s.onCore id fun (c : Core) => match back with
        | some q => { c.freed with region := some q.id, dlreg := word q.left, run := if q.scheduled then .retired else .free }
        | none => c.unbound) s

/-- The region ends: its tasks, leases and buckets go, and a root's sori are given up (R187, R225). -/
def State.endRegion (s : State) (r : Region) : State :=
  let s := s.releaseCores r
  { s with regions := s.regions.filter fun q => decide (q.id ≠ r.id),
           tasks := s.tasks.filter fun t => decide (t.region ≠ r.id),
           soruses := if r.parent.isSome then s.soruses else s.soruses.filter fun x => decide (x.tree ≠ some r.root),
           buckets := s.buckets.filter fun b => decide (b.ctx ≠ r.asid) || (s.regions.any fun q => decide (q.id ≠ r.id ∧ q.asid = r.asid)) }

/-- A core that ran the launch has been retired by a scan that it failed (R351, R353). -/
def State.failedCore (s : State) (r : Region) : Bool :=
  r.usedCores.any fun id => (s.scans.toList.getD (id / 132) {}).retired.contains (id % 132)

/-- The record of a region is not due: it is stopped, being saved or being halted, it has work, commands or children left, or a request on a
window of its cores is in progress (R193, R194, R302, R332, R340, R389). -/
def State.recordWaits (s : State) (r : Region) : Bool :=
  (match r.state with | .saving | .saved _ | .halting => true | _ => false)
    || (s.regions.any fun q => decide (q.parent = some r.id)) || regionBusy s r
    || (r.budget.any fun id => (s.coreAt id).wins.any fun (w : WinDecl) => windowBusy s w.wid)

/-- COMPLETION_RECORD: once the children of launch n have completed and its commands have ended, the package node writes the
record with release, then sends the interrupt of its queue entry (R193, R194, R302, R352, R375); a core that has failed its scan by then
makes the record suspect at once (R353). -/
def execCompletionRecord (s : State) : Outcome :=
  match s.region? s.args.n with
  | none => done s
  | some r =>
    if r.count ≠ 0 then done s
    else if s.recordWaits r then stall s
    else
      let place := fun va => s.regionPlace r va false true
      let ws := completionWords s r
      let written := if !r.has.getLsbD 14 ∨ r.compl % 8 ≠ 0 then none
        else s.writeFor r r.compl (ws.flatMap fun w => leBytes 8 w.toNat)
      match written with
      | none => done ((s.noRecord r).endRegion r)
      | some s =>
        let s := match place r.compl, place (r.compl + 232) with
          | some a, some b =>
            let x : Await := { no := r.id, part := r.part, compl := a, word29 := b, cores := r.usedCores, epochs := (List.range 8).map fun d => (s.scans.toList.getD d {}).sseq }
            let s : State := { s with awaits := s.awaits ++ [x] }
            if s.failedCore r then s.addTodo { instr := .verdict, args := { n := r.id, flag := true } } else s
          | _, _ => s
        let s := match r.fromQ with
          | some (_, _, true, v) => { s with msix := s.msix ++ [v] }
          | _ => s
        done (s.endRegion r)

/-- VERDICT: the completion record of launch n is confirmed, or suspect when `flag` is set; once written it stays (R353). -/
def execVerdict (s : State) : Outcome :=
  match s.awaits.find? fun a => decide (a.no = s.args.n) with
  | none => done s
  | some a =>
    let bad := s.args.flag
    let s := s.forPart a.part fun s =>
      let s := (s.writePhys a.word29 (leBytes 8 (2 ^ 63 + (if bad then 2 else 1)))).touchRange a.compl 8
      let w0 := setFld (setFld (s.mem.word a.compl) 16 1 0) (if bad then 18 else 17) 1 1
      s.writePhys a.compl (leBytes 8 w0.toNat)
    done { s with awaits := s.awaits.filter fun b => decide (b.no ≠ a.no) }

end Sys2Proof.Machine
end

