-- ==== Sys2Proof/Machine/Link.lean ====
section
/-!
DEFINITION. The link engines and their ports (R398 to R411): acceptance of link commands, frames, what arrives from other
packages and what returns, atomics and their replay cache, messages, reductions, loss, pod time and circuit slots.
-/

namespace Sys2Proof.Machine

/-! ### Ports (R398, R400, R409) -/

/-- A port. -/
def State.port (s : State) (n : Nat) : Port := (assocGet s.ports n).getD {}
/-- Put a port back. -/
def State.putPort (s : State) (n : Nat) (p : Port) : State := { s with ports := assocPut s.ports n p }
/-- A port can send: it is trained, and bound switched or to a circuit table with EN set (R398, R403, R409). -/
def Port.works (p : Port) : Bool := p.isUp && (decide (p.mode = 1) || (decide (p.mode = 2) && p.en))
/-- A change of a port's state is an external interrupt (R377, R398). -/
def State.portChanged (s : State) (n : Nat) : State := s.addTodo { instr := .intExt, args := { n := 0x400 + n } }

/-- The slot of a circuit table that is open at a pod time: number, and when it ends; none within a guard interval (R409). -/
def slotAt (p : Port) (t : Nat) : Option (Nat × Nat) :=
  let rot := (p.slots.map (·.2)).foldl (· + ·) 0
  if t < p.t0 ∨ rot = 0 then none
  else
    let x := (t - p.t0) % rot
    let rec go : List (Nat × Nat) → Nat → Nat → Option (Nat × Nat)
      | [], _, _ => none
      | d :: r, n, start =>
        if x < start + d.2 then (if start + p.guard ≤ x then some (n, t + (start + d.2 - x)) else none)
        else go r (n + 1) (start + d.2)
    go p.slots 0 0

/-- The identity of a deckle die in a record (R309, R361). Log 13, DEDUCED. -/
def State.deckleInfo (s : State) (port : Nat) : Word := tinfoImage 0 false false 4 (if s.inPod then s.pkg else 0) (port / 24) 0x7F

/-! ### Commands in hand -/

/-- A link command. -/
def State.link? (s : State) (id : Nat) : Option LinkCmd := s.links.find? fun l => decide (l.id = id)
/-- Put a link command back. -/
def State.putLink (s : State) (l : LinkCmd) : State := { s with links := s.links.map fun x => if x.id = l.id then l else x }
/-- Forget a link command. -/
def State.dropLink (s : State) (id : Nat) : State := { s with links := s.links.filter fun x => decide (x.id ≠ id) }

/-- Bytes that a command counts into its barrier (R405). -/
def LinkCmd.counts (l : LinkCmd) : Nat := if l.op = .atomic then 8 else l.len

/-- The command's counter goes down; a conductor's failure halts its region (R275, R411). -/
def linkEnd (l : LinkCmd) (s : State) : State := lowerTarget l.target l.descAddr l.task l.asid l.bundle.toNat l.slot l.seq s

/-- A command fails at its own core: the code, the missing bytes, the counter (R277, R411). -/
def failHere (code missing : Nat) (l : LinkCmd) (s : State) : State :=
  if l.cond then s.haltRegion l.region 0x01E
  else match barOf l.target with
    | none => s
    | some a =>
      let s := s.barErr a code
      let s := if missing = 0 then s else s.lowerBar a missing
      linkEnd l s

/-- Bytes of the frame of a command at an offset: up to the end of a block of 256 at the remote address, and 256 bytes of a message
(R398). Log 47, DEDUCED. -/
def LinkCmd.frameAt (l : LinkCmd) (o : Nat) : Nat :=
  match l.op with
  | .atomic | .poison => l.len
  | .message => min (l.len - o) 256
  | _ => min (l.len - o) (256 - (fld (l.desc.getD 1 0) 0 57 + o) % 256)

/-- The command's region has its cores: its barrier and counter can be reached (R332). -/
def State.reaches' (s : State) (l : LinkCmd) : Bool := l.region.isNone || decide ((s.coreAt l.core).region = l.region)

/-- A command in hand fails; a get has counted what came back (R277, R405). The failure of a command whose region's image is held waits
for the region (R332). One with frames whose answers are still to come stays in hand for them (R324, R325). -/
def failLinkAs (answers : Bool) (code : Nat) (l : LinkCmd) (s : State) : State :=
  if l.dead then s
  else if !s.reaches' l then s.putLink { l with doom := some (l.doom.getD code) }
  else
    let missing := if l.op = .get then l.len - l.acked else l.counts
    let s := if answers && decide (l.acked < l.sent) then s.putLink { l with dead := true, doom := none } else s.dropLink l.id
    s.visit l.core (failHere code missing l)

/-- A command in hand fails, and the answers to its frames are waited for (R277, R325). -/
def failLink (code : Nat) (l : LinkCmd) (s : State) : State := failLinkAs true code l s

/-- A command in hand has ended well: its bytes are counted, all but a get's, which were counted as they came (R405). -/
def endLink (l : LinkCmd) (s : State) : State :=
  if l.dead then s.dropLink l.id else
  (s.dropLink l.id).visit l.core fun s =>
    let s := match barOf l.target with
      | some a => if l.op = .get then s else s.lowerBar a l.counts
      | none => s
    linkEnd l s

/-! ### Acceptance (R403 to R407, R410) -/

/-- Word n of a descriptor. -/
def LinkCmd.w (l : LinkCmd) (n : Nat) : Word := l.desc.getD n 0
/-- RSP: the remote side is global memory. -/
def LinkCmd.rsp (l : LinkCmd) : Bool := (l.w 1).getLsbD 63
/-- RADDR. -/
def LinkCmd.raddr (l : LinkCmd) : Nat := fld (l.w 1) 0 57
/-- RCORE. -/
def LinkCmd.rcore (l : LinkCmd) : Nat := fld (l.w 2) 43 10
/-- ORD. -/
def LinkCmd.ord (l : LinkCmd) : Bool := (l.w 3).getLsbD 63
/-- QEN. -/
def LinkCmd.qen (l : LinkCmd) : Bool := (l.w 3).getLsbD 62
/-- AOP. -/
def LinkCmd.aop (l : LinkCmd) : Nat := fld (l.w 3) 32 4

/-- Bits of word 3 that a command may set (R404). -/
def linkBits (op : FabKind) : Word :=
  match op with
  | .put | .get | .message | .poison => 0xFF00000000000000
  | .atomic => 0x8700001F00000000
  | .radd => 0xF8FF000000000000
  | .red => 0xF8FFFF00FFFFFFFF

/-- A reduction window that a partition has bound: home va, contributors, format code, blocks (R408, R431). -/
def Partition.window (p : Partition) (n : Nat) : Option (Nat × Nat × Nat × Nat) :=
  (p.rwins.find? fun w => decide (w.1 = n)).map fun w => w.2

/-- The operation obeys its row of R405. -/
def linkRow (p : Partition) (l : LinkCmd) : Bool :=
  let laddr := fld (l.w 0) 0 57
  match l.op with
  | .put | .poison => true
  | .get => !l.qen
  | .atomic =>
    let n := if (l.w 3).getLsbD 36 then 8 else 4
    l.rsp && decide (l.len = n) && decide (l.raddr % n = 0) && decide (l.aop ≤ 10) && !(decide (l.aop = 9) && decide (n = 8))
      && (decide (l.aop = 10) || decide (l.w 5 = 0))
  | .message => decide (l.len ≤ 65536)
  | .radd => !l.rsp && decide (l.len % 4 = 0 ∧ l.raddr % 4 = 0) && (l.qen || decide (laddr % 4 = 0))
  | .red =>
    match p.window (fld (l.w 3) 40 8) with
    | some (va, _, f, n) => l.rsp && decide (va ≤ l.raddr ∧ l.raddr + l.len ≤ va + 256 * n) && decide (f = fld (l.w 3) 48 8)
        && decide (l.len % 4 = 0 ∧ l.raddr % 4 = 0)
    | none => false

/-- The descriptor obeys R404 and R405. -/
def linkDescOk (p : Partition) (l : LinkCmd) : Bool :=
  decide (fld (l.w 0) 57 6 = 0) && decide (fld (l.w 1) 57 6 = 0) && decide (fld (l.w 2) 39 4 = 0)
    && onlyBits (l.w 3) (linkBits l.op) && (decide (l.op = .atomic) || (decide (l.w 4 = 0) && decide (l.w 5 = 0)))
    && decide (l.w 6 = 0) && decide (l.w 7 = 0) && decide (1 ≤ l.len ∧ l.len ≤ 2 ^ 24)
    && (match l.op with
        | .radd | .red => decide (fld (l.w 3) 48 8 = 0x08 ∨ fld (l.w 3) 48 8 = 0x06)
        | _ => true)
    && (l.rsp || decide (l.raddr < 0x60000)) && (!l.qen || decide (l.len % 256 = 0)) && linkRow p l

/-- The local side of a command: its runs of bytes, or the code of a failure (R276, R404). Log 47, DEDUCED. -/
def localSide (s : State) (l : LinkCmd) (write : Bool) : Except Nat (List Piece) :=
  let a := fld (l.w 0) 0 57
  let n := if l.op = .atomic then 8 else l.len
  if l.qen then .ok []
  else if l.lsp then (if 2 ^ 57 < a + n then .error 0x02 else reach s (!write) write true (pages (n / 4096 + 2) a n))
  else if s.spadSize < a + n then .error 0x02
  else .ok [{ off := 0, at' := a, len := n }]

/-- The operands of a link slot, or of a conductor's block, are usable: target with BEN, descriptor in place (R403). -/
def linkOperandOk (s : State) (x target : Word) : Bool :=
  decide (x.toNat % 64 = 0) && decide (x.toNat + 64 ≤ s.spadSize) && targetOk s target && target.getLsbD 0

/-- The key of the sequence numbers that a request takes: an atomic or a poison request has those of the replay cache (R406). -/
def seqKey (op : FabKind) (port : Nat) : Nat := if op = .atomic ∨ op = .poison then 96 + port else port

/-- The engine of a command's port takes it (R403, R404, R406, R410). Log 22, DEDUCED. -/
def acceptLink (l : LinkCmd) (s : State) : Outcome :=
  let p := s.part s.core.part
  let port := s.port l.port
  let fail (code : Nat) : Outcome := done (failHere code (if 1 ≤ l.len ∧ l.len ≤ 2 ^ 24 then l.counts else 0) l s)
  let circuit := decide (port.mode = 2)
  if !p.kports.any (fun x => decide (x.1 = l.port)) then fail 0x01
  else if !port.works then fail 0x0C
  else if !linkDescOk p l || decide (4 ≤ fld (l.w 3) 56 3)
      || (circuit && (decide (l.op = .red) || !(port.slots.any fun d => decide (d.1 = l.pkg)))) then fail 0x01
  else match localSide s l (decide (l.op = .get) || decide (l.op = .atomic)) with
    | .error code => fail code
    | .ok ps =>
      let same := s.links.filter fun x => decide (x.port = l.port)
      if circuit && decide (16 ≤ (same.filter fun x => decide (x.pkg = l.pkg) && decide (x.sent < x.len)).length) then stall s
      else if l.op = .atomic ∧ 64 ≤ (same.filter fun x => decide (x.op = .atomic)).length then stall s
      else
        let rq := BitVec.ofNat 3 (fld (l.w 3) 59 3)
        let n := l.len / 256
        if l.qen && s.core.queueAhead rq then stall s
        else if l.qen && decide ((s.core.rqOf rq).length < n) then
          done (if l.cond then s.haltRegion l.region 0x01E
            else hold (s.engineTrap 4 (l.port / 24) 0x0C3 (word rq.toNat) 0 l.bundle l.slot l.seq) s)
        else
          let (c, es) := if l.qen then s.core.popRq rq n else (s.core, [])
          let key := seqKey l.op l.port
          let num := (assocGet s.linkSeq key).getD 0
          let l := { l with
            id := s.nextLink, pieces := ps, seqNo := num, entries := es.map fun (e : VWord × BitVec 16) => (e.1, e.2.getLsbD 10) }
          done { s with core := c, nextLink := s.nextLink + 1, links := s.links ++ [l], linkSeq := assocPut s.linkSeq key ((num + 1) % 2 ^ 16) }

/-- A command of the current core from its descriptor's words. -/
def linkOf (s : State) (op : FabKind) (ws : List Word) (descAddr target bundle : Word) (slot seq : Nat) (cond : Bool) : LinkCmd :=
  { id := 0, op, core := s.core.id, desc := ws, target, descAddr, port := fld (ws.getD 2 0) 32 7, pkg := fld (ws.getD 2 0) 53 11,
    len := fld (ws.getD 2 0) 0 32, lsp := (ws.getD 0 0).getLsbD 63, pieces := [], cond, region := s.core.region, asid := s.core.asid,
    part := s.core.part, task := s.core.taskid.toNat, bundle, slot, seq }

/-- The deckle die whose engine a link slot names, die 0 where its descriptor cannot be read (R309, R403). Log 13, DEDUCED. -/
def linkDie (c : Core) (limit : Nat) (x : Word) : Nat :=
  if x.toNat % 64 = 0 ∧ x.toNat + 64 ≤ limit then fld ((descWords c x.toNat 8).getD 2 0) 32 7 / 24 % 4 else 0

/-- A link slot: LNK_OPERAND of the port's engine, else the command goes to it (R309, R403). -/
def linkSlot (a b : GReg) (s : State) (k : List Word → Word → Word → State → Outcome) : Outcome :=
  cslot [a, b] s fun ws s =>
    let x := opd ws 0
    let y := opd ws 1
    if !linkOperandOk s x y then done (engineHold 4 (linkDie s.core s.spadSize x) 0x0C2 x 0 s) else k (descWords s.core x.toNat 8) x y s

/-- A slot of one operation (R403). -/
def linkSend (op : FabKind) (a b : GReg) (s : State) : Outcome :=
  linkSlot a b s fun ws x y s => acceptLink (linkOf s op ws x y s.core.curBundle s.core.curSlot s.core.curSeq false) s

/-- LNK.SEND put (R405); a reserved KIND fails with DESC. -/
def execLnkSendPut (a b : GReg) (s : State) : Outcome := linkSend .put a b s
/-- LNK.SEND get (R405). -/
def execLnkSendGet (a b : GReg) (s : State) : Outcome := linkSend .get a b s
/-- LNK.SEND atomic (R405, R406). -/
def execLnkSendAtomic (a b : GReg) (s : State) : Outcome := linkSend .atomic a b s
/-- LNK.SEND message (R405, R407). -/
def execLnkSendMessage (a b : GReg) (s : State) : Outcome := linkSend .message a b s
/-- LNK.RADD (R405); KIND is 0. -/
def execLnkRadd (a b : GReg) (s : State) : Outcome := linkSend .radd a b s
/-- LNK.RED (R405, R408); KIND is 0. -/
def execLnkRed (a b : GReg) (s : State) : Outcome := linkSend .red a b s

/-! ### Messages (R407) -/

/-- The priority of a region's requests at a port (R173, R233). -/
def State.regionPrio (s : State) (region : Option Nat) : Nat := ((region.bind s.region?).map fun r => r.priority).getD 0

/-- Every byte of a lump is poisoned. -/
def spoilt (l : Lump) : Lump := l.map fun b => (b.1, b.2.1, true)

/-- A message lands in a receive of the current core: its bytes leave to be written behind the earlier messages of its engine, and the answer behind
them; RANGE for an excess, TAG_FAIL for a fill that fails, which halts the region of a conductor's receive (R232, R411). The receive's full count
falls with the last word in a scratchpad, and may fall before that in global memory (R296, R405, R407). Log 7, DESIGN CHOICE. -/
def landMessage (v : Receive) (q : FabReq) (s : State) : State :=
  let ps := cutRuns v.pieces 0 (min v.len q.data.length)
  let (s, bad) := if v.lsp then s.touchPieces ps else (s, false)
  let code := if v.len < q.data.length then 0x02 else if bad then 0x06 else 0
  let s := if code = 0 then s
    else if v.cond then s.haltRegion v.region 0x01E
    else match barOf v.target with
      | some a => s.barErr a code
      | none => s
  let bars := (barOf v.target).toList
  let counts := bars.map fun a => (s.core.id, a)
  let data := q.data.take v.len
  let s := s.bring
    { no := 0, core := s.core.id, src := s.core.id, cmd := 0, region := v.region, cond := v.cond, sp := !v.lsp, words := [], bad := [], clean := []
      bytes := v.len, counts := if v.lsp then [] else counts, path := .link, recv := if v.lsp then none else some v
      early := if v.lsp then bars else [], lane := some [q.srcPkg, q.engine, s.core.id]
      acks := [{ dst := q.srcPkg, cmd := q.cmd, off := 0, len := q.total, code := 0, data := [], tinfo := 0, addr := 0 }] }
    (lumpChunk (!v.lsp) .keep ps (if bad then spoilt data else data))
  if v.lsp then
    lowerTarget v.target v.desc v.task v.asid v.bundle.toNat v.slot v.seq (counts.foldl (fun (s : State) p => s.lowerBar p.2 v.len) s)
  else s

/-- Two frames belong to one message. -/
def FabReq.same (a b : FabReq) : Bool := decide (a.srcPkg = b.srcPkg ∧ a.engine = b.engine ∧ a.cmd = b.cmd)

/-- The oldest message that has come whole and stands behind no other of its source engine, with the messages around it (R407). -/
def wholeMessage : List FabReq → List FabReq → Option (FabReq × List FabReq)
  | _, [] => none
  | seen, q :: r =>
    if decide (q.total ≤ q.data.length) && !(seen.any fun p => decide (p.srcPkg = q.srcPkg ∧ p.engine = q.engine)) then some (q, seen ++ r)
    else wholeMessage (seen ++ [q]) r

/-- The ports serve the landing of a message in a receive's memory (R233). -/
def landServed (v : Receive) (q : FabReq) (s : State) : Option State :=
  if v.lsp then servedAs s v.asid (s.regionPrio v.region) (cutRuns v.pieces 0 (min v.len q.data.length)) else some s

/-- A posted receive is killed: its barrier's ERR, and all of its count (R277, R348). -/
def failRecv (v : Receive) (s : State) : State :=
  if v.cond then s
  else match barOf v.target with
    | none => s
    | some a => lowerTarget v.target v.desc v.task v.asid v.bundle.toNat v.slot v.seq ((s.barErr a 0x0B).lowerBar a v.len)

/-- The current core's posted receives that satisfy a test are killed (R348). -/
def killRecvs (p : Receive → Bool) (s : State) : State :=
  (s.core.recvs.filter p).foldl (fun (s : State) v => failRecv v s) { s with core := { s.core with recvs := s.core.recvs.filter fun v => !p v } }

/-- A held message meets a posted receive, oldest first; where a port does not serve it yet it lands later (R233, R407). -/
def meetMessage (s : State) : State :=
  let s := killRecvs (·.doom) s
  match s.core.recvs, wholeMessage [] s.core.msgs with
  | v :: r, some (q, m) =>
    (match landServed v q s with
      | some s => landMessage v q { s with core := { s.core with recvs := r, msgs := m } }
      | none =>
        let again : Due := { instr := .messageArrival, core := s.core.id, args := { flag := true } }
        if s.todo.contains again then s else s.addTodo again)
  | _, _ => s

/-- A frame of a message joins those that came before it, or begins a message: what an earlier message of its engine lacks has been lost on the
way then (R401, R407). -/
def joinFrame (q : FabReq) (l : List FabReq) : List FabReq :=
  if l.any (·.same q) then l.map fun p => if p.same q then { p with data := p.data ++ q.data } else p
  else (l.filter fun p => decide (p.total ≤ p.data.length) || !decide (p.srcPkg = q.srcPkg ∧ p.engine = q.engine)) ++ [q]

/-- Messages of which frames have been lost never come whole (R401, R402). -/
def State.cutMessages (s : State) (lost : FabReq → Bool) : State :=
  s.mapCores fun c => { c with msgs := c.msgs.filter fun q => decide (q.total ≤ q.data.length) || !lost q }

/-- LNK.RECV posts a receive (R405, R407). -/
def postReceive (l : LinkCmd) (s : State) : Outcome :=
  let fail (code : Nat) : Outcome := done (failHere code (if 1 ≤ l.len ∧ l.len ≤ 2 ^ 24 then l.len else 0) l s)
  if !(decide (fld (l.w 0) 57 6 = 0) && decide (fld (l.w 1) 57 6 = 0) && decide (fld (l.w 2) 39 4 = 0)
      && onlyBits (l.w 3) 0x8000000000000000 && (List.range 4).all (fun i => decide (l.w (4 + i) = 0))
      && decide (1 ≤ l.len ∧ l.len ≤ 2 ^ 24) && (l.rsp || decide (l.raddr < 0x60000))) then fail 0x01
  else match localSide s l true with
    | .error code => fail code
    | .ok ps =>
      if 16 ≤ s.core.recvs.length then stall s
      else
        let v : Receive :=
          { lsp := l.lsp, pieces := ps, len := l.len, target := l.target, desc := l.descAddr, task := l.task, asid := l.asid,
            bundle := l.bundle, slot := l.slot, seq := l.seq, region := l.region, cond := l.cond }
        done (meetMessage { s with core := { s.core with recvs := s.core.recvs ++ [v] } })

/-- LNK.RECV (R405, R407). -/
def execLnkRecv (a b : GReg) (s : State) : Outcome :=
  linkSlot a b s fun ws x y s => postReceive (linkOf s .put ws x y s.core.curBundle s.core.curSlot s.core.curSeq false) s

/-! ### Sending frames (R398, R401, R403, R406, R410) -/

/-- Bytes of the next frame. -/
def LinkCmd.next (l : LinkCmd) : Nat := l.frameAt l.sent

/-- The region of a command runs, so that its engine goes on with it (R331, R332). -/
def regionLive (s : State) (region : Option Nat) : Bool :=
  match region with
  | none => true
  | some id => match s.region? id with
    | some r => (match r.state with | .running | .requested _ => true | _ => false)
    | none => false

/-- A circuit port may send a frame of n payload bytes to a package now (R399, R409, R410). -/
def circuitOpen (s : State) (p : Port) (pkg n : Nat) : Bool :=
  decide (p.mode ≠ 2)
    || (s.podGood && (match slotAt p s.podtime with
        | some (k, stop) => decide (p.openSlot = some k) && decide ((p.slots.getD k (0, 0)).1 = pkg)
            && decide (s.podtime * 5 + (1 + (n + 31) / 32) ≤ stop * 5)
        | none => false))

/-- A port is a route to a package: it works, and its circuit table, where it has one, has a slot to it (R401, R409). -/
def Port.leads (p : Port) (pkg : Nat) : Bool := p.works && (decide (p.mode ≠ 2) || p.slots.any fun d => decide (d.1 = pkg))

/-- Another route to a package that is up (R401). -/
def otherPort (s : State) (port pkg : Nat) : Option Nat := (s.ports.find? fun p => decide (p.1 ≠ port) && p.2.leads pkg).map (·.1)

/-- The port that a command's frames leave by: a poison request goes by another route than the one that was lost (R401). -/
def routeOf (s : State) (l : LinkCmd) : Option Nat := if l.op = .poison then otherPort s l.port l.pkg else some l.port

/-- Payload bytes of a command's next frame: a request for data has none, an atomic its operands (R398, R404, R410). Log 47, DEDUCED. -/
def LinkCmd.payload (l : LinkCmd) : Nat :=
  match l.op with
  | .get | .poison => 0
  | .atomic => 16
  | _ => min 256 l.next

/-- The command may send its next frame by a port (R404 ORD, R407, R410). -/
def sendable (s : State) (l : LinkCmd) (port : Nat) : Bool :=
  let p := s.port port
  let ahead := s.links.filter fun x => decide (x.id < l.id ∧ x.port = l.port ∧ x.pkg = l.pkg) && !x.dead
  let rest (x : LinkCmd) : Bool := decide (x.sent < x.len)
  rest l && !l.dead && p.works && regionLive s l.region && circuitOpen s p l.pkg l.payload
    && !(l.ord && !ahead.isEmpty) && !(decide (p.mode = 2) && ahead.any rest)
    && !(decide (l.op = .message) && ahead.any fun x => decide (x.op = .message) && rest x)

/-- Local bytes o to o + n - 1 of a command, with their bits; a result-queue entry has no full/empty bit. -/
def localBytes (l : LinkCmd) (o n : Nat) (s : State) : Lump :=
  if l.qen then (l.entries.flatMap fun e => plainLump (takeBytes e.1 0 256) false e.2).drop o |>.take n
  else ((l.pieces.flatMap fun p => (s.space (!l.lsp)).lump p.at' p.len).drop o).take n

/-- The frame of a command at offset o. -/
def frameOf (l : LinkCmd) (o n : Nat) (data : Lump) (s : State) : FabReq :=
  let c := s.core
  { kind := l.op, srcPkg := s.pkg, srcDie := c.die, srcCore := c.lcore, seq := l.seq, bundle := l.bundle, slot := l.slot,
    engine := l.port, cmd := l.id, ident := l.seqNo, port := l.port, dst := l.pkg, toGlobal := l.rsp, core := l.rcore,
    addr := l.raddr + o, off := o, len := n, total := l.len, data := data, bits := !l.qen, op := l.aop, eight := (l.w 3).getLsbD 36,
    operand := l.w 4, swapVal := l.w 5, fmt := fld (l.w 3) 48 8, window := fld (l.w 3) 40 8, round := fld (l.w 3) 0 32 }

/-- Send the next frame of command `id`, with the tokens of its context for a source in memory (R233); or the command fails, as was due when
its region's image was held (R332). -/
def sendFrame (id : Nat) (s : State) : Outcome :=
  match s.link? id with
  | none => stall s
  | some l =>
    match l.doom with
    | some code => if s.reaches' l then done (failLink code { l with doom := none } (s.putLink { l with doom := none })) else stall s
    | none =>
      match routeOf s l with
      | none => stall s
      | some port =>
        if !sendable s l port then stall s
        else
          let n := l.next
          let reads := l.lsp && decide (l.op ≠ .get) && decide (l.op ≠ .atomic) && decide (l.op ≠ .poison)
          let ps := cutRuns l.pieces l.sent n
          if reads && (s.focus l.core).unmade ps then stall s
          else match (if reads then servedAs s l.asid (s.regionPrio l.region) ps else some s) with
          | none => stall s
          | some s =>
            let here := s.core.id
            let s := s.focus l.core
            let (s, bad) := if reads then s.touchPieces ps else (s, false)
            if bad then done ((failLink 0x06 l s).focus here) else
            let data := if l.op = .get ∨ l.op = .atomic ∨ l.op = .poison then [] else localBytes l l.sent n s
            let q := { frameOf l l.sent n data s with port := port }
            let s := s.putLink { l with sent := l.sent + n, sends := 1 }
            let s := if l.op = .atomic ∨ l.op = .poison then
                s.addTimer { instr := .atomicResend, core := here, args := { n := id }, at' := s.pktime + 36000 } else s
            done (({ s with fabOut := s.fabOut ++ [q] } : State).focus here)

/-! ### What arrives from other packages (R324, R404 to R406) -/

/-- Physical address that an aperture gives a remote one (R404, R431). -/
def aperPlace (l : List Aper) (va : Nat) (r w : Bool) : Option Nat :=
  match l.find? fun e => decide (e.start ≤ va ∧ va < e.start + 4096 * e.pages) with
  | some e => if (r && !e.r) || (w && !e.w) then none else some (e.base + (va - e.start))
  | none => none

/-- The runs of bytes that a request names here: through the fabric aperture, or in a scratchpad within its region's limit
(R209, R324, R404). -/
def landing (s : State) (part : Nat) (q : FabReq) (r w : Bool) : Option (List Piece) :=
  let p := s.part part
  if q.toGlobal then placeAll (fun va => aperPlace p.faper va r w) (pages (q.len / 4096 + 2) q.addr q.len)
  else if !(p.cores.getD []).contains q.core then none
  else
    let c := s.coreAt (s.byNumber q.core)
    let limit := match c.region.bind s.region? with | some g => g.banks * 0x400 | none => 0x60000
    if limit < q.addr + q.len then none else some [{ off := 0, at' := q.addr, len := q.len }]

/-- The answer to a request. Log 47, DEDUCED. -/
def FabReq.ack (q : FabReq) (code len : Nat) (data : Lump) (tinfo : Word) : FabAck :=
  { dst := q.srcPkg, cmd := q.cmd, off := q.off, len := len, code := code, data := data, tinfo := tinfo, addr := word q.addr }

/-- A request is answered at once. -/
def answer (q : FabReq) (code len : Nat) (data : Lump) (tinfo : Word) (s : State) : State :=
  { s with ackOut := s.ackOut ++ [q.ack code len data tinfo] }

/-- A request is refused: the record here, and the negative answer (R324). -/
def refuse (q : FabReq) (part : Nat) (s : State) : State :=
  let t : Trap :=
    { code := 0x0C1, impr := true, tpc := q.bundle, tmask := word (2 ^ q.slot), tval := word q.addr,
      tinfo := tinfoImage q.seq false true 0 q.srcPkg q.srcDie q.srcCore }
  let here := if s.inPod then s.pkg else 0
  let who := if q.toGlobal then tinfoImage q.seq false true 3 here 0 0x7F
    else tinfoImage q.seq false true 0 here (q.core / 128) (q.core % 128)
  answer q 0x03 q.len [] who (s.recordHv t 0 part)

/-- What a request writes leaves to be written, in the request's partition; the answer, with a code, leaves behind the last word (R232, R405). Log
7, DESIGN CHOICE. -/
def bringRequest (q : FabReq) (part code : Nat) (h : Chunk) (s : State) : State :=
  let home := if q.toGlobal then s.core.id else s.byNumber q.core
  s.bring
    { no := 0, core := home, src := home, cmd := 0, region := none, cond := false, sp := !q.toGlobal, words := [], bad := [], clean := []
      bytes := 0, counts := [], path := .away, part := some part, acks := [q.ack code q.len [] 0] } h

/-- A request that arrives by a port of no partition is refused; no partition has a record of it (R324, R431). Log 47, DEDUCED. -/
def byPort (q : FabReq) (s : State) (k : Nat → Outcome) : Outcome :=
  if 96 ≤ q.port then done s
  else match (s.port q.port).part with
    | none => done (answer q 0x03 q.len [] (tinfoImage q.seq false true 4 (if s.inPod then s.pkg else 0) (q.port / 24) 0x7F) s)
    | some part => k part

/-- The latest result that the home keeps for a request's number, with its poison (R406). -/
def replayed (q : FabReq) (s : State) : Option (Word × Bool) :=
  (s.replay.find? fun x => decide (x.1 = q.srcPkg ∧ x.2.1 = q.engine ∧ x.2.2.1 = q.ident)).map fun x => x.2.2.2

/-- The results of the latest 64 atomics of each source stay in the cache (R406). -/
def keepReplay (l : List (Nat × Nat × Nat × Word × Bool)) (x : Nat × Nat × Nat × Word × Bool) : List (Nat × Nat × Nat × Word × Bool) :=
  let mine := l.filter fun y => decide (y.1 = x.1 ∧ y.2.1 = x.2.1)
  (if mine.length < 64 then l else match mine with | o :: _ => l.erase o | [] => l) ++ [x]

/-- Keep the result of a request. -/
def State.keepResult (s : State) (q : FabReq) (w : Word) (bad : Bool) : State :=
  { s with replay := keepReplay s.replay (q.srcPkg, q.engine, q.ident, w, bad) }

/-- REMOTE_WRITE: a put, get, RADD or poison request from another package is checked where it lands, and performed or refused
(R324, R401, R405): what it writes leaves to be written; the partition is that of the port it arrives by. A poison request acts once for its number (R401, R406). -/
def execRemoteWrite (s : State) : Outcome :=
  match s.args.req with
  | none => done s
  | some q => byPort q s fun part =>
    match landing s part q (decide (q.kind = .get)) (decide (q.kind ≠ .get)) with
    | none => done (refuse q part s)
    | some ps =>
      let core := s.byNumber q.core
      match q.kind with
      | .get =>
        let (s, bad) := if q.toGlobal then s.touchFor part ps else (s, false)
        let m := if q.toGlobal then s.mem else (s.coreAt core).spad
        if bad then done (answer q 0x06 q.len [] 0 s)
        else done (answer q 0 q.len (ps.flatMap fun p => m.lump p.at' p.len) 0 s)
      | .radd => done (bringRequest q part 0 (sumChunk q.fmt q.addr (lumpElems q.data)) s)
      | .poison =>
        let spoil (sp : Bool) (s : State) : State := (ps.flatMap fun p => (List.range p.len).map fun i => p.at' + i).foldl
          (fun (s : State) a => s.poisonAt sp a) s
        if (replayed q s).isSome then done (answer q 0 q.len [] 0 s)
        else
          let s := if q.toGlobal then spoil false (s.touchFor part ps).1 else s.visit core (spoil true)
          done (answer q 0 q.len [] 0 (s.keepResult q 0 false))
      | _ =>
        let (s, bad) := if q.toGlobal then s.touchFor part ps else (s, false)
        done (bringRequest q part (if bad then 0x06 else 0)
          (lumpChunk (!q.toGlobal) (if q.bits then .carried else .keep) ps (if bad then spoilt q.data else q.data)) s)

/-- The open round's copy of a word in a reduction window, if the word lies in one (R408). -/
def openBlock (s : State) (part va : Nat) : Option (RedBlock × Nat) :=
  ((s.part part).rwins.findSome? fun w =>
    if w.2.1 ≤ va ∧ va < w.2.1 + 256 * w.2.2.2.2 then
      (s.reds.find? fun b => decide (b.part = part ∧ b.win = w.1 ∧ b.block = (va - w.2.1) / 256) && !b.done).map fun b => (b, (va - w.2.1) % 256)
    else none)

/-- The new value of an atomic's word of n bytes (R112, R113); operation 10 is the compare and swap. -/
def remoteNew (q : FabReq) (n old : Nat) : Nat :=
  let a := q.operand.toNat % 2 ^ (8 * n)
  if q.op = 10 then (if old = a then q.swapVal.toNat % 2 ^ (8 * n) else old) else amoNew q.op (8 * n) old a

/-- REMOTE_ATOMIC: the home port applies an atomic once: a number found in the replay cache gives the cached result (R406);
one into a window acts on the round's copy (R408). Log 47, DEDUCED. -/
def execRemoteAtomic (s : State) : Outcome :=
  match s.args.req with
  | none => done s
  | some q => byPort q s fun part =>
    let reply (w : Word) (bad : Bool) (s : State) : State := answer q 0 8 (plainLump (leBytes 8 w.toNat) false bad) 0 s
    match replayed q s with
    | some (w, bad) => done (reply w bad s)
    | none =>
      let n := if q.eight then 8 else 4
      match landing s part { q with toGlobal := true, len := n } true true with
      | none => done (refuse q part s)
      | some ps =>
        let pa := (ps.head?.map (·.at')).getD 0
        match openBlock s part q.addr with
        | some (b, o) =>
          let old := (assocGet b.sums (o / 4)).getD 0 + (if q.eight then 2 ^ 32 * (assocGet b.sums (o / 4 + 1)).getD 0 else 0)
          let new := remoteNew q n old
          let sums := assocPut b.sums (o / 4) (new % 2 ^ 32)
          let sums := if q.eight then assocPut sums (o / 4 + 1) (new / 2 ^ 32) else sums
          done (reply (word old) false
            (({ s with reds := s.reds.map fun x => if x = b then { b with sums := sums } else x } : State).keepResult q (word old) false))
        | none =>
          let here := s.core.part
          let (s, _) := s.touchFor part ps
          let s := { s with core := { s.core with part := part } }
          let (s, old, bad) := atomicAt false pa n (fun old => some (remoteNew q n old)) s
          let s := { s with core := { s.core with part := here } }
          done (reply (word old) bad (s.keepResult q (word old) bad))

/-- MESSAGE_ARRIVAL: a frame of a message arrives; a whole message takes the oldest posted receive, or is held; with 32 held a new one waits
(R398, R407). With `flag` a message of this core lands that a port had not served, or receives of an ended task are killed (R233, R348). -/
def execMessageArrival (s : State) : Outcome :=
  if s.args.flag then
    if s.core.recvs.any (·.doom) then done (meetMessage s)
    else match s.core.recvs, wholeMessage [] s.core.msgs with
    | v :: _, some (q, _) => if (landServed v q s).isNone then stall s else done (meetMessage s)
    | _, _ => done s
  else match s.args.req with
  | none => done s
  | some q => byPort q s fun part =>
    let id := s.byNumber q.core
    let held := (s.coreAt id).msgs
    if 1024 ≤ q.core then done s
    else if !((s.part part).cores.getD []).contains q.core then done (refuse { q with toGlobal := false } part s)
    else if 32 ≤ held.length && !held.any (·.same q) then stall s
    else done (s.visit id fun s => meetMessage { s with core := { s.core with msgs := joinFrame q s.core.msgs } })

/-! ### Reductions (R408) -/

/-- The gathered block of a contribution. -/
def blockOf (s : State) (part : Nat) (q : FabReq) (block : Nat) : RedBlock :=
  (s.reds.find? fun b => decide (b.part = part ∧ b.win = q.window ∧ b.round = q.round ∧ b.block = block)).getD
    { part := part, win := q.window, round := q.round, block := block }

/-- Put a block back. -/
def putBlock (b : RedBlock) (s : State) : State :=
  { s with reds := (s.reds.filter fun x => !decide (x.part = b.part ∧ x.win = b.win ∧ x.round = b.round ∧ x.block = b.block)) ++ [b] }

/-- Merge the elements of a contribution. -/
def mergeInto (fmt first : Nat) (l : Lump) (sums : List (Nat × Nat)) : List (Nat × Nat) :=
  (List.range (l.length / 4)).foldl (fun m i =>
    let e := first + i
    assocPut m e (match assocGet m e with | some v => redSum fmt v (lumpElem l i).1 | none => (lumpElem l i).1)) sums

/-- Elements of a contribution that are poisoned. -/
def badElems (first : Nat) (l : Lump) : List Nat := ((List.range (l.length / 4)).filter fun i => (lumpElem l i).2).map fun i => first + i

/-- Contributors that a block has counted. -/
def RedBlock.count (b : RedBlock) : Nat := (b.srcs.map fun x => x.n).foldl (· + ·) 0

/-- The root delivers a complete block: its elements leave to be added into memory, and its contributions are answered behind the last (R405,
R408). Log 7, DESIGN CHOICE. Log 48, DESIGN CHOICE. -/
def deliverBlock (fmt base : Nat) (b : RedBlock) (s : State) : State :=
  let h := sumChunk fmt base (b.sums.map fun e => (e.1, e.2, b.bad.contains e.1))
  let s := putBlock { b with done := true, sums := [], reqs := [] } (s.touchTiles (tilesIn base 256)).1
  s.bring
    { no := 0, core := s.core.id, src := s.core.id, cmd := 0, region := none, cond := false, sp := false, words := [], bad := [], clean := []
      bytes := 0, counts := [], path := .away, part := some b.part, acks := b.reqs.map fun q => q.ack 0 q.len [] 0 } h

/-- Bytes of a whole contribution that lie in the block from `base` on. -/
def FabReq.share (q : FabReq) (base : Nat) : Nat :=
  let start := q.addr - q.off
  min (start + q.total) (base + 256) - max start base

/-- The parts of a frame that lie in different blocks of a window at `va` (R408). -/
def splitFrame (va : Nat) (q : FabReq) : List FabReq :=
  let n := min (256 - (q.addr - va) % 256) q.data.length
  { q with len := n, data := q.data.take n } ::
    (if n < q.data.length then [{ q with addr := q.addr + n, off := q.off + n, len := q.data.length - n, data := q.data.drop n }] else [])

/-- A part of a contribution, which carries k contributors, reaches the root of its window (R408): a duplicate is dropped; one to a delivered
round, or beyond N, is refused. With every contribution whole the block is delivered, or where the aperture withholds it all are refused (R324). -/
def mergePart (part k : Nat) (win : Nat × Nat × Nat × Nat) (s : State) (q : FabReq) : State :=
  let (va, n, fmt, _) := win
  let block := (q.addr - va) / 256
  let base := va + 256 * block
  let b := blockOf s part q block
  let src := (q.srcPkg, q.engine, q.ident)
  let old := b.srcs.find? fun x => decide (x.src = src)
  if old.any fun x => x.parts.contains q.addr then s
  else if b.done || (old.isNone && decide (n < b.count + k)) then answer q 0x01 q.len [] 0 s
  else
    let x := old.getD { src := src, n := k, left := q.share base }
    let x := { x with parts := x.parts ++ [q.addr], left := x.left - q.data.length }
    let first := (q.addr - base) / 4
    let b := { b with
      srcs := (b.srcs.filter fun y => decide (y.src ≠ src)) ++ [x], reqs := b.reqs ++ [{ q with data := [] }]
      bad := b.bad ++ badElems first q.data, sums := mergeInto fmt first q.data b.sums }
    if b.count = n ∧ b.srcs.all (fun y => decide (y.left = 0)) then
      match aperPlace (s.part part).faper base true true with
      | some pa => s.forPart part (deliverBlock fmt pa b)
      | none => b.reqs.foldl (fun (s : State) q => refuse q part s) (putBlock { b with done := true, sums := [], reqs := [] } s)
    else putBlock b s

/-- REDUCTION_DELIVERY: a contribution that carries `n` contributors reaches the root switch of a window homed here; with all of
them gathered the merged block is delivered (R408). -/
def execReductionDelivery (s : State) : Outcome :=
  match s.args.req with
  | none => done s
  | some q => byPort q s fun part =>
    match (s.part part).window q.window with
    | none => done (answer q 0x01 q.len [] 0 s)
    | some w =>
      if q.addr < w.1 ∨ w.1 + 256 * w.2.2.2 < q.addr + q.data.length then done (answer q 0x01 q.len [] 0 s)
      else done ((splitFrame w.1 q).foldl (mergePart part (max 1 s.args.n) w) s)

/-! ### What returns (R325, R405) -/

/-- The trap of a refused write, at its core against the carried bundle, for a command that is not the conductor's (R324, R325). -/
def remotePerm (a : FabAck) (l : LinkCmd) (s : State) : State :=
  if l.cond then s
  else
    let t : Trap := { code := 0x0C1, impr := true, tpc := l.bundle, tmask := word (2 ^ l.slot), tval := a.addr, tinfo := a.tinfo }
    s.visit l.core (hold t)

/-- Offset in a command of the byte at a local address, from an offset on. -/
def offsetAt (a : Nat) : Nat → List Piece → Option Nat
  | _, [] => none
  | o, p :: r => if p.at' ≤ a ∧ a < p.at' + p.len then some (o + (a - p.at')) else offsetAt a (o + p.len) r

/-- Offset of the frame of a get that brings the byte at an offset (R398). -/
def LinkCmd.frameStart (l : LinkCmd) (o : Nat) : Nat := o - (l.raddr + o) % 256

/-- The bit that came for the byte at an offset: with this answer, or with an earlier one (R278). -/
def LinkCmd.bitAt (l : LinkCmd) (a : FabAck) (o : Nat) : Option Bool :=
  if a.off ≤ o then (a.data[o - a.off]?).map fun b => b.2.1 else assocGet l.bits o

/-- A word that two frames of a get write takes its bit once both have come (R278, R405). -/
def joinBit (l : LinkCmd) (a : FabAck) (w : FlightWord) : FlightWord :=
  match offsetAt (8 * w.no) 0 l.pieces, offsetAt (8 * w.no + 7) 0 l.pieces with
  | some x, some y =>
    if w.bit.isNone && l.back.contains (l.frameStart x) && l.back.contains (l.frameStart y) && !(l.lsp && inHost (8 * w.no)) then
      { w with bit := l.bitAt a x } else w
  | _, _ => w

/-- The bit for the first byte of the last word that an answer brings, kept for the frame with the rest of the word. -/
def LinkCmd.keepBit (l : LinkCmd) (a : FabAck) (ws : List FlightWord) : LinkCmd :=
  match ws.getLast?.bind fun w => offsetAt (8 * w.no) 0 l.pieces with
  | some x => if a.off ≤ x then match l.bitAt a x with | some b => { l with bits := assocPut l.bits x b } | none => l else l
  | none => l

/-- The ports serve what came back for a command's memory (R233). -/
def backServed (l : LinkCmd) (a : FabAck) (s : State) : Option State :=
  if l.lsp then servedAs s l.asid (s.regionPrio l.region) (cutRuns l.pieces a.off a.data.length) else some s

/-- What came back for a get or an atomic leaves to be written at the command's own side; it counts with the last word in a scratchpad, and may
count before that in global memory (R295, R405). A fill that fails spoils the data and fails the command (R232). Log 7, DESIGN CHOICE. -/
def bringBack (l : LinkCmd) (a : FabAck) (rule : FeRule) (n : Nat) (s : State) : State :=
  let bars := (barOf l.target).toList
  let counts := if l.op = .get then bars.map fun b => (l.core, b) else []
  let ps := cutRuns l.pieces a.off a.data.length
  let (s, bad) := if l.lsp then
      let here := s.core.id
      let (t, bad) := (s.focus l.core).touchPieces ps
      (t.focus here, bad)
    else (s, false)
  let h := lumpChunk (!l.lsp) rule ps (if bad then spoilt a.data else a.data)
  let h := if l.op = .get then { h with words := h.words.map (joinBit l a) } else h
  let l' := if l.op = .get then l.keepBit a h.words else l
  let s := (s.putLink l').bring
    { no := 0, core := l.core, src := l.core, cmd := l.id, region := l.region, cond := l.cond, sp := !l.lsp, words := [], bad := [], clean := []
      bytes := n, counts := if l.lsp then [] else counts, path := .link, part := some l.part, early := if l.lsp then bars else []
      after := [{ instr := .acknowledgement, core := l.core, args := { ack := some { a with data := [] } } }] } h
  let s := if l.lsp then s.visit l.core fun s => counts.foldl (fun (s : State) p => s.lowerBar p.2 n) s else s
  if bad then failLink 0x06 l' s else s

/-- Everything that the command asked for has come, and nothing of it is still to be written into a scratchpad (R405). -/
def LinkCmd.settled (l : LinkCmd) (s : State) : Bool :=
  decide (l.len ≤ l.acked) && !(s.flights.any fun f => f.sp && decide (f.path = .link ∧ f.cmd = l.id ∧ f.src = l.core) && !f.after.isEmpty)

/-- ACKNOWLEDGEMENT: the source settles the bytes that an answer names, has returned data written, or takes the refusal (R325, R405). A
command that has failed leaves when every frame it sent has been answered. An answer that was settled before tells no more than that its
data has been written. A count that falls due while the region is stopped is applied before its image is written (R331). Log 65, DEDUCED. -/
def execAcknowledgement (s : State) : Outcome :=
  match s.args.ack with
  | none => done s
  | some a =>
    match s.link? a.cmd with
    | none => done s
    | some l =>
      if l.back.contains a.off then done (if !l.dead && l.settled s then endLink l s else s)
      else
        let n := if a.code ≠ 0 then (if a.len = 0 then l.frameAt a.off else a.len) else if l.op = .atomic then l.len else a.len
        let brings := decide (a.code = 0) && !l.dead && (decide (l.op = .get) || decide (l.op = .atomic))
        match (if brings then backServed l a s else some s) with
        | none => stall s
        | some s =>
        let l := { l with acked := l.acked + n, back := l.back ++ [a.off] }
        let s := s.putLink l
        if a.code ≠ 0 then
          let s := if a.code = 0x03 then remotePerm a l s else s
          done (if l.dead then (if l.sent ≤ l.acked then endLink l s else s) else failLink a.code l s)
        else if l.dead then done (if l.sent ≤ l.acked then endLink l s else s)
        else
          let s := match l.op with
            | .get => bringBack l a .carried n s
            | .atomic => bringBack l a .keep n s
            | _ => s
          match s.link? l.id with
          | some l => done (if l.settled s && !l.dead then endLink l s else s)
          | none => done s

/-- ATOMIC_RESEND: no reply within 16 us: the request, of an atomic or of poison, goes out again with its number by any route that is up, in a
slot of a circuit port, at most 4 times, and then the command fails with KILLED and an LNK_LOST record (R401, R406, R409). -/
def execAtomicResend (s : State) : Outcome :=
  match s.link? s.args.n with
  | none => done s
  | some l =>
    if 5 ≤ l.sends then
      done (failLinkAs false 0x0B l (s.recordHv { code := 0x0C4, tval := word l.port, tval2 := 1, tinfo := s.deckleInfo l.port } l.asid l.part))
    else
      let here := s.core.id
      let later (s : State) : Outcome :=
        done ((s.putLink { l with sends := l.sends + 1 }).addTimer { instr := .atomicResend, core := here, args := { n := l.id }, at' := s.pktime + 36000 })
      match (if (s.port l.port).leads l.pkg then some l.port else otherPort s l.port l.pkg) with
      | none => later s
      | some port =>
        if !circuitOpen s (s.port port) l.pkg l.payload then stall s
        else later { s with fabOut := s.fabOut ++ [{ frameOf l 0 l.len [] (s.focus l.core) with port := port }] }

/-! ### Loss (R400 to R402) -/

/-- The poison request for the target range of a lost command (R401): a command of the engine's own, which names no barrier. -/
def poisonCmd (l : LinkCmd) (s : State) : State :=
  let key := seqKey .poison l.port
  let num := (assocGet s.linkSeq key).getD 0
  let x : LinkCmd := { l with
    id := s.nextLink, op := .poison, target := 0, sent := 0, acked := 0, back := [], entries := [], bits := [], seqNo := num, sends := 0, dead := false,
    cond := false, region := none }
  { s with links := s.links ++ [x], nextLink := s.nextLink + 1, linkSeq := assocPut s.linkSeq key ((num + 1) % 2 ^ 16) }

/-- Local addresses of a command's bytes, with their offsets, of which some go on from run to run. -/
def placesFrom : Nat → List Piece → List (Nat × Nat)
  | _, [] => []
  | o, p :: r => (List.range p.len).map (fun i => (o + i, p.at' + i)) ++ placesFrom (o + p.len) r

/-- One lost transaction (R401): a get's or an atomic's missing destination is poisoned; for a write a poison request leaves by
another route; the command fails with KILLED. -/
def loseLink (l : LinkCmd) (s : State) : State :=
  let s := match l.op with
    | .get | .atomic => s.visit l.core fun s =>
        (placesFrom 0 l.pieces).foldl
          (fun (s : State) x => if l.back.any fun o => decide (o ≤ x.1 ∧ x.1 < o + l.frameAt o) then s else s.poisonAt (!l.lsp) x.2) s
    | .message | .poison => s
    | _ => if l.dead then s else poisonCmd l s
  failLinkAs false 0x0B l (if l.dead then s.dropLink l.id else s)

/-- A port loses what is outstanding on it, with `k` directory transactions, and writes one LNK_LOST record (R401). -/
def losePort (port k : Nat) (s : State) : State :=
  let out := s.links.filter fun l => decide (l.port = port ∧ l.acked < l.sent) && decide (l.op ≠ .poison)
  let s := out.foldl (fun (s : State) l => loseLink l s) s
  let n := out.length + k
  if n = 0 then s
  else s.recordHv { code := 0x0C4, tval := word port, tval2 := word n, tinfo := s.deckleInfo port } 0 (((s.port port).part).getD 0)

/-- Commands of which no frame was sent fail with PORT_DOWN when the port goes down, and so do the rest of those begun; one whose data has all come
back is only being written (R401). -/
def closePort (port k : Nat) (s : State) : State :=
  let s := losePort port k s
  (s.links.filter fun l => decide (l.port = port ∧ l.acked < l.len) && decide (l.op ≠ .poison) && !l.dead).foldl
    (fun (s : State) l => failLinkAs false 0x0C l s) s

/-- FLIT_REPLAY: a flit that fails its CRC is sent again; software sees nothing of it. The directory messages named (window and tile
in turn) arrived with replay exhausted and their header readable, so the home acts on them (R392, R400). -/
def execFlitReplay (s : State) : Outcome :=
  if 96 ≤ s.args.n then done s
  else if !lossQuiet s s.args.list then stall s
  else done (loseMessages s.args.list s)

/-- LOSS_BEYOND_REPLAY on port n, with the directory messages that were lost (R392, R401). -/
def execLossBeyondReplay (s : State) : Outcome :=
  if 96 ≤ s.args.n then done s
  else if !lossQuiet s s.args.list then stall s
  else done (loseMessages s.args.list (losePort s.args.n (s.args.list.length / 2) s))

/-- LNK_DOWN: port n goes down after a failed retrain: the loss of R401, the record, the interrupt (R392, R398, R400). -/
def execLnkDown (s : State) : Outcome :=
  let n := s.args.n
  if 96 ≤ n then done s
  else if !lossQuiet s s.args.list then stall s
  else
    let p := s.port n
    let s := loseMessages s.args.list (closePort n (s.args.list.length / 2) s)
    let s := s.cutMessages fun q => decide (q.port = n)
    let s := s.putPort n { s.port n with isUp := false, openSlot := none }
    let s := s.recordHv { code := 0x0C5, tval := word n, tinfo := s.deckleInfo n } 0 (p.part.getD 0)
    done (s.portChanged n)

/-- The next time message of a port, 1 ms on (R399). -/
def State.timeLater (s : State) (port : Nat) : State :=
  s.addTimer { instr := .timeMessage, args := { n := port, m := 1 }, at' := s.pktime + 2250000 }

/-- LINK_TRAINING: bound port n comes up; the first to do so starts pod time (R398 to R400). By then firmware has told a package of a pod its
number, which the operand list holds. A port that no partition has bound stays down (R444). Log 80, DESIGN CHOICE. -/
def execLinkTraining (s : State) : Outcome :=
  let n := s.args.n
  if 96 ≤ n ∨ (s.port n).mode = 0 ∨ !s.boot.isUp then done s
  else
    let s : State := match s.args.list with
      | [k] => if s.inPod then s else { s with inPod := true, pkg := k % 2048 }
      | _ => s
    done ((({ s with podRuns := true } : State).putPort n { s.port n with isUp := true } |>.portChanged n).timeLater n)

/-- PACKAGE_LOST: the cores of package n leave the windows homed here (R391), every outstanding command to it fails with KILLED, and
its results leave the replay cache (R402). -/
def execPackageLost (s : State) : Outcome :=
  let n := s.args.n
  if 2048 ≤ n then done s
  else
    let s : State := { (losePackage n s).cutMessages (fun q => decide (q.srcPkg = n)) with lost := numAdd s.lost n, replay := s.replay.filter fun x => decide (x.1 ≠ n) }
    done ((s.links.filter fun l => decide (l.pkg = n)).foldl (fun (s : State) l => if l.dead then s.dropLink l.id else failLinkAs false 0x0B l s) s)

/-- TIME_MESSAGE: one arrives, and pod time steers toward the master's, w, with no step backward; `flag` says that it is within 20 ns; the
master steers to nobody. With m = 1 the package sends one by port n once it works, on a circuit port outside its slots and with a good pod time, and
the next is due 1 ms later (R399, R409). Log 51, DESIGN CHOICE. -/
def execTimeMessage (s : State) : Outcome :=
  if s.args.m = 1 then
    let n := s.args.n
    let p := s.port n
    if !p.isUp ∨ s.timers.any (fun d => decide (d.instr = .timeMessage ∧ d.args.n = n)) then done s
    else if !p.works || (decide (p.mode = 2) && (!s.podGood || (slotAt p s.podtime).isSome)) then stall s
    else done (({ s with timeOut := s.timeOut ++ [(n, s.podtime)] } : State).timeLater n)
  else if s.master then done s
  else done { s with podtime := max s.podtime s.args.w.toNat, podSync := s.args.flag }

/-- CIRCUIT_SLOT_START: the slot that pod time has reached opens on circuit port n, after its guard (R409). Log 51, DESIGN CHOICE. -/
def execCircuitSlotStart (s : State) : Outcome :=
  let n := s.args.n
  if 96 ≤ n then done s
  else
    let p := s.port n
    let k := if p.mode = 2 ∧ p.works ∧ s.podGood then (slotAt p s.podtime).map (·.1) else none
    if p.openSlot = k then stall s else done (s.putPort n { p with openSlot := k })

end Sys2Proof.Machine
end

