-- ==== Sys2Proof/Machine/Net.lean ====
section
/-!
DEFINITION. The network engine (R415 to R423): work requests, counters and their error rings, packets sent and resent, and the
placement of packets that arrive.
-/

namespace Sys2Proof.Machine

/-! ### Fields of a work request (R416) -/

/-- Word n. -/
def NetReq.w (r : NetReq) (n : Nat) : Word := r.words.getD n 0
/-- The source lies in the global space. -/
def NetReq.lsp (r : NetReq) : Bool := (r.w 0).getLsbD 63
/-- LADDR. -/
def NetReq.laddr (r : NetReq) : Nat := fld (r.w 0) 0 57
/-- RADDR. -/
def NetReq.raddr (r : NetReq) : Nat := fld (r.w 1) 0 57
/-- PEER. -/
def NetReq.peer (r : NetReq) : Nat := fld (r.w 2) 48 16
/-- LCTR. -/
def NetReq.lctr (r : NetReq) : Nat := fld (r.w 2) 40 8
/-- LEN. -/
def NetReq.len (r : NetReq) : Nat := fld (r.w 2) 0 32
/-- LCE. -/
def NetReq.lce (r : NetReq) : Bool := (r.w 3).getLsbD 57
/-- Payload of a packet. -/
def NetReq.size (r : NetReq) : Nat := 1024 * 2 ^ fld (r.w 3) 60 2
/-- Packets that the request makes. -/
def NetReq.count (r : NetReq) : Nat := (r.len + r.size - 1) / r.size

/-- Reserved values and ranges of a work request. -/
def NetReq.wellFormed (r : NetReq) : Bool :=
  onlyBits (r.w 0) 0x81FFFFFFFFFFFFFF && onlyBits (r.w 1) 0x1FFFFFFFFFFFFFF && onlyBits (r.w 3) 0x3E000000FFFFFFFF
    && decide (fld (r.w 3) 60 2 ≤ 2) && (List.range 4).all (fun i => decide (r.w (4 + i) = 0)) && decide (1 ≤ r.len ∧ r.len ≤ 2 ^ 24)

/-- Key of a peer's sequence space (R423). -/
def peerKey (part peer : Nat) : Nat := 2 ^ 16 * part + peer

/-! ### Counters and error rings (R419 to R421) -/

/-- Add 1 to the word of a counter, indivisibly, where the counter is bound (R420). Log 49, DEDUCED. -/
def State.bumpCounter (s : State) (part asid n : Nat) : State :=
  match assocGet (s.asidOf asid).ctrs n with
  | none => s
  | some pa => s.forPart part fun s =>
      let s := (s.touchPieces [{ off := 0, at' := pa, len := 8 }]).1
      (atomicAt false pa 8 (fun old => some ((old + 1) % 2 ^ 64)) s).1

/-- A request. -/
def State.net? (s : State) (id : Nat) : Option NetReq := s.nets.find? fun r => decide (r.id = id)
/-- Put a request back. -/
def State.putNet (s : State) (r : NetReq) : State := { s with nets := s.nets.map fun x => if x.id = r.id then r else x }

/-- A request has completed at its sender (R420). -/
def endNet (r : NetReq) (s : State) : State :=
  let s := { s with nets := s.nets.filter fun x => decide (x.id ≠ r.id) }
  if r.lce then s.bumpCounter r.part r.asid r.lctr else s

/-- An error entry (R421). -/
def errorEntry (r : NetReq) (code : Nat) : Word := word (code * 2 ^ 56 + r.peer * 2 ^ 32 + fld (r.w 3) 0 32)

/-- The image of a region is held: no failure of its commands reaches an error ring (R332). -/
def State.imageHeld (s : State) (region : Option Nat) : Bool :=
  match region.bind s.region? with
  | some r => match r.state with | .saved _ => true | _ => false
  | none => false

/-- A request fails: an entry goes into the error ring of LCTR, or NET_CQ_OVER is raised at its core when the ring is full; the request still
counts (R420, R421). The failure of a request whose region's image is held waits for the region (R332). -/
def failNet (code : Nat) (r : NetReq) (s : State) : State :=
  if s.imageHeld r.region then s.putNet { r with doom := some (r.doom.getD code) }
  else
  let a := s.asidOf r.asid
  let ring := (assocGet a.cqs r.lctr).getD []
  let s := if 16 ≤ ring.length then
      s.visit r.core fun s => hold (s.engineTrap 3 0 0x103 (word r.lctr) 0 r.bundle r.slot r.seq) s
    else s.putAsid r.asid { a with cqs := assocPut a.cqs r.lctr (ring ++ [errorEntry r code]) }
  endNet r s

/-- Kill every request of a region (R348). -/
def killNet (region : Nat) (s : State) : State :=
  (s.nets.filter fun r => decide (r.region = some region)).foldl (fun (s : State) r => failNet 0x0B r s) s

/-! ### The slots (R417 to R419, R421) -/

/-- Runs of a global source, or the address of the page that fails to translate (R418). -/
def sourceRuns (s : State) : List (Nat × Nat) → Except Nat (List Piece)
  | [] => .ok []
  | (va, n) :: l =>
    match (if 2 ^ 57 < va + n then .error 0 else s.translate va true false false) with
    | .error _ => .error va
    | .ok pa => (sourceRuns s l).map fun ps => { off := 0, at' := pa, len := n } :: ps

/-- The request is accepted: its packets take the next sequence numbers of the peer (R418, R423). -/
def takeNet (r : NetReq) (s : State) : State :=
  let key := peerKey r.part r.peer
  let first := (assocGet s.peerSeq key).getD 0
  let r := { r with id := s.nextNet, pkts := (List.range r.count).map fun i => { idx := i, seq := first + i } }
  { s with nextNet := s.nextNet + 1, nets := s.nets ++ [r], peerSeq := assocPut s.peerSeq key (first + r.count) }

/-- NET.POST (R418). -/
def execNetPost (a b : GReg) (s : State) : Outcome :=
  cslot [a, b] s fun ws s =>
    let x := opd ws 0
    let c := s.core
    let bad : Outcome := done (engineHold 3 0 0x101 x 0 s)
    if 64 ≤ (s.nets.filter fun y => decide (y.core = c.id)).length then stall s
    else if x.toNat % 64 ≠ 0 ∨ s.spadSize < x.toNat + 64 ∨ opd ws 1 ≠ 0 then bad
    else if !c.storesDone c.curSeq true [{ off := 0, at' := x.toNat, len := 64 }] then stall s
    else
      let r : NetReq :=
        { id := 0, core := c.id, region := c.region, asid := c.asid, part := c.part, words := descWords c x.toNat 8, pkts := [],
          bundle := c.curBundle, slot := c.curSlot, seq := c.curSeq, task := c.taskid.toNat }
      let peers := ((s.part c.part).peers.map List.length).getD 0
      if !r.wellFormed || decide (peers ≤ r.peer) || (r.lce && (assocGet (s.asidOf c.asid).ctrs r.lctr).isNone)
          || (!r.lsp && decide (s.spadSize < r.laddr + r.len)) then bad
      else match (if r.lsp then sourceRuns s (pages (r.len / 4096 + 2) r.laddr r.len) else .ok []) with
        | .error va => done (engineHold 3 0 0x102 (word va) 0 s)
        | .ok ps => done (takeNet { r with pieces := ps } s)

/-- NET.ARM binds or unbinds a counter of the context, once every earlier request that names it has completed (R419). Log 49, DEDUCED. -/
def execNetArm (a b : GReg) (s : State) : Outcome :=
  cslot [a, b] s fun ws s =>
    let n := opd ws 0
    let va := opd ws 1
    let c := s.core
    let x := s.asidOf c.asid
    let bad : Outcome := done (engineHold 3 0 0x101 n 0 s)
    let put (ctrs : List (Nat × Nat)) : Outcome :=
      if s.nets.any fun r => decide (r.asid = c.asid ∧ r.lctr = n.toNat) then stall s
      else done (s.putAsid c.asid { x with ctrs := ctrs, cqs := assocDel x.cqs n.toNat })
    if 256 ≤ n.toNat then bad
    else if va = 0 then put (assocDel x.ctrs n.toNat)
    else if va.toNat % 8 ≠ 0 ∨ 2 ^ 57 ≤ va.toNat then bad
    else match s.translate va.toNat true true false with
      | .error _ => bad
      | .ok pa => if inHost pa then bad else put (assocPut x.ctrs n.toNat pa)

/-- NET.CQR pops the oldest error entry of a counter, or gives 0 (R421); a trap leaves the push of its destination empty (R54). -/
def execNetCqr (d a : GReg) (s : State) : Outcome :=
  if !roomFor (use (.netCqr d a)) s.core then stall s
  else readGs [a] s fun ws bad s =>
    let n := opd ws 0
    match bad with
    | some va => backTrap (.netCqr d a) 0x047 va 0 s
    | none =>
    if 256 ≤ n.toNat then
      let s := engineHold 3 0 0x101 n 0 s
      done { s with core := s.core.emptyPushes (use (.netCqr d a)) }
    else
      let x := s.asidOf s.core.asid
      match (assocGet x.cqs n.toNat).getD [] with
      | [] => done { s with core := s.core.setBackG d 0 }
      | e :: l => done ({ s with core := s.core.setBackG d e }.putAsid s.core.asid { x with cqs := assocPut x.cqs n.toNat l })

/-! ### Sending (R416, R418, R422, R423) -/

/-- Bytes of packet i: offset and length. -/
def NetReq.span (r : NetReq) (i : Nat) : Nat × Nat := (i * r.size, min r.size (r.len - i * r.size))

/-- The next packet of a request that has never been sent. -/
def NetReq.unsent (r : NetReq) : Option Pkt := r.pkts.find? fun p => decide (p.sends = 0)

/-- The request may send its next packet: its region runs, and earlier stores to a scratchpad source are performed (R268, R331). -/
def netSendable (s : State) (r : NetReq) : Bool :=
  match r.unsent with
  | none => false
  | some p =>
    let (o, n) := r.span p.idx
    regionLive s r.region && (r.lsp || (s.coreAt r.core).storesDone r.seq true [{ off := 0, at' := r.laddr + o, len := n }])

/-- The packet as it goes out, by the port and to the station of the peer's entry, under its key (R415, R431). -/
def NetReq.packet (r : NetReq) (e : Nat × Nat × Nat) (p : Pkt) : NetPacket :=
  { peer := r.peer, seq := p.seq, req := r.id, addr := r.raddr + (r.span p.idx).1, total := r.len, bytes := p.bytes,
    fef := (r.w 3).getLsbD 59, rce := (r.w 3).getLsbD 58, rctr := fld (r.w 2) 32 8, part := r.part,
    port := e.1, station := e.2.1, key := e.2.2 }

/-- Entry n of a partition's peer table (R415, R431). -/
def Partition.peer? (p : Partition) (n : Nat) : Option (Nat × Nat × Nat) := (p.peers.getD [])[n]?

/-- An Ethernet port is up while a partition's peer table binds it (R431, R444). Log 49, DEDUCED. -/
def State.ethUp (s : State) (n : Nat) : Bool := (List.range 64).any fun p => ((s.part p).peers.getD []).any fun e => decide (e.1 = n)

/-- Ethernet ports whose state has changed since an earlier state raise their interrupts (R377). -/
def State.ethChanged (s old : State) : State :=
  ((List.range 8).filter fun n => s.ethUp n != old.ethUp n).foldl (fun (s : State) n => s.addTodo { instr := .intExt, args := { n := 0x460 + n } }) s

/-- Send a packet by its peer's port, with its timer of 20 us (R423). Log 49, DEDUCED. -/
def transmit (r : NetReq) (p : Pkt) (s : State) : State :=
  let p := { p with sends := p.sends + 1 }
  let r := { r with pkts := r.pkts.map fun q => if q.idx = p.idx then p else q }
  let out := ((s.part r.part).peer? r.peer).toList.map fun e => r.packet e p
  let s := ({ s with netOut := s.netOut ++ out } : State).putNet r
  s.addTimer { instr := .retransmitTimeout, args := { n := r.id, m := p.idx, p := p.sends }, at' := s.pktime + 45000 }

/-- Send the next packet of request `id`: its source is read, with the tokens of its context for memory; a failed fill or a poisoned sector
ends the request (R232, R233, R422). A failure that was due while its region's image was held comes first (R332). -/
def sendPacket (id : Nat) (s : State) : Outcome :=
  match s.net? id with
  | none => stall s
  | some r =>
    match r.doom, r.unsent with
    | some code, _ =>
      if s.imageHeld r.region then stall s else done (failNet code { r with doom := none } (s.putNet { r with doom := none }))
    | none, none => stall s
    | none, some p =>
      let (o, n) := r.span p.idx
      let ps := if r.lsp then cutRuns r.pieces o n else [{ off := 0, at' := r.laddr + o, len := n }]
      if !netSendable s r then stall s
      else match (if r.lsp then servedAs s r.asid (s.regionPrio r.region) ps else some s) with
        | none => stall s
        | some s =>
          let (s, bad) := if r.lsp then s.touchPieces ps else (s, false)
          let m := if r.lsp then s.mem else (s.coreAt r.core).spad
          if bad then done (failNet 0x06 r s)
          else if poisonPieces m ps then done (failNet 0x0D r s)
          else done (transmit r { p with bytes := readPieces m ps } s)

/-! ### What returns (R420, R421, R423) -/

/-- The last send of a packet was not acknowledged: every request to the peer fails, with one record (R423). Log 49, DEDUCED. -/
def peerLost (r : NetReq) (s : State) : State :=
  let out := s.nets.filter fun x => decide (x.part = r.part ∧ x.peer = r.peer)
  let s := out.foldl (fun (s : State) x => failNet 0x0C x s) s
  s.recordSv { code := 0x104, tval := word r.peer, tval2 := word out.length, tinfo := s.vatInfo } r.asid r.part

/-- RETRANSMIT_TIMEOUT: the timer of packet m of request n, set at its send p, runs out (R423). -/
def execRetransmitTimeout (s : State) : Outcome :=
  match s.net? s.args.n with
  | none => done s
  | some r =>
    match r.pkts.find? fun p => decide (p.idx = s.args.m) with
    | none => done s
    | some p =>
      if p.acked ∨ p.sends ≠ s.args.p ∨ r.doom.isSome then done s
      else if 9 ≤ p.sends then done (peerLost r s)
      else done (transmit r p s)

/-- Mark what a bitmap acknowledges; a request whose packets all are completes, unless its failure is due already (R420, R425). -/
def ackPackets (held : List Nat) (r : NetReq) (s : State) : State :=
  let r := { r with pkts := r.pkts.map fun p => if held.contains p.seq && decide (0 < p.sends) then { p with acked := true } else p }
  if r.doom.isNone && r.pkts.all (·.acked) then endNet r s else s.putNet r

/-- Packets that a bitmap shows missing: one three or more numbers beyond is acknowledged (R423). -/
def missing (held : List Nat) (r : NetReq) : List Pkt :=
  r.pkts.filter fun p => r.doom.isNone && !p.acked && decide (0 < p.sends) && held.any fun h => decide (p.seq + 3 ≤ h)

/-- Send the missing packets of requests again; where the last send of one is not acknowledged the peer is lost (R423). -/
def sendMissing (held : List Nat) (rs : List NetReq) (s : State) : State :=
  match rs.find? fun r => (missing held r).any fun p => decide (9 ≤ p.sends) with
  | some r => peerLost r s
  | none => rs.foldl (fun (s : State) r =>
      (missing held r).foldl (fun (s : State) p => match s.net? r.id with | some r => transmit r p s | none => s) s) s

/-- SELECTIVE_ACK from peer n of partition p: the sequence numbers in the list are held there; request m - 1 is refused when m is not 0
(R420, R421, R423). Log 49, DEDUCED. -/
def execSelectiveAck (s : State) : Outcome :=
  if 64 ≤ s.args.p then done s
  else
    let mine (s : State) : List NetReq := s.nets.filter fun r => decide (r.part = s.args.p ∧ r.peer = s.args.n)
    let s := (mine s).foldl (fun (s : State) r => ackPackets s.args.list r s) s
    let s := (mine s).foldl (fun (s : State) r => if s.args.m = r.id + 1 then failNet 0x02 r s else s) s
    done (sendMissing s.args.list (mine s) s)

/-! ### Placement (R420, R422, R423) -/

/-- What has arrived from a peer. -/
def State.rx (s : State) (part peer : Nat) : PeerRx :=
  (s.peerRx.find? fun x => decide (x.part = part ∧ x.peer = peer)).getD { part := part, peer := peer }
/-- Put it back. -/
def State.putRx (s : State) (x : PeerRx) : State :=
  { s with peerRx := (s.peerRx.filter fun y => !decide (y.part = x.part ∧ y.peer = x.peer)) ++ [x] }

/-- The acknowledgement that the target returns: what it holds, and a refused request. -/
def ackPeer (x : PeerRx) (refused : List Nat) (s : State) : State :=
  { s with sackOut := s.sackOut ++ [{ part := x.part, peer := x.peer, held := x.held, refused := refused }] }

/-- Packet `seq` of a peer has been placed: its number is held and acknowledged, and the request that it completes counts at RCTR once (R420). -/
def packetPlaced (k : NetPacket) (x : PeerRx) (s : State) : State :=
  let placed := (assocGet x.reqs k.req).getD 0 + k.bytes.length
  let x := { x with held := numAdd x.held k.seq, reqs := assocPut x.reqs k.req placed, placing := numDel x.placing k.seq }
  let s := ackPeer x [] (s.putRx x)
  if k.rce ∧ placed = k.total then s.bumpCounter k.part k.asid k.rctr else s

/-- A packet's words leave to be written, FEF setting the bit of each written whole (R416, R422). -/
def placePacket (k : NetPacket) (ps : List Piece) (s : State) : State :=
  let s := s.forPart k.part fun s => (s.touchPieces ps).1
  s.bring
    { no := 0, core := s.core.id, src := s.core.id, cmd := k.seq, region := none, cond := false, sp := false, words := [], bad := [], clean := []
      bytes := 0, counts := [], path := .away, part := some k.part
      after := [{ instr := .packetPlacement, core := s.core.id, args := { pkt := some k, flag := true } }] }
    (lumpChunk false (if k.fef then .set true else .keep) ps (plainLump k.bytes))

/-- A packet comes from the peer that it names: by its port, from its station and under its key (R415, R431). Log 49, DEDUCED. -/
def NetPacket.known (k : NetPacket) (s : State) : Bool := decide ((s.part k.part).peer? k.peer = some (k.port, k.station, k.key))

/-- PACKET_PLACEMENT: a packet arrives, and is placed through the network aperture unless its number is held already; one that is being
placed is waited for, one of a refused request is refused as well, and one of no peer is discarded. With `flag` the last word of a packet that was
being placed has been written (R415, R420, R422, R423). -/
def execPacketPlacement (s : State) : Outcome :=
  match s.args.pkt with
  | none => done s
  | some k =>
    if 64 ≤ k.part then done s
    else
      let x := s.rx k.part k.peer
      let flying := s.flights.any fun f => f.after.any fun d => decide (d.args.pkt = some k)
      if s.args.flag then done (if x.placing.contains k.seq && !flying then packetPlaced k x s else s)
      else if !k.known s then done s
      else if x.held.contains k.seq then done (ackPeer x [] s)
      else if x.refused.contains k.req then done (ackPeer x [k.req] s)
      else if x.placing.contains k.seq then stall s
      else match placeAll (fun va => aperPlace (s.part k.part).naper va false true) (pages (k.bytes.length / 4096 + 2) k.addr k.bytes.length) with
        | none =>
          let x := { x with refused := numAdd x.refused k.req }
          done (ackPeer x [k.req] (s.putRx x))
        | some ps => done (placePacket k ps (s.putRx { x with placing := numAdd x.placing k.seq }))

end Sys2Proof.Machine
end

