-- ==== Sys2Proof/Machine/Steps.lean ====
section
/-!
DEFINITION. The supersteps of a scheduled region: the package barrier (R177, R182, R329), the master conductor and its long words
(R179, R281, R364, R411), the start of a compute step, and the deadline (R181). The light record of a boundary is in Save.lean.
-/

namespace Sys2Proof.Machine

/-! ### The barrier (R177, R182) -/

/-- The cores of a region that it holds now: its own cores are not lent to a child (R194). -/
def State.held (s : State) (r : Region) : List Nat := r.budget.filter fun id => decide ((s.coreAt id).region = some r.id)
/-- Those that have not retired (R185). -/
def State.crew (s : State) (r : Region) : List Nat := (s.held r).filter fun id => decide ((s.coreAt id).run ≠ .retired)

/-- The core has arrived at the barrier: its slots have executed and its landing loads have landed (R182). -/
def Core.arrived (c : Core) : Bool :=
  match c.run with
  | .atBarrier => true
  | .arriving _ => c.settled && !(c.laq.any fun e => e.arrival.isSome)
  | _ => false

/-- The region runs, be a request outstanding or not. -/
def Region.live (r : Region) : Bool :=
  match r.state with
  | .running | .requested _ => true
  | _ => false

/-- A request is outstanding. -/
def Region.requested (r : Region) : Bool :=
  match r.state with
  | .requested _ => true
  | _ => false

/-- The barrier of a region may release. -/
def barrierReady (s : State) (r : Region) : Bool :=
  let crew := s.crew r
  r.scheduled && r.live && !r.inComm && r.unsent.isEmpty && !crew.isEmpty && crew.all fun id => (s.coreAt id).arrived

/-- The number of the compute step that follows the barrier. -/
def nextStep (s : State) (r : Region) : Nat := match s.crew r with | id :: _ => ((s.coreAt id).stepno.toNat + 1) % 2 ^ 16 | [] => 0

/-- The entry of the boundary table for a step: the address of its restart stream, when it is a boundary (R328). Log 27, DEDUCED. -/
def boundaryEntry (s : State) (r : Region) (n : Nat) : Option Nat :=
  if n = 0 then none
  else match s.regionPlace r (r.sched - 0x80000 + 8 * n) true false with
    | some pa => let a := fld (s.mem.word pa) 0 57; if a = 0 then none else some a
    | none => none

/-- The boundary at which the region would stop, were the barrier to release now: one at TN or SV only (R327, R329). Log 27, DEDUCED. -/
def boundaryNow (s : State) (r : Region) : Option Nat :=
  let n := nextStep s r
  if decide (2 ≤ r.level.toNat) && r.asked && (boundaryEntry s r n).isSome then some n else none

/-- The entry of the boundary table for a step is read (R218, R328). -/
def State.touchEntry (s : State) (r : Region) (n : Nat) : State := s.touchRegion r (r.sched - 0x80000 + 8 * n) 8

/-- BARRIER_RELEASE: every core of region n that has not retired has arrived: STEPCLK becomes 0 and STEPNO rises on one clk, and
the communication step begins (R177); with a request outstanding a boundary stop is then due (R329). -/
def execBarrierRelease (s : State) : Outcome :=
  match s.region? s.args.n with
  | none => done s
  | some r =>
    if !barrierReady s r then stall s
    else
      let n := word (nextStep s r)
      let s := if decide (2 ≤ r.level.toNat) && r.asked then s.touchEntry r (nextStep s r) else s
      let r' := { r with inComm := true, time := 0, endT := none, lastT := none, boundary := boundaryNow s r }
      done ((s.crew r).foldl (fun (s : State) id =>
        s.onCore id fun (c : Core) => { c with stepclk := 0, stepno := n, run := .atBarrier, freeze := none }) (s.putRegion r'))

/-! ### The conductor reads a long word (R179) -/

/-- The delays from the master conductor to each die's engines (R364). -/
def realDelay : List Nat := [4, 28, 76, 76, 76, 76, 76, 28]

/-- The header of a long word obeys R179: COUNT, T. -/
def headerOk (r : Region) (h0 h1 : Word) : Bool :=
  onlyBits h0 0x0000FFFFFFFF000F && decide (h1 = 0) && decide (fld h0 0 4 < 8) && (r.lastT.all fun t => decide (t < fld h0 16 32))

/-- A slot of a long word obeys R179 and R364. -/
def slotOk (w0 w1 : Word) : Bool :=
  onlyBits w0 0x0000FFFFFFFF07FF && onlyBits w1 0x1FFFFFFFFFFFFFF
    && (!w0.getLsbD 3 || decide (fld w0 4 7 < 96 ∧ fld w0 0 3 = 0))

/-- Address of the conductor's next long word: in the restart stream of a boundary, else in the main stream (R179, R329). -/
def streamAt (r : Region) : Nat :=
  match r.restart with
  | some (a, k) => a + 128 * k
  | none => r.sched + 128 * r.streamPos

/-- The conductor moves past a long word. -/
def Region.advance (r : Region) : Region :=
  match r.restart with
  | some (a, k) => { r with restart := some (a, k + 1) }
  | none => { r with streamPos := r.streamPos + 1 }

/-- Words of a range of the region's memory; none where it cannot be read or is poisoned (R219, R346). -/
def State.regionWords (s : State) (r : Region) (va n : Nat) : Option (List Word) :=
  match placeAll (fun va => s.regionPlace r va true false) (pages 3 va (8 * n)) with
  | none => none
  | some ps => if poisonPieces s.mem ps then none else some (wordsOf (readPieces s.mem ps) 0 n)

/-- Read the next long word: its slots wait for their start, and an end long word fixes the end of the step (R177, R179). Log 25, DEDUCED. -/
def readLongWord (r : Region) (s : State) : Outcome :=
  let s := s.touchRegion r (streamAt r) 128
  match s.regionWords r (streamAt r) 16 with
  | none => done (s.haltRegion (some r.id) 0x01E)
  | some ws =>
    let h := ws.getD 0 0
    let t := fld h 16 32
    let n := fld h 0 4
    let slots := (List.range n).map fun i => (ws.getD (2 + 2 * i) 0, ws.getD (3 + 2 * i) 0, t)
    if !headerOk r h (ws.getD 1 0) || !(slots.all fun x => slotOk x.1 x.2.1) then done (s.haltRegion (some r.id) 0x01E)
    else
      let r := { r.advance with lastT := some t, unsent := r.unsent ++ slots }
      done (s.putRegion (if n = 0 then { r with endT := some t, restart := none } else r))

/-! ### The conductor starts a slot (R179, R281, R364, R411) -/

/-- When a slot starts: at T + OFFSET, or when it reaches its engine, sent SKEW clk ahead of that (R179, R364). -/
def slotTime (r : Region) (x : Word × Word × Nat) : Nat :=
  let start := x.2.2 + fld x.1 16 32
  let d := fld x.1 0 3
  max start ((start - r.skew.getD d 0) + realDelay.getD d 0)

/-- A slot's start time has come, in the step's clk; behind the end of the step it starts at once. -/
def slotDue (r : Region) (x : Word × Word × Nat) : Bool := !r.inComm || decide (slotTime r x ≤ r.time)

/-- Do something at a core; a stall there is a stall here. -/
def State.atCore (s : State) (id : Nat) (f : State → Outcome) : Outcome :=
  let here := s.core.id
  let t := s.focus id
  match f { t with core := { t.core with mark := .ok } } with
  | .next u => if u.core.mark = .stall then stall s else .next (u.focus here)
  | o => o

/-- A command block that cannot be used (R179, R281, R411). Log 25, DEDUCED. -/
def badBlock (r : Region) (s : State) : Outcome := done (s.haltRegion (some r.id) 0x01E)

/-- The copy command of an image's opcode (R270). Log 24, DEDUCED. -/
def copyOfOp (op : Nat) : Option CopyKind :=
  match op with
  | 0 => some .cpy
  | 1 => some .cpyn
  | 2 => some .cpyp
  | 3 => some .cpym
  | 4 => some .cpyg
  | 5 => some .cpyq
  | _ => none

/-- A copy slot: the target core's copy engine takes the command ahead of its queue (R281). CPYQ takes its queue from the value
that stands for g[A]. Log 24, DEDUCED. -/
def startCopySlot (r : Region) (w0 : Word) (ws : List Word) (s : State) : Outcome :=
  let image := ws.getD 0 0
  let a := ws.getD 1 0
  let b := ws.getD 2 0
  let id := s.logical (fld w0 0 3) (fld w0 4 7)
  match copyOfOp (fld image 21 7), Forms.feOf (BitVec.ofNat 3 (fld image 0 3)) with
  | some kind, some m =>
    if fld image 28 3 ≠ 4 || !(s.held r).contains id || (decide (kind = .cpyq) && decide (8 ≤ a.toNat)) then badBlock r s
    else s.atCore id fun s =>
      let x := { slotCopy s.core kind m (if kind = .cpyq then b else a) (if kind = .cpyq then 0 else b) with
        cond := true, region := some r.id, bundle := 0, slot := 0, seq := s.core.seq }
      acceptCopy x (if kind = .cpyq then some (BitVec.ofNat 3 a.toNat) else none) s
  | _, _ => badBlock r s

/-- The operation of a link image: LNK.SEND takes it from KIND of the descriptor (R403, R404). -/
def linkOfOp (op kind : Nat) : FabKind :=
  match op with
  | 0x20 => (match kind with | 1 => .get | 2 => .atomic | 3 => .message | _ => .put)
  | 0x22 => .radd
  | _ => .red

/-- A link slot: the link engine of port TARGET starts the command for the core of word 3 (R411). Log 26, DEDUCED. -/
def startLinkSlot (r : Region) (w0 : Word) (ws : List Word) (s : State) : Outcome :=
  let op := fld (ws.getD 0 0) 21 7
  let va := ws.getD 1 0
  let target := ws.getD 2 0
  let id := s.logical (fld (ws.getD 3 0) 7 3) (fld (ws.getD 3 0) 0 7)
  let s := s.touchRegion r va.toNat 64
  if fld (ws.getD 0 0) 28 3 ≠ 4 ∨ op < 0x20 ∨ 0x23 < op ∨ va.toNat % 64 ≠ 0 ∨ 2 ^ 57 ≤ va.toNat || !(s.held r).contains id then badBlock r s
  else match s.regionWords r va.toNat 8 with
    | none => badBlock r s
    | some desc =>
      s.atCore id fun s =>
        if !targetOk s target || !target.getLsbD 0 then badBlock r s
        else
          let kind := fld (desc.getD 3 0) 56 3
          let l := { linkOf s (linkOfOp op kind) desc va target 0 0 s.core.seq true with port := fld w0 4 7 }
          if op = 0x21 then postReceive l s else acceptLink l s

/-- Start one slot: its command block is read, and its engine accepts it. Log 25, DEDUCED. -/
def startSlot (r : Region) (x : Word × Word × Nat) (s : State) : Outcome :=
  let s := (s.putRegion { r with unsent := r.unsent.erase x }).touchRegion r (fld x.2.1 0 57) 32
  match s.regionWords r (fld x.2.1 0 57) 4 with
  | none => badBlock r s
  | some ws => if x.1.getLsbD 3 then startLinkSlot r x.1 ws s else startCopySlot r x.1 ws s

/-- Start the first due slot whose engine has room. Log 26, DEDUCED. -/
def startFirst (r : Region) (s : State) : List (Word × Word × Nat) → Outcome
  | [] => stall s
  | x :: l =>
    match startSlot r x s with
    | .next t => if t.core.mark = .stall then startFirst r s l else .next t
    | o => o

/-- CONDUCTOR_SLOT_SEND for region n: the master conductor reads its next long word (m = 0), or sends a slot whose time has come to its
engine (R179). -/
def execConductorSlotSend (s : State) : Outcome :=
  match s.region? s.args.n with
  | none => done s
  | some r =>
    if !r.scheduled || !r.live then stall s
    else if s.args.m = 0 then (if r.inComm && r.endT.isNone then readLongWord r s else stall s)
    else startFirst r s (r.unsent.filter (slotDue r))

/-! ### Late data (R177, R180) -/

/-- The transfer of a link command ends in its core's scratchpad. -/
def LinkCmd.fills (l : LinkCmd) : Bool := !l.lsp && (decide (l.op = .get) || decide (l.op = .atomic))

/-- Physical cores whose scratchpads the transfer of a slot fills, as its command block now reads; none when it ends elsewhere. -/
def slotFills (s : State) (r : Region) (x : Word × Word × Nat) : List Nat :=
  match s.regionWords r (fld x.2.1 0 57) 4 with
  | none => []
  | some ws =>
    let image := ws.getD 0 0
    if x.1.getLsbD 3 then
      let id := s.logical (fld (ws.getD 3 0) 7 3) (fld (ws.getD 3 0) 0 7)
      match s.regionWords r (ws.getD 1 0).toNat 8 with
      | none => []
      | some desc =>
        let op := fld image 21 7
        if op = 0x21 then (if fld (desc.getD 0 0) 63 1 = 0 then [id] else [])
        else if (linkOf s (linkOfOp op (fld (desc.getD 3 0) 56 3)) desc 0 0 0 0 0 true).fills then [id] else []
    else
      let id := s.logical (fld x.1 0 3) (fld x.1 4 7)
      let c := s.coreAt id
      match copyOfOp (fld image 21 7) with
      | none => []
      | some kind =>
        let a := if kind = .cpyq then ws.getD 2 0 else ws.getD 1 0
        let y := { slotCopy c kind .fekeep a 0 with desc := descWords c a.toNat (if kind = CopyKind.cpy then 4 else 16) }
        if kind = .cpym then y.receivers s else if y.dstGlobal then [] else [id]

/-- A command of the conductor has bytes on their way into this core's scratchpad. -/
def fillsSpad (s : State) (c : Core) : Bool :=
  (c.copies.any fun (x : CopyCmd) => x.cond && !x.dstGlobal && decide (x.kind ≠ .cpym))
    || (s.allCores.any fun d => d.copies.any fun (x : CopyCmd) => x.cond && decide (x.kind = .cpym) && (x.receivers s).contains c.id)
    || (s.flights.any fun f => f.cond && f.sp && decide (f.core = c.id)) || (s.mcasts.any fun m => m.cond && decide (m.core = c.id))
    || (s.links.any fun l => l.cond && decide (l.core = c.id) && l.fills) || (c.recvs.any fun (v : Receive) => v.cond && !v.lsp)

/-- A slot of the step that has not started would write into this core's scratchpad. -/
def slotAwaited (s : State) (r : Region) (c : Core) : Bool := r.unsent.any fun x => (slotFills s r x).contains c.id

/-- A transfer of the communication step that ends in no scratchpad, started or not, is not complete: the next compute step does not begin (R177). -/
def outwardPending (s : State) (r : Region) : Bool :=
  (r.unsent.any fun x => (slotFills s r x).isEmpty)
    || (r.budget.any fun id => (s.coreAt id).copies.any fun (x : CopyCmd) => x.cond && decide (x.region = some r.id) && x.dstGlobal)
    || (s.flights.any fun f => f.cond && decide (f.region = some r.id) && !f.sp)
    || (s.links.any fun l => l.cond && decide (l.region = some r.id) && !l.fills)
    || (r.budget.any fun id => (s.coreAt id).recvs.any fun (v : Receive) => v.cond && decide (v.region = some r.id) && v.lsp)

/-- The core's clock stands still: landing data is late, or data of the communication step was not there when the compute step
began (R180). Log 26, DEDUCED. -/
def State.frozen (s : State) (c : Core) : Bool :=
  (c.laq.any fun e => e.arrival.any fun a => decide (a.toNat ≤ c.stepclk.toNat))
    || (match c.region.bind s.region? with
        | some r => r.scheduled && !r.inComm && r.live && decide (c.run ≠ .retired) && (fillsSpad s c || slotAwaited s r c)
        | none => false)

/-! ### Deadline (R181) -/

/-- DEADLINE_OVER: DLREG of a core of region n has reached zero, and the region halts (R181, R340). -/
def execDeadlineOver (s : State) : Outcome := done (s.haltRegion (some s.args.n) 0x020)

end Sys2Proof.Machine
end

