-- ==== Sys2Proof/Machine/Save.lean ====
section
/-!
DEFINITION. Pre-emption: requests (R326, R327), boundaries (R329, R330), the dump pool (R338), forced saves and their images (R331
to R335, R390), resume (R339) and halts (R340, R341, R348).
-/

namespace Sys2Proof.Machine

/-! ### The dump pool (R338) -/

/-- The lowest place in a pool for an area, behind the stop area and clear of every area in use. Log 62, DEDUCED. -/
def lowestRoom (areas : List (Nat × Nat × Option Nat)) (pool mib : Nat) : Option Nat :=
  let n := mib * 2 ^ 20
  let free (off : Nat) : Bool := decide (off + n ≤ pool * 2 ^ 20)
    && areas.all fun a => decide (off + n ≤ a.1) || decide (a.1 + a.2.1 * 2 ^ 20 ≤ off)
  (sortNat (0x10000 :: areas.map fun a => a.1 + a.2.1 * 2 ^ 20)).find? free

/-- A halt dump is given up: the record that names it, or is yet to name it, has DUMP = 0 (R338). -/
def State.dropDump (s : State) (part : Nat) (a : Nat × Nat × Option Nat) : State :=
  let record := a.2.2.getD 0
  let s := { s with regions := s.regions.map fun (r : Region) => if r.part = part ∧ r.dump = a.1 then { r with dump := 0 } else r }
  let s := if record = 0 then s else s.forPart part fun s => s.writePhys (record - 1 + 8) (leBytes 8 0)
  s.putPart part { s.part part with areas := (s.part part).areas.erase a }

/-- Carve an area, freeing halt dumps oldest first for want of room; word 1 of the completion record of each is cleared first. A halt
dump's area keeps the address of that record plus one, 0 where there is none. Log 29, DESIGN CHOICE. Log 62, DEDUCED. -/
def carve (part mib : Nat) (owner : Option Nat) : Nat → State → State × Option Nat
  | 0, s => (s, none)
  | k + 1, s =>
    let p := s.part part
    match p.dump with
    | none => (s, none)
    | some (_, _, pool) =>
      match lowestRoom p.areas pool mib with
      | some off => (s.putPart part { p with areas := p.areas ++ [(off, mib, owner)] }, some off)
      | none =>
        match p.areas.find? fun a => a.2.2.isSome with
        | some a => carve part mib owner k (s.dropDump part a)
        | none => (s, none)

/-- An area of a partition's pool. Log 62, DEDUCED. -/
def State.takeArea (s : State) (part mib : Nat) (owner : Option Nat) : State × Option Nat :=
  carve part mib owner ((s.part part).areas.length + 1) s

/-- Give the area at an offset back. Log 30, DEDUCED. -/
def State.freeArea (s : State) (part off : Nat) : State :=
  s.putPart part { s.part part with areas := (s.part part).areas.filter fun a => decide (a.1 ≠ off) }

/-- Physical address of an offset in a partition's pool. -/
def State.poolPa (s : State) (part off : Nat) : Nat :=
  match (s.part part).dump with
  | some (_, frames, _) => frames.getD (off / 4096) 0 * 4096 + off % 4096
  | none => 0

/-- Write a string into a pool from an offset on, page by page. -/
def State.poolWrite (s : State) (part off : Nat) (bs : List Byte) : State :=
  s.writePieces ((pages (bs.length / 4096 + 2) off bs.length).map fun x => { off := 0, at' := s.poolPa part x.1, len := x.2 }) bs

/-- Read n bytes of a pool. -/
def State.poolRead (s : State) (part off n : Nat) : List Byte :=
  (pages (n / 4096 + 2) off n).flatMap fun x => s.mem.read (s.poolPa part x.1) x.2

/-- A part of a pool is read: its tiles come in (R218). -/
def State.touchPool (s : State) (part off n : Nat) : State :=
  (s.touchFor part ((pages (n / 4096 + 2) off n).map fun x => { off := 0, at' := s.poolPa part x.1, len := x.2 })).1

/-- Read a word of a pool. -/
def State.poolWord (s : State) (part off : Nat) : Word := wordOf (s.poolRead part off 8) 0

/-! ### Images (R333, R334) -/

/-- Bytes of the model's engine image and of the schedulers' lists: the spec gives them no layout. Log 29, DESIGN CHOICE. -/
def freeBytes (n : Nat) : List Byte := (List.range n).map Config.engineByte

/-- Write a core image at an offset of a pool (R334). Log 29, DESIGN CHOICE. -/
def writeImage (kind part off : Nat) (c : Core) (s : State) : State :=
  let s := s.poolWrite part off (saveBase c kind c.pc)
  let s := s.poolWrite part (off + 0x800) (saveVectors c)
  let s := s.poolWrite part (off + 0x5400) (freeBytes 0xAC00)
  let s := s.poolWrite part (off + 0x10000) (saveAccs c)
  (List.range 96).foldl (fun (s : State) i =>
    s.putLump false .carried (s.poolPa part (off + 0x20000 + 4096 * i)) (c.spad.lump (4096 * i) 4096)) s

/-- The first words of the region part (R334). -/
def regionRecord (r : Region) (kind cause pos : Nat) (dl : Word) : List Byte :=
  [word kind, word cause, word pos, word r.block, dl].flatMap fun (w : Word) => leBytes 8 w.toNat

/-- DLREG of a region: that of a core it holds, else what is left of its deadline. -/
def State.deadlineLeft (s : State) (r : Region) : Word := match s.held r with | id :: _ => (s.coreAt id).dlreg | [] => word r.left

/-- The sori of a region that no other running region of its tree holds: they are given up with the region (R187). Log 30, DEDUCED. -/
def lastSori (s : State) (r : Region) : List Nat :=
  let mine := (r.budget.map fun id => let c := s.coreAt id; 16 * c.die + c.sorus).eraseDups
  mine.filter fun n => decide ((s.sorusOf (n / 16) (n % 16)).tree = some r.root)
    && !((s.tree r.root).any fun q => decide (q.id ≠ r.id) && !(match q.state with | .saved _ | .complete => true | _ => false)
        && q.inSorus s (n / 16) (n % 16))

/-- The counters of a sorus as R334 lays them out. -/
def counterBytes (x : Sorus) : List Byte := (List.range 4096).flatMap fun n => leBytes 4 (x.counter n).toNat

/-- Write the region part: record, counters, lists (R334). Log 30, DEDUCED. -/
def writeRegionPart (r : Region) (kind cause pos off : Nat) (s : State) : State :=
  let rec' := regionRecord r kind cause pos (s.deadlineLeft r)
  let s := s.poolWrite r.part off (rec' ++ List.replicate (0x100000 - rec'.length) 0)
  let s := (lastSori s r).foldl (fun (s : State) n =>
    s.poolWrite r.part (off + 0x100000 + 0x4000 * n) (counterBytes (s.sorusOf (n / 16) (n % 16)))) s
  s.poolWrite r.part (off + 0x300000) (freeBytes 0x100000)

/-- Drop the window declarations of the cores of a region (R390). -/
def State.dropWindows (s : State) (r : Region) : State := (s.held r).foldl (fun (s : State) id => s.visit id dropAll) s

/-- Cores of a region with their ranks. -/
def State.ranked (s : State) (r : Region) : List (Nat × Core) :=
  (r.budget.zipIdx.filter fun x => decide ((s.coreAt x.1).region = some r.id)).map fun x => (x.2, s.coreAt x.1)

/-- A request on a window of a core of the region is in progress: its declarations cannot be dropped yet (R389, R390). -/
def State.windowsBusy (s : State) (r : Region) : Bool := (s.held r).any fun id => (s.coreAt id).wins.any fun (w : WinDecl) => windowBusy s w.wid

/-- The region gives up its cores and its last sori; what the couching engine keeps stays with the region, and so do the counters of a
region without a save area (R187, R327, R331). -/
def State.giveUp (s : State) (r : Region) (images : List (Nat × Core)) (forced : Bool) (dump : Nat) : State :=
  let sori := lastSori s r
  let kept := if dump = 0 then sori.map fun n => s.sorusOf (n / 16) (n % 16) else []
  let s := (s.held r).foldl (fun (s : State) id => s.onCore id fun (c : Core) => { c.unbound with recvs := [] }) s
  let s := { s with soruses := s.soruses.filter fun x => !sori.contains (16 * x.die + x.idx) }
  s.putRegion { r with state := .saved forced, images := images, sori := sori, kept := kept, dump := dump }

/-! ### Boundaries (R329, R330) -/

/-- The pool has no room for a save: the region halts, and no dump is written (R338). -/
def State.dumpFull (s : State) (r : Region) : State := (s.putRegion { r with noDump := true }).haltRegion (some r.id) 0x14C

/-- Stop a region at a boundary: the light record, in an area of 4 MiB; with no room the region halts (R329, R330, R338, R390). Log 27, DEDUCED. -/
def stopLight (r : Region) (pos : Nat) (s : State) : State :=
  let images := s.ranked r
  let s := s.dropWindows r
  let (s, place) := s.takeArea r.part 4 none
  match place with
  | none => s.dumpFull r
  | some pa =>
    let s := s.forPart r.part (writeRegionPart r 0 0 pos pa)
    -- a stop that a scan controller asked for ends at once on the rebound budget (R350)
    let r := { r with inComm := false, endT := none, resumeDue := r.resumeDue || (!r.scanReq.isEmpty && !r.requested), scanReq := [] }
    s.giveUp r images false pa

/-- The next compute step begins at every core (R177). A wait at the barrier that a trap entry broke into ends too. -/
def beginStep (r : Region) (s : State) : State :=
  (s.held r).foldl (fun (s : State) id => s.onCore id fun (c : Core) =>
    let c := match c.run with | .atBarrier => { c with run := .running } | _ => c
    match c.after with | some (.atBarrier, _) => { c with after := none } | _ => c) (s.putRegion { r with inComm := false, endT := none })

/-- COMPUTE_STEP_START: STEPCLK has reached the time of the end long word of region n: the next compute step begins once every transfer that
ends in no scratchpad is complete, or, where a boundary stop is due, the region stops once every transfer is (R177, R180, R329). -/
def execComputeStepStart (s : State) : Outcome :=
  match s.region? s.args.n with
  | none => done s
  | some r =>
    if !r.inComm || !r.live || !(r.endT.any fun t => decide (t ≤ r.time)) then stall s
    else match r.boundary with
      | none => if outwardPending s r then stall s else done (beginStep r s)
      | some n =>
        if !r.unsent.isEmpty || regionBusy s r || s.windowsBusy r then stall s else done (stopLight r n s)

/-- A core is running a region: it holds a task, or has started and not retired (R327). -/
def Core.runsRegion (c : Core) (r : Region) : Bool :=
  decide (c.region = some r.id) && (if r.scheduled then decide (c.run ≠ .retired) else decide (c.run ≠ .free))

/-- A tasked region is at its boundary: no core holds a task, every command has ended, every access is performed (R330). -/
def atBoundary' (s : State) (r : Region) : Bool :=
  !r.scheduled && r.live && r.asked && !((s.held r).any fun id => (s.coreAt id).runsRegion r) && !regionBusy s r
    && !(s.mcasts.any fun m => r.budget.contains m.src || r.budget.contains m.core) && !s.windowsBusy r

/-- TASKED_BOUNDARY: tasked region n has reached its boundary, and the light record is written (R330). Of a region at HV or FW that no core
runs any longer the request is satisfied, and nothing is written (R327). -/
def execTaskedBoundary (s : State) : Outcome :=
  match s.region? s.args.n with
  | none => done s
  | some r =>
    if !atBoundary' s r then stall s
    else if r.level.toNat < 2 then done ((s.dropWindows r).giveUp r (s.ranked r) false 0)
    else done (stopLight r 0 s)

/-! ### Requests (R326, R327) -/

/-- No core of the region has started (R326). -/
def Region.notStarted (r : Region) : Bool :=
  match r.state with
  | .acquiring _ _ | .pageFault _ _ _ | .waitingCores => true
  | _ => false

/-- A pre-emption request reaches one region and wakes its cores that IDLE has stopped (R88, R326); cores that run a region at HV or FW take PREEMPT (R327). -/
def requestOne (r : Region) (hv : Bool) (grace : Nat) (s : State) : State :=
  if r.notStarted then s.putRegion { r with hold := true }
  else match r.state with
    | .running =>
      let s := s.putRegion { r with state := .requested s.clk }
      let s := s.addTimer { instr := .graceEnd, args := { n := r.id, m := s.clk }, at' := s.pktime + grace }
      let s := (s.held r).foldl (fun (s : State) id => s.onCore id Core.wakeIdle) s
      if r.level.toNat < 2 then
        ((s.held r).filter fun id => (s.coreAt id).runsRegion r).foldl
          (fun (s : State) id => s.addTodo { instr := .preempt, core := id, args := { w := if hv then 1 else 0 } }) s
      else s
    | _ => s

/-- A request addressed to a region acts on every region of its tree (R326). -/
def requestTree (root : Nat) (hv : Bool) (grace : Nat) (s : State) : State :=
  (s.tree root).foldl (fun (s : State) r => requestOne r hv grace s) s

/-- The grace period, in clk of package time (R331, R367). -/
def graceClk : Nat := 1125000

/-- PREEMPT becomes pending at the core, with TVAL = w (R316, R327). Log 13, DEDUCED. -/
def execPreempt (s : State) : Outcome :=
  done { s with core := s.core.interrupt { code := 0x01D, tval := s.args.w, tinfo := tinfoImage 0 false true 3 (if s.inPod then s.pkg else 0) 0 0x7F } }

/-! ### Forced saves (R331, R332) -/

/-- A core stops: its waits are abandoned, so that the bundle is the resume point; what has committed stands (R122, R331). -/
def Core.stop (c : Core) : Core := { c with run := .stopped }

/-- The cores of a region stop, each kept with how it stood (R331). -/
def stopCores (r : Region) (s : State) : State :=
  let images := s.ranked r
  let s := (s.held r).foldl (fun (s : State) id => s.onCore id Core.stop) s
  s.putRegion { r with images := images }

/-- Start a forced save (R331). -/
def startSave (r : Region) (s : State) : State := stopCores { r with state := .saving, scanReq := [] } s

/-- Every unit of a stopped region has come to rest: no queued access may still be performed, frames and packets are answered,
nothing is on its way (R331). A paired access that an earlier unpaired one or a release holds back is saved unperformed. Log 65, DEDUCED. Log 91,
DESIGN CHOICE. -/
def atRest (s : State) (r : Region) : Bool :=
  ((s.held r).all fun id =>
    let c := s.coreAt id
    !(c.laq.any fun e => !e.prefetch && c.eligible e) && !(c.laq.any fun e => e.arrival.any fun a => decide (a.toNat ≤ c.stepclk.toNat)))
    && !(s.mcasts.any fun m => r.budget.contains m.src || r.budget.contains m.core)
    && !(s.flights.any fun f => decide (f.region = some r.id) || f.sp && r.budget.contains f.core) && !s.windowsBusy r
    && !(s.links.any fun l => decide (l.region = some r.id ∧ (l.acked < l.sent ∨ l.len ≤ l.acked)))
    && !(s.nets.any fun n => decide (n.region = some r.id) && (n.doom.isSome || n.pkts.any fun k => decide (0 < k.sends) && !k.acked))

/-- GRACE_END for region n: the grace period of the request made at clk m is over. A boundary that is due, or that the barrier reaches
at this clk, is taken; else the region is saved by force (R331, R341). At HV or FW a region still running halts (R327). -/
def execGraceEnd (s : State) : Outcome :=
  match s.region? s.args.n with
  | none => done s
  | some r =>
    if r.state ≠ .requested s.args.m then done s
    else if r.level.toNat < 2 then
      (if (s.held r).any fun id => (s.coreAt id).runsRegion r then done (s.haltRegion (some r.id) 0x020) else stall s)
    else if r.boundary.isSome then done s
    else if (barrierReady s r && (boundaryNow s r).isSome) || atBoundary' s r then stall s
    else done (startSave r s)

/-- How a core stood at the stop, with everything that has come to rest since. A core that had arrived at the barrier is kept as arrived
(R333); an SSTEP or IDLE wait is abandoned, and its bundle is the resume point (R331). Log 28, DESIGN CHOICE. -/
def Core.kept (now : Core) (was : Option Core) : Core :=
  match was with
  | none => { now with run := .running }
  | some c => match c.run with
    | .arriving b => if c.arrived then { now with run := .atBarrier } else { now with run := .running, pc := b, next := b }
    | .idle b => { now with run := .running, pc := b, next := b }
    | x => { now with run := x }

/-- The cores of a stopped region as their images hold them: freezes end (R331). -/
def State.atStop (s : State) (r : Region) : List (Nat × Core) :=
  (s.ranked r).map fun x => (x.1, (x.2.thaw s.clk).kept ((r.images.find? fun y => decide (y.1 = x.1)).map (·.2)))

/-- Write every image of a region into an area (R334). -/
def writeImages (kind part off : Nat) (images : List (Nat × Core)) (s : State) : State :=
  images.foldl (fun (s : State) x => writeImage kind part (off + 0x400000 + 0x80000 * x.1) x.2 s) s

/-- MiB of an area for a forced save or a halt (R338). -/
def areaMib (r : Region) : Nat := 4 + (r.ncores + 1) / 2

/-- Position of a scheduled region in its stream; 0 for a tasked one (R334). -/
def streamWord (r : Region) : Nat := if r.scheduled then r.streamPos else 0

/-- Write the dump of a halted region, and give it its status: the completion record follows (R338, R340). Log 30, DEDUCED. -/
def writeDump (r : Region) (cause : Nat) (images : List (Nat × Core)) (s : State) : State :=
  let owner := ((s.regionPlace r r.compl false true).map (· + 1)).getD 0
  let (s, place) := match r.state with
    | .saved _ => (s, none)
    | _ => if r.noDump then (s, none) else s.takeArea r.part (areaMib r) (some owner)
  let s := match place with
    | some pa => s.forPart r.part fun s => writeImages 2 r.part pa images (writeRegionPart r 2 cause (streamWord r) pa s)
    | none => s
  let s := s.dropWindows r
  (s.putRegion { r with state := .complete, status := cause, count := 0, dump := place.getD 0 }).addTodo
    { instr := .completionRecord, args := { n := r.id } }

/-- FORCED_SAVE_COMPLETE: the cores of region n have stopped and come to rest: the images of a forced save or of a halt are written (R331,
R336, R340). -/
def execForcedSaveComplete (s : State) : Outcome :=
  match s.region? s.args.n with
  | none => done s
  | some r =>
    match r.state with
    | .saving =>
      if !atRest s r then stall s
      else
        let images := s.atStop r
        let s := s.dropWindows r
        let (s, place) := s.takeArea r.part (areaMib r) none
        (match place with
          | none => done (s.dumpFull r)
          | some pa =>
            let s := s.forPart r.part fun s => writeImages 1 r.part pa images (writeRegionPart r 1 0 (streamWord r) pa s)
            done (s.giveUp r images true pa))
    | .halting => if !atRest s r then stall s else done (writeDump r (r.halt.getD 0) (s.atStop r) s)
    | _ => stall s

/-! ### Halts (R340, R348) -/

/-- The link and network commands of a region are in hand no longer: no count or failure of theirs is applied (R332). One that has failed waits for
its frames' answers (R325). -/
def State.dropCommands (s : State) (r : Region) : State :=
  { s with links := s.links.filter fun l => decide (l.region ≠ some r.id) || l.dead, nets := s.nets.filter fun n => decide (n.region ≠ some r.id) }

/-- Kill every command of a region that has not completed, its posted receives among them: a copy between chunks, once what it is writing has
been written (R348). -/
def killCommands (r : Region) (s : State) : State :=
  let s := r.budget.foldl (fun (s : State) id => s.visit id fun s =>
    let s := killRecvs (fun v => decide (v.region = some r.id)) s
    (s.core.copies.filter fun (x : CopyCmd) => decide (x.region = some r.id)).foldl (fun (s : State) x => doomed 0x0B x s) s) s
  ((s.links.filter fun l => decide (l.region = some r.id)).foldl (fun (s : State) l => failLink 0x0B l s) (killNet r.id s)).dropCommands r

/-- The save area of a region becomes a halt dump: KIND 2 and the cause, in the region part and in its core images (R334, R338, R340). -/
def State.haltArea (s : State) (r : Region) (cause : Nat) : State :=
  if r.dump = 0 then s
  else
    let owner := ((s.regionPlace r r.compl false true).map (· + 1)).getD 0
    let s := s.forPart r.part fun s =>
      let s := s.poolWrite r.part r.dump (leBytes 8 2 ++ leBytes 8 cause)
      if r.state = .saved true then
        r.images.foldl (fun (s : State) x => s.poolWrite r.part (r.dump + 0x400000 + 0x80000 * x.1) (leBytes 8 2)) s
      else s
    let p := s.part r.part
    s.putPart r.part { p with areas := p.areas.map fun a => if a.1 = r.dump then (a.1, a.2.1, some owner) else a }

/-- One region halts: its cores stop and its commands are killed; one that never started, or is saved, has nothing to stop (R340,
R341). The dump of a saved region becomes a halt dump. Log 30, DEDUCED. -/
def haltOne (cause : Nat) (r : Region) (s : State) : State :=
  match r.state with
  | .complete | .halting => s
  | .saved _ =>
    let s := ({ s with tasks := s.tasks.filter fun t => decide (t.region ≠ r.id) } : State).haltArea r cause
    ((s.dropCommands r).putRegion { r with state := .complete, status := cause, count := 0 }).addTodo { instr := .completionRecord, args := { n := r.id } }
  | _ =>
    if r.notStarted then
      (s.putRegion { r with state := .complete, status := cause, count := 0 }).addTodo { instr := .completionRecord, args := { n := r.id } }
    else
      let s := killCommands r s
      let r := (s.region? r.id).getD r
      let s := { s with tasks := s.tasks.filter fun t => decide (t.region ≠ r.id) }
      match r.state with
      | .saving => s.putRegion { r with state := .halting, halt := some cause }
      | _ => stopCores { r with state := .halting, halt := some cause } s

/-- The regions that a halt reaches: those of the partition in `list`, or of the partition and fault domain of region n, each with its tree
(R231, R315, R340). -/
def haltReach (s : State) : List Region :=
  let same : List Region := match s.args.list with
    | p :: _ => s.regions.filter fun q => decide (q.part = p)
    | [] => match s.region? s.args.n with
      | some r => s.regions.filter fun q => decide (q.part = r.part ∧ q.fdom = r.fdom)
      | none => []
  let roots := same.map fun q => q.root
  s.regions.filter fun q => roots.contains q.root

/-- REGION_HALT of region n, or of every region of the partition in `list`, with cause m (R231, R315, R340). -/
def execRegionHalt (s : State) : Outcome :=
  done ((haltReach s).foldl (fun (s : State) q => haltOne s.args.m ((s.region? q.id).getD q) s) s)

/-! ### Resume (R329, R330, R335, R339, R355) -/

/-- A store from the bytes of a saved scratchpad (R334). -/
def storeOf (l : Lump) (parked : List Nat) : Store :=
  let at' (i : Nat) : Byte × Bool × Bool := l.getD i (0, false, false)
  { bytes := (l.zipIdx.filter fun x => decide (x.1.1 ≠ unlisted)).map fun x => (x.2, x.1.1)
    full := (List.range (l.length / 8)).filter fun w => (at' (8 * w)).2.1
    poison := (List.range (l.length / 32)).filter fun n => (at' (32 * n)).2.2
    parked := parked }

/-- The identity that a physical core keeps. -/
def Core.at (img here : Core) : Core :=
  { img with
    die := here.die, phys := here.phys, lcore := here.lcore, spare := here.spare, cond := here.cond, seq := max here.seq img.seq, skew := here.skew,
    msgs := here.msgs, banks := (here.banks.set 2 (img.bank 2)) }

/-- A wait that the stop abandoned: its bundle issues again (R122, R339). Log 28, DESIGN CHOICE. -/
def RunState.resumed : RunState → RunState
  | .feWait _ _ | .waitm _ _ _ | .raising _ _ | .idle _ | .barwt => .running
  | x => x

/-- A core from its image: memory gives what software may change, the couching engine the rest (R335, R339), and the partition's bindings its
S2ROOT and KEYSEL (R431); watches that were armed report the switch (R191). Log 28, DESIGN CHOICE. -/
def restoreCore (s : State) (part off : Nat) (img here : Core) : Core :=
  let base := s.poolRead part off 0x800
  let watches := img.watches.map fun (w : Watch) => if w.armed then { w with armed := false, reason := 4 } else w
  let c := (img.at here).loadBase base
  let c := c.loadVectors (s.poolRead part (off + 0x800) 0x4C00)
  let c := c.loadAccs (s.poolRead part (off + 0x10000) 0x10000) (wordOf base 210)
  { c with
    s2root := word ((s.part part).s2root.getD 0), keysel := word ((s.part part).key.getD 0)
    spad := storeOf ((List.range 96).flatMap fun i => s.mem.lump (s.poolPa part (off + 0x20000 + 4096 * i)) 4096) img.spad.parked,
    dlreg := wordOf base 4, watches := watches,
    run := img.run.resumed, wins := [] }

/-- The engine image that memory holds is the one that was written (R335). Log 29, DESIGN CHOICE. -/
def imageIntact (s : State) (part off : Nat) : Bool := decide (s.poolRead part (off + 0x5400) 0xAC00 = freeBytes 0xAC00)

/-- Declare a core's windows again, each into its slot with every tile in I (R390). -/
def redeclare : List WinDecl → State → Option State
  | [], s => some s
  | w :: l, s =>
    match imagePages s w.write (pages (w.nt * 2 ^ w.tl / 4096 + 2) w.image.toNat (w.nt * 2 ^ w.tl)) with
    | .error _ => none
    | .ok pas =>
      match homeDeclares s s.core.id w.tl w.nt w.write pas with
      | .error _ => none
      | .ok (s, wid, who) =>
        let w := { w with wid := wid, who := who, tiles := List.replicate w.nt .i }
        redeclare l { s with core := { s.core with wins := s.core.wins ++ [w] } }

/-- Redeclare the windows of every restored core. -/
def redeclareAll (r : Region) : List (Nat × Core) → State → Option State
  | [], s => some s
  | (rank, img) :: l, s =>
    let here := s.core.id
    match redeclare img.wins (s.focus (r.budget.getD rank 0)) with
    | none => none
    | some s => redeclareAll r l (s.focus here)

/-- The counters of the sori that a save area holds come back, or those kept for a region without one (R187, R327, R334). -/
def restoreSori (r : Region) (s : State) : State :=
  let s := r.kept.foldl (fun (s : State) x => s.putSorus x) s
  let s := (if r.dump = 0 then [] else r.sori).foldl (fun (s : State) n =>
    let read (i : Nat) : BitVec 32 := BitVec.ofNat 32 (leNat (s.poolRead r.part (r.dump + 0x100000 + 0x4000 * n + 4 * i) 4))
    let cs := (List.range 4096).filterMap fun i => if read i = 0 then none else some (i, read i)
    s.putSorus { s.sorusOf (n / 16) (n % 16) with tree := some r.root, counters := cs }) s
  r.budget.foldl (fun (s : State) id =>
    let c := s.coreAt id
    let x := s.sorusOf c.die c.sorus
    if x.tree.isNone then s.putSorus { x with tree := some r.root } else s) s

/-- The cores of the region's budget that it held are free for it, with their sori (R187, R339). Log 41, DEDUCED. -/
def coresFree (s : State) (r : Region) : Bool :=
  r.images.all fun x => let c := s.coreAt (r.budget.getD x.1 0); c.region.isNone && sorusFree s c r.root

/-- A core of a scheduled region starts again at a boundary: g4 = n, STEPNO = n - 1 (R329). -/
def restartCore (s : State) (r : Region) (n rank : Nat) (dl : Word) (c : Core) : Core :=
  let c := c.startAt s r r.level (s.asidOf r.asid).ctx r.entry r.arg (word rank)
  { c with g := c.g.set 4 (word n), stepno := word (n - 1), dlreg := dl, frozen := 0 }

/-- Resume from a light record (R329, R330). Log 27, DEDUCED. -/
def resumeLight (r : Region) (s : State) : State :=
  let n := (s.poolWord r.part (r.dump + 16)).toNat % 2 ^ 16
  let start (rank : Nat) (img c : Core) : Core :=
    let dl := if r.dump = 0 then img.dlreg else s.poolWord r.part (r.dump + 32)
    if img.run = .retired then { c.bind s r r.level img.context with run := .retired, dlreg := dl }
    else if r.scheduled then restartCore s r n rank dl c
    else { c.await s r img.context with dlreg := dl }
  r.images.foldl (fun (s : State) x => s.onCore (r.budget.getD x.1 0) (start x.1 x.2)) s

/-- The region can no longer be resumed: its commands are dropped, and its launch completes with RCB_INVALID (R332, R335, R355, R390). Log 27,
DEDUCED. -/
def refuseResume (r : Region) (s : State) : State :=
  let s := (((s.freeArea r.part r.dump).dropCommands r).putRegion { r with dump := 0, resumeDue := false })
  ({ s with tasks := s.tasks.filter fun t => decide (t.region ≠ r.id) } : State).failLaunch r.id 0x148

/-- The schedulers go on with the tasks of a region: one that a wake found, or whose counter is zero, becomes ready, and a ready one waits
from now on (R186, R189, R330). -/
def resumeTasks (id : Nat) (s : State) : State :=
  (s.tasks.filter fun t => decide (t.region = id)).foldl (fun (s : State) t =>
    if t.st = 3 ∧ t.woken then s.wakeParked t
    else if t.st = 4 ∧ (t.waits.any fun n => decide ((s.sorusOf t.die t.sorus).counter n = 0)) then s.wakeTask t
    else if t.st = 1 then s.putTask { t with since := s.clk }
    else s) s

/-- What a resume reads comes in (R218, R339): the record and the sori of the save area, the core images of a forced save, the boundary table and
the tenant's groups. -/
def State.touchResume (s : State) (r : Region) (forced : Bool) : State :=
  let s := s.touchPlan r
  let s := if r.dump = 0 then s
    else
      let s := r.sori.foldl (fun (s : State) n => s.touchPool r.part (r.dump + 0x100000 + 0x4000 * n) 0x4000) (s.touchPool r.part r.dump 40)
      if forced then r.images.foldl (fun (s : State) x => s.touchPool r.part (r.dump + 0x400000 + 0x80000 * x.1) 0x80000) s else s
  if forced || !r.scheduled then s
  else (s.touchEntry r ((s.poolWord r.part (r.dump + 16)).toNat % 2 ^ 16)).touchGroupsAs r.id (s.asidOf r.asid).ctx

/-- Resume a saved region (R339): the plan is checked, the images and the sori are restored, the windows declared again, and the
area is freed; every core then goes on on one clk. Log 28, DESIGN CHOICE. -/
def resumeSaved (r : Region) (forced : Bool) (s : State) : State :=
  let s := s.touchResume r forced
  let boundary := (s.poolWord r.part (r.dump + 16)).toNat % 2 ^ 16
  let back := if forced ∨ !r.scheduled then some (r.restart) else (boundaryEntry s r boundary).map fun a => some (a, 0)
  match back with
  | none => refuseResume r s
  | some restart =>
    if !planOk s r || (forced && !(r.images.all fun x => imageIntact s r.part (r.dump + 0x400000 + 0x80000 * x.1))) then refuseResume r s
    else
      let s1 := restoreSori r s
      let s2 := if forced then
          r.images.foldl (fun (s : State) x =>
            let id := r.budget.getD x.1 0
            s.onCore id (restoreCore s r.part (r.dump + 0x400000 + 0x80000 * x.1) x.2)) s1
        else resumeLight r s1
      let left := if r.dump = 0 ∨ s2.held r ≠ [] then r.left else (s.poolWord r.part (r.dump + 32)).toNat
      let ran := ((s2.held r).filter fun id => r.scheduled && decide ((s2.coreAt id).run ≠ .retired)).foldl numAdd r.usedCores
      let r' := { r.lowered (s.part r.part) with
        usedCores := ran, state := .running, images := [], sori := [], kept := [], dump := 0, restart := restart, left := left,
        boundary := none, resumeDue := false, hold := false }
      match redeclareAll r r.images (s2.putRegion r') with
      | none => refuseResume r s
      | some s3 =>
        let s3 := resumeTasks r.id (s3.freeArea r.part r.dump)
        (s3.held r').foldl (fun (s : State) id => s.visit id fun s =>
          (List.range s.core.recvs.length).foldl (fun (s : State) _ => meetMessage s) s) s3

/-- The partition runs now: sealed, and it holds its cores; behind the end of its slice it waits for the next (R435). -/
def State.partRuns (s : State) (part : Nat) : Bool := let p := s.part part; decide (p.st = .sealed) && p.holds && !p.ending

/-- A resume that is due is carried out once the save is complete, the partition holds its cores and they are free (R435, R436). -/
def resumeRegion (id : Nat) (s : State) : Outcome :=
  match s.region? id with
  | none => stall s
  | some r =>
    match r.state with
    | .saved forced =>
      if !r.resumeDue || !s.partRuns r.part || !coresFree s r || (r.budget.any fun id => s.picked (s.coreAt id)) then stall s else done (resumeSaved r forced s)
    | _ => stall s

end Sys2Proof.Machine
end

