-- ==== Sys2Proof/Machine/Queues.lean ====
section
/-!
DEFINITION. Host work queues (R372 to R376), and external interrupts (R377).
-/

namespace Sys2Proof.Machine

/-! ### Queue control blocks (R372, R373) -/

/-- LOG2N. -/
def WorkQueue.log2n (w : WorkQueue) : Nat := fld w.cfg 48 5
/-- ASID. -/
def WorkQueue.asid (w : WorkQueue) : Nat := fld w.cfg 32 10
/-- MINLVL. -/
def WorkQueue.minlvl (w : WorkQueue) : Nat := fld w.cfg 28 2
/-- VEC. -/
def WorkQueue.vec (w : WorkQueue) : Nat := fld w.cfg 16 10
/-- PART. -/
def WorkQueue.part (w : WorkQueue) : Nat := fld w.cfg 0 6
/-- WQSTAT (R372). -/
def wqstat (s : State) (q : Nat) : Word :=
  let w := s.queue q
  bitAt w.err 63 ||| bitAt (s.active.contains q) 62 ||| word (w.code * 2 ^ 32 + w.head)

/-- What the host reads at an offset of a control block; its reserved bytes read 0 (R372). -/
def readControl (s : State) (q off : Nat) : Word :=
  match off with
  | 0x00 => (s.queue q).base
  | 0x08 => (s.queue q).cfg
  | 0x10 => wqstat s q
  | 0x18 => word (s.queue q).tail
  | _ => 0

/-- Queue and register of an offset in BAR 2, 64 bytes to a queue (R372). -/
def controlPlace (off : Nat) : Option (Nat × Nat) := if off < 2 ^ 22 then some (off / 64, off % 64) else none
/-- Queue and byte of an offset in BAR 4, 4 KiB to a queue (R372). -/
def doorbellPlace (off : Nat) : Option (Nat × Nat) := if off < 2 ^ 28 then some (off / 4096, off % 4096) else none

/-- The host reads a word of a BAR over CXL.io. -/
def State.answerHost (s : State) (w : Word) : State :=
  { s with hostOut := s.hostOut ++ [{ iface := 0, write := false, bytes := leBytes 8 w.toNat, poison := false, error := false }] }

/-! ### Active queues (R376) -/

/-- The launch engine has a place for a queue of this partition. Log 39, DEDUCED. -/
def roomFor' (s : State) (part : Nat) : Bool :=
  let mine := s.active.filter fun q => decide ((s.queue q).part = part)
  let limit := (s.part part).activeq
  decide (s.active.length < 2048) && (decide (limit = 0) || decide (mine.length < limit))

/-- The pending queue that takes the place of a queue of a partition: the oldest of that partition, else the oldest that has room (R376). -/
def State.nextPending (s : State) (part : Nat) : Option Nat :=
  match s.pendingQ.find? fun p => decide ((s.queue p).part = part) with
  | some p => some p
  | none => s.pendingQ.find? fun p => roomFor' s (s.queue p).part

/-- A queue of a partition gives its place up, and a pending queue takes it (R376). -/
def State.freePlace (s : State) (q part : Nat) : State :=
  let s := { s with active := s.active.erase q }
  match s.nextPending part with
  | some p => ({ s with active := s.active ++ [p], pendingQ := s.pendingQ.erase p } : State).idleTimer p
  | none => s

/-- The configuration of a queue changes; one that goes to another partition is on no list of the old one (R373, R376). Log 42, DEDUCED. -/
def State.configure (s : State) (q : Nat) (w : WorkQueue) : State :=
  let old := s.queue q
  let s := s.putQueue q w
  if w.part = old.part then s.lostEntries old.hasEntry q
  else
    let s := { s with pendingQ := s.pendingQ.erase q }
    if s.active.contains q then s.freePlace q old.part else s

/-- WQCFG: the host writes word w at offset n of BAR 2, WQBASE or WQCFG, or with `flag` reads a word there; writes of the other bytes are
discarded (R372, R373). Log 42, DEDUCED. -/
def execWqcfg (s : State) : Outcome :=
  match controlPlace s.args.n with
  | none => done s
  | some (q, off) =>
    let x := s.args.w
    let w := s.queue q
    if s.args.flag then done (s.answerHost (readControl s q off))
    else if off = 0 then (if w.en then done s else done (s.putQueue q { w with base := x &&& 0x1FFFFFFFFFFF001 }))
    else if off = 8 then
      let cfg := x &&& 0x801F03FF33FF003F
      if w.en && cfg.getLsbD 63 then done s
      else done (s.configure q (if cfg.getLsbD 63 then { w with cfg := cfg, err := false, code := 0, head := 0, tail := 0 } else { w with cfg := cfg }))
    else done s

/-- DBTAIL: the host writes offset n of BAR 4, which publishes the entries of a queue up to tail m, or with `flag` reads there, which gives 0;
writes of the other bytes of a page are discarded (R301, R372, R373, R376). -/
def execDbtail (s : State) : Outcome :=
  match doorbellPlace s.args.n with
  | none => done s
  | some (q, off) =>
    let w := s.queue q
    let t := s.args.m % 2 ^ 16
    if s.args.flag then done (s.answerHost 0)
    else if off ≠ 0 then done s
    else if 2 ^ w.log2n < (t + 2 ^ 16 - w.head) % 2 ^ 16 then done (s.queueErr q 0x06)
    else
      let had := w.hasEntry
      let w := { w with tail := t }
      let s := s.putQueue q w
      if s.active.contains q || !w.hasEntry then done (s.lostEntries had q)
      else if roomFor' s w.part then done { s with active := s.active ++ [q], pendingQ := s.pendingQ.erase q }
      else if s.pendingQ.contains q then done s
      else done { s with pendingQ := s.pendingQ ++ [q] }

/-- QUEUE_INACTIVE: queue n has had no entry to read for 10 us, since clk m: it becomes inactive, and a pending queue takes its place (R376). -/
def execQueueInactive (s : State) : Outcome :=
  let q := s.args.n
  let w := s.queue q
  if !s.active.contains q || w.hasEntry || decide (w.idle ≠ s.args.m) then done s
  else done (s.freePlace q w.part)

/-! ### Reading an entry (R374, R375) -/

/-- The queue may be read: its partition is sealed and owns it, and WQCFG is in range (R375). -/
def queueOwned (s : State) (q : Nat) : Bool :=
  let w := s.queue q
  let p := s.part w.part
  decide (p.st = .sealed) && (p.queues.any fun x => decide (x.1 ≤ q ∧ q < x.1 + x.2)) && decide (4 ≤ w.log2n ∧ w.log2n ≤ 12)
    && decide (w.minlvl ≠ 0)

/-- Physical address of a ring place: host memory by I/O address, or a virtual address of the queue's address space (R215, R372). -/
def ringPlace (s : State) (w : WorkQueue) (va : Nat) : Option Nat :=
  if w.base.getLsbD 0 then s.vatPlace w.part w.asid va true false
  else if !s.mem.dark && inHost (0x8000000000000 + va) then some (0x8000000000000 + va) else none

/-- The error of an entry's bits, if any (R374, R375). Log 42, DEDUCED. -/
def entryFault (w : WorkQueue) (e : List Word) : Option Nat :=
  let level := fld (e.getD 1 0) 0 2
  if !onlyBits (e.getD 0 0) 0x1FFFFFFFFFFFF00 || !onlyBits (e.getD 1 0) 0x103 || (List.range 5).any fun i => decide (e.getD (3 + i) 0 ≠ 0) then some 0x01
  else if level < max 1 w.minlvl then some 0x02
  else none

/-- The vat die reads bytes of one page of an address space: the tables that it walks and the bytes come in (R218). -/
def State.touchRead (s : State) (part asid va n : Nat) : State :=
  let s := s.touchVat part asid va
  match s.vatPlace part asid va true false with
  | some pa => s.forSpace part asid fun s => s.touchRange pa n
  | none => s

/-- The words of a region control block of an address space, when all can be read. Log 42, DEDUCED. -/
def blockWords (s : State) (part asid va : Nat) : Option (List Word) :=
  match s.vatPlace part asid va true false with
  | some pa => if s.mem.anyPoison pa 256 then none else some ((List.range 32).map fun i => s.mem.word (pa + 8 * i))
  | none => none

/-- Launch the block of an entry (R375). -/
def launchEntry (s : State) (q : Nat) (w : WorkQueue) (e : List Word) : State :=
  let block := fld (e.getD 0 0) 0 57
  let s := s.touchRead w.part w.asid block 256
  match blockWords s w.part w.asid block with
  | none => s.queueErr q 0x04
  | some ws =>
    s.takeBlock ws block w.asid w.part (BitVec.ofNat 2 (fld (e.getD 1 0) 0 2)) none (some (q, e.getD 2 0, (e.getD 1 0).getLsbD 8, w.vec))

/-- WQ_ENTRY_LAUNCH: the launch engine reads the next entry of active queue n, whose turn it is in the round robin, and launches its
block (R375, R376). While the partition stops nothing is read (R437). -/
def execWqEntryLaunch (s : State) : Outcome :=
  let q := s.args.n
  let w := s.queue q
  if s.active.find? (fun x => (s.queue x).hasEntry && decide ((s.part (s.queue x).part).st ≠ .stopping)) ≠ some q then stall s
  else
    let s := { s with active := s.active.erase q ++ [q] }
    let va := fld w.base 12 45 * 4096 + 64 * (w.head % 2 ^ w.log2n)
    if !queueOwned s q then done (s.queueErr q 0x05)
    else
      let s := if w.base.getLsbD 0 then s.touchRead w.part w.asid va 64 else s
      match ringPlace s w va with
      | none => done (s.queueErr q 0x03)
      | some pa =>
        if s.mem.anyPoison pa 64 then done (s.queueErr q 0x03)
        else
          let e := (List.range 8).map fun i => s.mem.word (pa + 8 * i)
          match entryFault w e with
          | some code => done (s.queueErr q code)
          | none =>
            let w := { w with head := (w.head + 1) % 2 ^ 16 }
            done ((launchEntry (s.putQueue q w) q w e).idleTimer q)

/-! ### External interrupts (R377) -/

/-- Sources that are ever delivered (R377). -/
def isSource (n : Nat) : Bool := decide (n < 0x460) || decide (0x460 ≤ n ∧ n < 0x468) || decide (n = 0x470 ∨ n = 0x471)

/-- INT_EXT: source n raises its interrupt: the vat die routes it to the core and level of its entry, or discards it (R316, R377). Log 13, DEDUCED. -/
def execIntExt (s : State) : Outcome :=
  let n := s.args.n
  let e := ((assocGet s.routes n).map (·.1)).getD 0
  let level := fld e 10 2
  if !isSource n || !e.getLsbD 63 || decide (level = 3) then done s
  else
    let t : Trap :=
      { code := 0x01C, tval := word n, level := some (BitVec.ofNat 2 level),
        tinfo := tinfoImage 0 false true 3 (if s.inPod then s.pkg else 0) 0 0x7F }
    done (s.onCore (s.byNumber (fld e 0 10)) fun (c : Core) => c.interrupt t)

end Sys2Proof.Machine
end

