-- ==== Sys2Proof/Machine/Tiles.lean ====
section
/-!
DEFINITION. Device memory behind the caches: fills, write-backs, versions and key rotation (R218, R230 to R232), page migration (R229,
R439), token buckets (R233, R234) and uncorrectable errors (R344, R347).
-/

namespace Sys2Proof.Machine

/-! ### Fills and write-backs (R218, R231, R232) -/

/-- TILE_FILL: tile n of device memory is brought into the last-level cache, on behalf of the current core; a fill whose stored tile
has an error that the tag check finds fails, which `flag` says (R218, R232). Log 9, DEDUCED. -/
def execTileFill (s : State) : Outcome :=
  let n := s.args.n
  if !inDevice (n * 4096) then done s
  else if (s.tileOf n).inCache then done s
  else
    let s := if s.args.flag then s.putTile n { s.tileOf n with broken := true } else s
    done (s.touchPieces [{ off := 0, at' := n * 4096, len := 4096 }]).1

/-- A tenant's key slot. -/
def State.keyOf (s : State) (k : Nat) : Key := (assocGet s.keys k).getD {}

/-- Tiles of a key slot that are pinned (R231). Log 61, DEDUCED. -/
def State.pinned (s : State) (k : Nat) : List Nat :=
  (s.tiles.filter fun x => x.2.pinned && decide (x.2.keyid = k)).map (·.1)

/-- The partition whose key slot this is. -/
def State.tenant (s : State) (k : Nat) : Option Nat :=
  (List.range 64).find? fun p => decide ((s.part p).key = some k ∧ (s.part p).st ≠ .free)

/-- A version is exhausted: the tile stays dirty and pinned, the hypervisor gets a record, and a tenant with more than 64 pinned tiles
has its partition halted (R231). Log 12, DEDUCED. Log 61, DEDUCED. -/
def exhausted (n : Nat) (t : Tile) (s : State) : State :=
  let s := s.putTile n { t with pinned := true }
  match s.tenant t.keyid with
  | none => s
  | some p =>
    let s := if t.pinned then s
      else s.recordHv { code := 0x088, tinfo := tinfoImage 0 false false 2 (if s.inPod then s.pkg else 0) 0 0x7F } 0 p
    if 64 < (s.pinned t.keyid).length then s.haltPartition p 0x088 else s

/-- A tile as an encryption leaves it in DRAM: under the key that travels with it, with a new tag; what a failed fill has installed is written
with it (R230, R232). -/
def Tile.encrypted (t : Tile) (tag : BitVec 96) : Tile :=
  { t with under := some t.keyid, tag := tag, stored := none, broken := false }

/-- A tile that has been written back: clean, and out of the cache where it was evicted. -/
def Tile.written (t : Tile) (evict : Bool) : Tile := { t with dirty := false, inCache := t.inCache && !evict }

/-- A clean tile is evicted: DRAM still holds the bits that a failed fill did not install (R218, R232). -/
def State.evictClean (s : State) (n : Nat) (t : Tile) : State :=
  match t.stored with
  | some b => { s.putTile n ({ t with stored := none }.written true) with mem := s.mem.setTileBits n b }
  | none => s.putTile n (t.written true)

/-- Words of the tile are still being written. -/
def State.tileInFlight (s : State) (n : Nat) : Bool := s.flights.any fun f => !f.sp && f.words.any fun w => decide (w.no / 512 = n)

/-- TILE_WRITEBACK: tile n leaves the last-level cache (`flag`) or is only cleaned. A clean tile needs no write. A dirty one is encrypted under
a new version; one that would wrap moves to the tenant's other epoch, which starts a rotation, or is exhausted (R218, R230, R231). Log 8,
DEDUCED. Log 9, DEDUCED. Log 61, DEDUCED. -/
def execTileWriteback (s : State) : Outcome :=
  let n := s.args.n
  let t := s.tileOf n
  let k := s.keyOf t.keyid
  let put (t : Tile) (s : State) : Outcome :=
    done ({ s with free := s.free + 1 }.putTile n ((t.encrypted (Config.tag s.free)).written s.args.flag))
  if !inDevice (n * 4096) then done s
  else if !t.inCache then done s
  else if s.tileInFlight n then stall s
  else if !t.dirty then (if s.args.flag then done (s.evictClean n t) else done s)
  else if t.version + 1 < 2 ^ 32 then put { t with version := t.version + 1 } s
  else if k.rot && t.epoch then done (exhausted n t s)
  else put { t with version := 0, epoch := true } { s with keys := assocPut s.keys t.keyid { k with rot := true } }

/-- KEY_ROTATION_END for key slot n: the sweep has encrypted every tile of the old epoch afresh, EPOCH flips and ROT clears; the pinned tiles
are then written back under the next rotation (R231). -/
def execKeyRotationEnd (s : State) : Outcome :=
  let n := s.args.n
  let k := s.keyOf n
  if !k.rot then done s
  else
    let again := !(s.pinned n).isEmpty
    let swept (i : Nat) (t : Tile) : Tile :=
      let tag := Config.tag (s.free + i)
      if t.keyid ≠ n then t
      else if t.pinned then { t with version := 0, epoch := true, pinned := false, dirty := false }.encrypted tag
      else if t.epoch then { t with epoch := false }
      else if t.under.isSome then { t with tag := tag }
      else t
    done { s with
      keys := assocPut s.keys n { epoch := !k.epoch, rot := again }
      tiles := s.tiles.map fun x => (x.1, swept x.1 x.2)
      free := s.free + 2 ^ 40 }

/-! ### Page migration (R225, R229, R439) -/

/-- A page under a live lease (R225). -/
def State.leased (s : State) (page : Nat) : Bool :=
  s.regions.any fun r => r.leases.any fun l => l.frames.contains page

/-- Move the bytes and the bits of a page of a store (R229). -/
def Store.movePage (m : Store) (src dst : Nat) : Store :=
  let move (k : Nat) (l : List Nat) : List Nat :=
    ((l.filter fun x => decide (x / k = src)).foldl (fun l x => numAdd l (dst * k + x % k)) (l.filter fun x => decide (x / k ≠ dst)))
  { m with
    bytes := putBytes m.bytes (dst * 4096) (m.read (src * 4096) 4096)
    full := move 512 m.full, poison := move 128 m.poison, parked := move 1 m.parked }

/-- An address after a page has moved. -/
def movedAddr (src dst a : Nat) : Nat := if a / 4096 = src then dst * 4096 + a % 4096 else a

/-- Move a page with all that names it (R229, R439): the tables' page now lies at `dst`, and `src` is free. Log 53, DESIGN CHOICE. -/
def State.movePage (s : State) (src dst : Nat) : State :=
  let named := ((s.moved.find? fun x => decide (x.2 = src)).map (·.1)).getD src
  let go := movedAddr src dst
  let free (l : List Nat) : List Nat := l.filter fun f => decide (f ≠ dst)
  let (dev, host) := if inDevice (src * 4096) then (free s.spareDev ++ [src], free s.spareHost) else (free s.spareDev, free s.spareHost ++ [src])
  let tiles := if inDevice (src * 4096) then assocPut s.tiles src { s.tileOf src with dirty := false, inCache := false, pinned := false } else s.tiles
  { s with
    mem := s.mem.movePage src dst
    tiles := if inDevice (dst * 4096) then
        assocPut tiles dst { s.tileOf dst with dirty := true, inCache := true, broken := false, stored := none, keyid := fld s.core.keysel 0 10 }
      else tiles
    moved := if named = dst then assocDel s.moved named else assocPut s.moved named dst
    spareDev := dev, spareHost := host
    awaits := s.awaits.map fun (a : Await) => { a with compl := go a.compl, word29 := go a.word29 }
    asids := s.asids.map fun x => (x.1, { x.2 with ctrs := x.2.ctrs.map fun c => (c.1, go c.2) }) }

/-- The page that a request concerns, and DP of its leaf (R221, R439). -/
def State.migPage (s : State) (m : MigReq) : Option (Nat × Bool) :=
  match s.walk m.part m.asid m.va false false with
  | .ok pa _ _ _ dp => some (pa / 4096, dp)
  | _ => none

/-- Serve one request; those behind it are given (R439). A request that loses or cannot be served leaves the page where it is; a device request
that is served, or finds the page in device memory, wins over host requests behind it. Log 53, DESIGN CHOICE. -/
def serveMigration (m : MigReq) (behind : List MigReq) (s : State) : State :=
  let s := { s with migs := behind }
  match s.migPage m with
  | some (page, dp) =>
    let rival (x : MigReq) : Bool := decide (x.toHost ≠ m.toHost) && (s.migPage x).any fun y => decide (y.1 = page)
    let won (s : State) : State := if m.toHost then s else { s with migs := behind.filter fun x => !rival x }
    if s.leased page || s.mem.dark then s
    else if inHost (page * 4096) = m.toHost then won s
    else if m.toHost && dp && behind.any rival then s
    else
      match (if m.toHost then s.spareHost.head? else s.devicePage m.part) with
      | some dst => (won s).forPart m.part fun s => (s.touchRange (page * 4096) 4096).movePage page dst
      | none => s
  | none => s

/-- Words of the page that a request asks for are still being written (R439). -/
def State.migInFlight (s : State) (m : MigReq) : Bool := (s.migPage m).any fun y => s.tileInFlight y.1

/-- PAGE_MIGRATION. With `flag`, a host fault on page w of address space n of partition m reaches the controller, and with pages in
`list` firmware hands it free pages; otherwise the controller serves the oldest request (R225, R439). -/
def execPageMigration (s : State) : Outcome :=
  let a := s.args
  if a.flag then
    done { s with migs := s.migs ++ [{ asid := a.n, part := a.m, va := a.w.toNat, toHost := true }] }
  else if !a.list.isEmpty then
    done { s with spareDev := s.spareDev ++ a.list.filter fun f => inDevice (f * 4096),
                  spareHost := s.spareHost ++ a.list.filter fun f => inHost (f * 4096) }
  else match s.migs with
    | [] => stall s
    | m :: behind => if s.migInFlight m then stall s else done (serveMigration m behind s)

/-! ### Token buckets (R234) -/

/-- clk in one µs (R367). -/
def clkPerMicro : Nat := 2250

/-- A bucket gains a token: it pays what it owes first (R233, R234). -/
def Bucket.gain (b : Bucket) : Bucket := if b.debt = 0 then { b with tokens := b.tokens + 1 } else { b with debt := b.debt - 1 }

/-- Offer a token to the buckets of a port in turn: the first that may take it does, and goes behind the others (R234). -/
def offerToken (port ctx prio : Nat) (l : List Bucket) : List Bucket :=
  match l.find? fun b => decide (b.port = port ∧ b.ctx ≠ ctx ∧ prio ≤ b.prio ∧ b.rate ≠ 0 ∧ b.tokens < b.ceiling) with
  | some b => l.erase b ++ [b.gain]
  | none => l

/-- TOKEN_ACCRUAL: a token that has accrued to the bucket of context m at port n enters it, or is offered to others when it is full
(R234). -/
def execTokenAccrual (s : State) : Outcome :=
  match s.buckets.find? fun b => decide (b.port = s.args.n ∧ b.ctx = s.args.m) with
  | none => done s
  | some b =>
    if b.credit < clkPerMicro then stall s
    else
      let paid := { b with credit := b.credit - clkPerMicro }
      let put (x : Bucket) : List Bucket := s.buckets.map fun y => if y = b then x else y
      if b.tokens < b.ceiling then done { s with buckets := put paid.gain }
      else done { s with buckets := offerToken b.port b.ctx b.prio (put paid) }

/-! ### Uncorrectable errors (R344, R347) -/

/-- A MEM_UNCORR record (R344, R347, R371). Log 12, DEDUCED. -/
def memRecord (addr kind part : Nat) (tinfo : Word) (s : State) : State :=
  s.recordHv { code := 0x14A, tval := word addr, tval2 := word kind, tinfo := tinfo } 0 part

/-- An error in the data path of an engine: its one command fails, and the engine's record says which unit it is (R309, R347). Log 60, DEDUCED. -/
def datapathError (part : Nat) (info : Word) (kill : State → State) (s : State) : Outcome := done (memRecord 0 1 part info (kill s))

/-- MEM_UNCORR, by m: 0 an error in storage of the sector at physical address n, of partition p; 1 in the sector at n of this core's
scratchpad; 2 and 3 the same in transit, which leaves no record; 4 in the data path of copy command n of this core, 5 of link command n, 6 of
network request n, 7 of the matrix engine as it wrote bank n (R344, R347). Log 60, DEDUCED. -/
def execMemUncorr (s : State) : Outcome :=
  let n := s.args.n
  match s.args.m with
  | 0 => if inDevice n then done (memRecord (n / 32 * 32) 0 s.args.p s.vatInfo (s.poisonAt false n)) else done s
  | 1 => if n < 0x60000 then done (memRecord (n / 32 * 32) 0 s.core.part (s.tinfo s.core.seq) (s.poisonAt true n)) else done s
  | 2 => if inDevice n then done (s.poisonAt false n) else done s
  | 3 => if n < 0x60000 then done (s.poisonAt true n) else done s
  | 4 =>
    match s.core.copies.find? fun (x : CopyCmd) => decide (x.id = n) with
    | some x => datapathError s.core.part (s.tinfo s.core.seq) (doomed 0x0B x) s
    | none => done s
  | 5 =>
    match s.links.find? fun (l : LinkCmd) => decide (l.id = n) with
    | some l => datapathError l.part (s.deckleInfo l.port) (failLink 0x0B l) s
    | none => done s
  | 6 =>
    match s.nets.find? fun (r : NetReq) => decide (r.id = n) with
    | some r => datapathError r.part s.vatInfo (failNet 0x0B r) s
    | none => done s
  | _ =>
    if n < 16 then
      done (memRecord 0 1 s.core.part (s.tinfo s.core.seq)
        { s with core := { s.core with accPois := s.core.accPois ||| BitVec.ofNat 16 (2 ^ n) } })
    else done s

end Sys2Proof.Machine
end

