-- ==== Sys2Proof/Machine/Scans.lean ====
section
/-!
DEFINITION. The scan rotation of each die (R349 to R351, R353), swaps of logical cores (R33, R350), and clock plans (R354, R447,
R449).
-/

namespace Sys2Proof.Machine

/-! ### The rotation (R349, R350) -/

/-- A die's controller. -/
def State.scan (s : State) (die : Nat) : ScanDie := s.scans.toList.getD die {}
/-- Put it back. -/
def State.putScan (s : State) (die : Nat) (d : ScanDie) : State := { s with scans := s.scans.setIfInBounds die d }

/-- Length of a slot and of the wait for a swap, in clk (R349, R350). -/
def slotClk : Nat := 3375000
/-- The wait for a swap. -/
def swapClk : Nat := 1125000

/-- Exposed cores of a die, the one gone longest since its last passed scan first (R349). -/
def exposed (s : State) (die : Nat) : List Nat :=
  let d := s.scan die
  let ok (p : Nat) : Bool := !(s.coreAt (132 * die + p)).spare && !d.retired.contains p
  ((List.range 132).filter fun p => ok p && !d.passed.contains p) ++ d.passed.reverse.filter ok

/-- A spare that carries no work, has not been retired and is not in scan, so that its latest scan has passed (R351). -/
def spares (s : State) (die : Nat) : List Nat :=
  let d := s.scan die
  (List.range 132).filter fun p =>
    (s.coreAt (132 * die + p)).spare && !d.retired.contains p && decide (d.inScan ≠ some p)

/-- Die n asks the tree of a scheduled region at SV or TN that holds the core to stop at boundaries, and wakes cores that IDLE has stopped (R88, R326,
R350). Log 58, DESIGN CHOICE. -/
def askBoundary (die core : Nat) (s : State) : State :=
  match (s.coreAt core).region.bind s.region? with
  | some r => if r.scheduled && decide (2 ≤ r.level.toNat) then
      ((s.tree r.root).filter fun q => q.live && decide (2 ≤ q.level.toNat)).foldl (fun (s : State) q =>
        (s.held q).foldl (fun (s : State) id => s.onCore id Core.wakeIdle) (s.putRegion { q with scanReq := numAdd q.scanReq die })) s
    else s
  | none => s

/-- Die n takes its request back: a stop that was due for it alone is due no longer. -/
def Region.unasked (die : Nat) (r : Region) : Region :=
  let l := numDel r.scanReq die
  { r with scanReq := l, boundary := if l.isEmpty && !r.requested && r.scanReq.contains die then none else r.boundary }

/-- Pick the next core of the slot, refused ones first, and ask for its swap (R349, R350). Log 58, DESIGN CHOICE. -/
def pickCore (die : Nat) (s : State) : State :=
  let d := s.scan die
  match ((d.refused ++ exposed s die).eraseDups).find? fun p => !d.tried.contains p with
  | none => s
  | some p =>
    let s := s.putScan die { d with pick := some (p, s.clk), tried := d.tried ++ [p] }
    let s := s.addTimer { instr := .swapTimeout, args := { n := die, m := s.clk }, at' := s.pktime + swapClk }
    askBoundary die (132 * die + p) s

/-- Withdraw the request of a slot; the core stays in line before those that were not refused, the one refused first at their head (R349,
R350). -/
def withdraw (die : Nat) (s : State) : State :=
  let d := s.scan die
  match d.pick with
  | none => s
  | some (p, _) =>
    let s := s.putScan die { d with pick := none, refused := if d.refused.contains p then d.refused else d.refused ++ [p] }
    { s with regions := s.regions.map (Region.unasked die) }

/-- SCAN_SLOT: a slot of die n begins, and the next one follows 1.5 ms later; a die whose rotation has stopped has none (R349, R351). Log 58, DESIGN CHOICE. -/
def execScanSlot (s : State) : Outcome :=
  let n := s.args.n
  if 8 ≤ n ∨ !s.boot.isUp then done s
  else if (s.scan n).stopped then done s
  else if (s.scan n).inScan.isSome then stall s
  else
    let s := withdraw n s
    let s := s.putScan n { s.scan n with tried := [] }
    done ((pickCore n s).addTimer { instr := .scanSlot, args := { n := n }, at' := s.pktime + slotClk })

/-- SWAP_TIMEOUT for the request that die n made at clk m: it is withdrawn, and the next core is taken for the slot (R350). -/
def execSwapTimeout (s : State) : Outcome :=
  let n := s.args.n
  if (s.scan n).pick.any fun p => decide (p.2 = s.args.m) then done (pickCore n (withdraw n s)) else done s

/-- The drained core may be swapped now: it runs no region, or is idle in one that R350 lets be swapped so; nothing of its last task is under
way. -/
def swapReady (s : State) (c : Core) : Bool :=
  (match c.region.bind s.region? with
    | none => true
    | some r =>
      if r.scheduled then decide (r.level.toNat < 2) && decide (c.run = .retired) else decide (c.run = .free))
    && c.copies.isEmpty && !(s.links.any fun l => decide (l.core = c.id)) && !(s.nets.any fun x => decide (x.core = c.id))
    && !(s.mcasts.any fun m => decide (m.core = c.id ∨ m.src = c.id)) && !(s.flights.any fun f => decide (f.core = c.id ∨ f.src = c.id))
    && !(c.wins.any fun (w : WinDecl) => windowBusy s w.wid)

/-- One physical core takes another's place in every budget (R350). -/
def Region.rebind (r : Region) (old new : Nat) : Region := { r with budget := r.budget.map fun x => if x = old then new else x }

/-- The spare takes the drained core's LCORE, and its place in a region that the core was idle in (R33, R350). Log 58, DESIGN CHOICE. -/
def swapCores (old new : Core) (s : State) : State :=
  let into : Core := match old.region.bind s.region? with
    | some r => { new.bind s r old.level old.context with run := old.run, dlreg := old.dlreg, febudget := 0x100 }
    | none => new
  let into := { into with lcore := old.lcore, spare := false, msgs := old.msgs, recvs := old.recvs }
  let out := { old.unbound with lcore := 0x7F, spare := true, msgs := [], recvs := [] }
  let s := (s.putCore out).putCore into
  { s with regions := s.regions.map fun r => r.rebind old.id new.id }

/-- SWAP: the core that die n has picked is drained, a spare takes its LCORE, and its scan starts (R349, R350). -/
def execSwap (s : State) : Outcome :=
  let n := s.args.n
  let d := s.scan n
  match d.pick, (spares s n).head? with
  | some (p, _), some q =>
    if !swapReady s (s.coreAt (132 * n + p)) then stall s
    else
      let s := s.visit (132 * n + p) dropAll
      let s := swapCores (s.coreAt (132 * n + p)) (s.coreAt (132 * n + q)) s
      done (s.putScan n { d with pick := none, inScan := some p, refused := d.refused.erase p })
  | _, _ => stall s

/-! ### The end of a scan (R349, R351, R353) -/

/-- A passed scan of slot k clears the core for the completion records before it; one whose cores are all cleared is confirmed, unless it used
a die whose rotation has stopped (R351, R353). Log 58, DESIGN CHOICE. -/
def scanPassed (die p k : Nat) (s : State) : State :=
  let id := 132 * die + p
  let clear (a : Await) : Await :=
    if a.cores.contains id && decide (a.epochs.getD die 0 < k) then { a with cleared := numAdd a.cleared id } else a
  let s := { s with awaits := s.awaits.map clear }
  let ready := s.awaits.filter fun a => (a.cores.all fun c => a.cleared.contains c) && !(a.cores.any fun c => (s.scan (c / 132)).stopped)
  ready.foldl (fun (s : State) a => s.addTodo { instr := .verdict, args := { n := a.no } }) s

/-- A failed scan makes the records suspect that the core is not cleared for (R353). Log 12, DEDUCED. -/
def scanFailed (die p : Nat) (s : State) : State :=
  let id := 132 * die + p
  let bad := s.awaits.filter fun a => a.cores.contains id && !a.cleared.contains id
  bad.foldl (fun (s : State) a => s.addTodo { instr := .verdict, args := { n := a.no, flag := true } }) s

/-- A failed core is retired for good, with a record; a die without a spare stops its rotation, which firmware reports (R351). -/
def retire (die p k : Nat) (s : State) : State :=
  let d := s.scan die
  let s := s.putScan die { d with retired := numAdd d.retired p, passed := d.passed.erase p, refused := d.refused.erase p }
  let t : Trap := { code := 0x14B, tval := word (die * 256 + p), tval2 := word (k % 2 ^ 32), tinfo := s.vatInfo }
  let s := match (s.coreAt (132 * die + p)).ranFor with
    | some part => s.recordHv t 0 part
    | none => s
  let s := scanFailed die p s
  if (spares s die).isEmpty then
    { s.putScan die { s.scan die with stopped := true } with scanDown := s.scanDown ++ [die] }
  else s

/-- SCAN_END at die n: the scan of the slot's core ends, failed when `flag` is set, and SSEQ rises; or, with a physical core in `list`, the scan
of a spare between slots (R349, R351, R353). -/
def execScanEnd (s : State) : Outcome :=
  let n := s.args.n
  let d := s.scan n
  let pass (p : Nat) (s : State) : State :=
    scanPassed n p d.sseq (s.putScan n { s.scan n with passed := p :: (s.scan n).passed.erase p })
  let result (p : Nat) (s : State) : State := if s.args.flag then retire n p d.sseq s else pass p s
  if 8 ≤ n then done s
  else match s.args.list, d.inScan with
    | p :: _, _ => if (spares s n).contains p then done (result p s) else done s
    | [], some p => done (result p (s.putScan n { d with inScan := none, sseq := d.sseq + 1 }))
    | [], none => stall s

/-! ### Clock plans (R354, R447, R449) -/

/-- Plan p may be installed (R354, R447): no scheduled region of the package is launched, running or pre-empted, the clock is not lowered while a
region runs, and the power limit is met. -/
def planFree (s : State) (p : BitVec 16) : Bool :=
  !(s.regions.any fun r => r.scheduled && decide (r.state ≠ .complete))
    && (!(s.regions.any Region.live) || decide (Config.planRate s.plan.toNat ≤ Config.planRate p.toNat))
    && s.limit.all fun w => decide (Config.planPower p.toNat ≤ w)

/-- A change of package state that a management request made raises source 0x470 (R448). -/
def State.managed (s : State) : State := s.addTodo { instr := .intExt, args := { n := 0x470 } }

/-- CLOCK_PLAN_INSTALL: firmware wants plan n, or with n = 0 goes on with the plan that waits; it is installed only where R354 and R447 allow it.
A power limit has then taken effect, and raises its interrupt (R448). -/
def execClockPlanInstall (s : State) : Outcome :=
  let want := if s.args.n = 0 then s.planDue else some (BitVec.ofNat 16 s.args.n)
  if 2 ^ 16 ≤ s.args.n ∨ !s.boot.isUp then done s
  else match want with
    | none => stall s
    | some p =>
      if planFree s p then
        let t : State := { s with plan := p, planDue := none, planAsk := false, limitDue := false }
        done (if s.limitDue then t.managed else t)
      else if s.args.n = 0 then stall s
      else done { s with planDue := some p }

/-- AGEING_REPORT: the monitor of die n reports a margin, between the jobs that run on the die; below 10 mV firmware is asked for a new clock plan
(R449). Log 59, DESIGN CHOICE. -/
def execAgeingReport (s : State) : Outcome :=
  if 8 ≤ s.args.n then done s
  else if s.allCores.any fun c => decide (c.die = s.args.n) && c.region.isSome then stall s
  else done { s with margins := s.margins.setIfInBounds s.args.n s.args.margin, planAsk := s.planAsk || decide (s.args.margin < 10) }

end Sys2Proof.Machine
end

