-- ==== Sys2Proof/Machine/HostSide.lean ====
section
/-!
DEFINITION. The package as the host and its management controller see it: host accesses and snoops (R369, R370), trusted interfaces
(R370, R371), loss of the host link (R371), the SPDM responder (R438), firmware update, resets and management (R444 to R449).
-/

namespace Sys2Proof.Machine

/-! ### Host accesses (R369 to R371) -/

/-- A trusted device interface. -/
def State.iface (s : State) (n : Nat) : Iface := (assocGet s.ifaces n).getD {}
/-- Put it back. -/
def State.putIface (s : State) (n : Nat) (i : Iface) : State := { s with ifaces := assocPut s.ifaces n i }

/-- The entry that a range of n bytes lies within (R370): start, end, read, write, KEYID. Log 55, DEDUCED. -/
def Iface.entry (i : Iface) (a n : Nat) : Option (Nat × Nat × Bool × Bool × Nat) :=
  i.table.find? fun e => decide (e.1 ≤ a ∧ a + n ≤ e.2.1)

/-- Bring tiles in under a key slot of the host's table (R230, R370). -/
def State.fillFor (s : State) (key a n : Nat) : State :=
  let kept := s.core
  let s := { s with core := { s.core with keysel := word key, part := (s.tenant key).getD s.core.part } }
  let s := (s.touchPieces ((pages (n / 4096 + 2) a n).map fun x => { off := 0, at' := x.1, len := x.2 })).1
  { s with core := { s.core with keysel := kept.keysel, part := kept.part } }

/-- Bytes that the host writes: full/empty bits stand, no wake is posted, watches see them, and no partition's report names the page
(R190, R345, R370, R437). -/
def State.hostWrite (s : State) (a : Nat) (bs : List Byte) : State :=
  let s := ({ s with mem := s.mem.write a bs } : State).mapCores (Core.seeGlobal (wordNo a) (wordNo (a + bs.length - 1)))
  (pages (bs.length / 4096 + 2) a bs.length).foldl
    (fun (s : State) x => if inDevice x.1 then s.putTile (x.1 / 4096) { s.tileOf (x.1 / 4096) with dirty := true } else s) s

/-- HOST_MEM_ACCESS: a host access over CXL.mem is checked against the access table of its interface, and served or answered with an
error (R370). Log 55, DEDUCED. -/
def execHostMemAccess (s : State) : Outcome :=
  match s.args.host with
  | none => done s
  | some h =>
    if s.mem.dark ∨ !s.boot.isUp then done s
    else
      let i := s.iface h.iface
      let n := if h.write then h.bytes.length else h.size
      let refuse : Outcome :=
        done { s with hostOut := s.hostOut ++ [{ iface := h.iface, write := h.write, bytes := [], poison := !h.write, error := true }] }
      match (if i.st = .run then i.entry h.addr n else none) with
      | none => refuse
      | some (_, _, r, w, key) =>
        if (h.write && !w) || (!h.write && !r) then refuse
        else
          let s := s.fillFor key h.addr n
          let (s, bytes, poison) := if h.write then (s.hostWrite h.addr h.bytes, [], false)
            else (s, s.mem.read h.addr n, s.mem.anyPoison h.addr n)
          done { s with hostOut := s.hostOut ++ [{ iface := h.iface, write := h.write, bytes := bytes, poison := poison, error := false }] }

/-- HOST_SNOOP: the host snoops the line of its memory at physical address n, or writes bytes there; every device copy is
invalidated first (R369). -/
def execHostSnoop (s : State) : Outcome :=
  let n := s.args.n
  if !inHost n then done s
  else if s.mem.dark then done s
  else
    let last := (n + s.args.bytes.length - 1) / 64
    let s := { s with hostDirty := s.hostDirty.filter fun x => !(decide (n / 64 ≤ x.1) && decide (x.1 ≤ max (n / 64) last)) }
    done (if s.args.bytes.isEmpty then s else s.hostWrite n s.args.bytes)

/-- Legal moves of an interface (R370, R371): LOCK, START, STOP and the failure of its sandbox. Log 56, PRESUMED. -/
def tdispMove (from' to' : TdispState) : Bool :=
  match from', to' with
  | .configUnlocked, .configLocked => true
  | .configLocked, .run => true
  | _, .configUnlocked => true
  | _, .error => true
  | _, _ => false

/-- Entries of an access table from numbers in groups of five: start, end, read, write, KEYID. Log 56, PRESUMED. -/
def tableOf : List Nat → List (Nat × Nat × Bool × Bool × Nat)
  | a :: b :: r :: w :: k :: rest => (a, b, decide (r ≠ 0), decide (w ≠ 0), k) :: tableOf rest
  | _ => []

/-- TDISP_MESSAGE for interface n: a move to the state `tdisp`; or, with `flag`, firmware writes the interface's table, which it does
only while the interface is CONFIG_UNLOCKED (R370, R371). Log 56, PRESUMED. -/
def execTdispMessage (s : State) : Outcome :=
  let n := s.args.n
  let i := s.iface n
  if !s.boot.isUp then done s
  else if s.args.flag then
    let t := tableOf s.args.list
    if i.st = .configUnlocked ∧ t.length ≤ 16 ∧ t.all (fun e => decide (e.1 < e.2.1) && inDevice e.1 && inDevice (e.2.1 - 1)) then
      done (s.putIface n { i with table := t })
    else done s
  else if tdispMove i.st s.args.tdisp then done (s.putIface n { i with st := s.args.tdisp })
  else done s

/-- What host memory holds at a dirty line that was lost: the host's own bytes, which the package does not know. Log 54, DEDUCED. -/
def State.loseLine (s : State) (line part : Nat) : State :=
  let bytes := (List.range 64).map fun i => Config.hostByte (s.clk + i) (64 * line + i)
  memRecord (64 * line) 2 part s.vatInfo { s with mem := { s.mem with bytes := putBytes s.mem.bytes (64 * line) bytes } }

/-- HOST_LINK_DOWN: the host die resets or its link fails: host memory does not answer, dirty lines are lost with a record each, and
source 0x471 raises INT_EXT (R371, R377). With `flag` the link has been trained again (R444). Log 54, DEDUCED. -/
def execHostLinkDown (s : State) : Outcome :=
  if s.args.flag then done { s with mem := { s.mem with dark := false } }
  else if s.mem.dark then done s
  else
    let lost := s.hostDirty
    let s : State := { s with mem := { s.mem with dark := true }, hostDirty := [] }
    done ((lost.foldl (fun (s : State) x => s.loseLine x.1 x.2) s).addTodo { instr := .intExt, args := { n := 0x471 } })

/-! ### The SPDM responder (R438) -/

/-- The responder's answer, and its state after it; before the firmware has booted nothing answers (R444, R445). Log 57, PRESUMED. -/
def spdmAnswer (f : Spdm → Spdm × SpdmReply) (s : State) : Outcome :=
  if !s.boot.isUp then done s
  else
    let (d, a) := f s.spdm
    done { s with spdm := d, spdmOut := s.spdmOut ++ [a] }

/-- A request that is in order only once algorithms have been negotiated. Log 57, PRESUMED. -/
def negotiated (f : Spdm → Spdm × SpdmReply) (d : Spdm) : Spdm × SpdmReply := if d.algorithms then f d else (d, .error)

/-- The signature of the responder over what it signs: SHA-512, then Ed25519. -/
def spdmSign (l : List Nat) : Nat := Config.sign (sha512 (l.flatMap fun n => leBytes 64 n))

/-- GET_VERSION: SPDM 1.3; the request starts a connection afresh. -/
def execGetVersion (s : State) : Outcome :=
  spdmAnswer (fun d => ({ nextSession := d.nextSession, version := true }, .version 0x13)) s
/-- GET_CAPABILITIES. -/
def execGetCapabilities (s : State) : Outcome :=
  spdmAnswer (fun d => if d.version then ({ d with capabilities := true }, .capabilities) else (d, .error)) s
/-- NEGOTIATE_ALGORITHMS: the one signature algorithm, Ed25519, and the one hash, SHA-512; `flag` says that the requester offers both. -/
def execNegotiateAlgorithms (s : State) : Outcome :=
  spdmAnswer (fun d => if d.capabilities && s.args.flag then ({ d with algorithms := true }, .algorithms 25519 512) else (d, .error)) s
/-- GET_DIGESTS: the digest of the certificate chain of slot 0. -/
def execGetDigests (s : State) : Outcome :=
  spdmAnswer (negotiated fun d => (d, .digests [sha512 (leBytes 4096 (Config.certificate 0))])) s
/-- GET_CERTIFICATE of slot n. -/
def execGetCertificate (s : State) : Outcome :=
  spdmAnswer (negotiated fun d => if s.args.n = 0 then (d, .certificate 0 (Config.certificate 0)) else (d, .error)) s
/-- CHALLENGE with nonce w. -/
def execChallenge (s : State) : Outcome :=
  spdmAnswer (negotiated fun d => (d, .challengeAuth s.args.w (spdmSign [s.args.w.toNat, sha512 (leBytes 4096 (Config.certificate 0))]))) s

/-- The measurement blocks (R438): the firmware digest, the clock plan, FEAT0 and FEATACK0, and each sealed partition's digest followed by its
64-bit count of second-stage raises. Log 57, PRESUMED. -/
def measurements (s : State) : List (Nat × Nat) :=
  let sealed := (List.range 64).filter fun n => let p := s.part n; decide (p.st = .sealed ∨ p.st = .stopping ∨ p.st = .stopped)
  [(1, s.boot.digest), (2, s.plan.toNat), (3, s.feat0.toNat + 2 ^ 64 * s.featack.toNat)]
    ++ sealed.map fun n => (16 + n, (s.part n).measure + 2 ^ 512 * (s.part n).s2raises)

/-- GET_MEASUREMENTS of block n, or of every block with n = 0xFF, signed. Log 57, PRESUMED. -/
def execGetMeasurements (s : State) : Outcome :=
  spdmAnswer (negotiated fun d =>
    let blocks := (measurements s).filter fun b => decide (s.args.n = 0xFF ∨ b.1 = s.args.n)
    if blocks.isEmpty then (d, .error)
    else (d, .measurements blocks (spdmSign (s.args.w.toNat :: blocks.flatMap fun b => [b.1, b.2])))) s

/-- KEY_EXCHANGE: a session is opened. -/
def execKeyExchange (s : State) : Outcome :=
  spdmAnswer (negotiated fun d =>
    ({ d with sessions := d.sessions ++ [(d.nextSession, false)], nextSession := d.nextSession + 1 },
     .keyExchange d.nextSession (spdmSign [s.args.w.toNat, d.nextSession]))) s

/-- FINISH of session n. -/
def execFinish (s : State) : Outcome :=
  spdmAnswer (negotiated fun d =>
    if d.sessions.contains (s.args.n, false) then
      ({ d with sessions := d.sessions.map fun x => if x.1 = s.args.n then (x.1, true) else x }, .finish s.args.n)
    else (d, .error)) s

/-! ### Boot, reset, management (R444 to R449) -/

/-- The image that boots: the inactive bank's when one has been written; what the boot ROM finds of its signature and its security version
(R444, R445). Log 59, DESIGN CHOICE. -/
def Boot.next (b : Boot) (cause : ResetCause) : Boot :=
  match b.inactive with
  | none => { b with cause := cause, resets := b.resets + 1 }
  | some (image, version, good) =>
    if good ∧ b.fuse ≤ version then
      { isUp := true, digest := sha512 image, version := version, fuse := max b.fuse version, cause := cause, resets := b.resets + 1 }
    else { b with isUp := false, inactive := none, cause := cause, resets := b.resets + 1 }

/-- Reset and bring-up (R444): everything is as after reset but what lies outside the package or in its fuses and flash: host memory, the booted
image, cores retired for good with the logical numbers in force, the clock plan, and messages already sent or on their way. Where the firmware fails
its check the package stays in step 1: memory is not cleared, no plan is installed, no slot of a scan comes and the host link stays down (R445). Log
59, DESIGN CHOICE. -/
def State.bringUp (s : State) (cause : ResetCause) : State :=
  let r := State.reset
  let keep (c : Core) : Option (Nat × Core) :=
    if c.cond || (s.scan c.die).retired.isEmpty then none
    else some (c.id, { Core.atReset c.id with lcore := c.lcore, spare := c.spare })
  let cores : List (Nat × Core) := s.allCores.filterMap keep
  let base : State := cores.foldl (fun (b : State) (x : Nat × Core) => b.putCore x.2) r
  let boot := s.boot.next cause
  { base with
    mem := if boot.isUp then { bytes := s.mem.bytes.filter fun x => inHost x.1 } else { s.mem with dark := true }
    scans := s.scans.map fun d => { retired := d.retired }
    boot := boot
    timers := if boot.isUp then base.timers else []
    plan := if boot.isUp then s.planDue.getD s.plan else s.plan
    planDue := if boot.isUp then none else s.planDue
    feat0 := s.feat0, free := s.free, margins := s.margins, inbox := s.inbox, fabOut := s.fabOut, ackOut := s.ackOut
    netOut := s.netOut, sackOut := s.sackOut, msix := s.msix, hostOut := s.hostOut, spdmOut := s.spdmOut, mgmtOut := s.mgmtOut
    spareHost := s.spareHost, timeOut := s.timeOut }

/-- PACKAGE RESET: a firmware update that it boots has taken effect, and raises source 0x470 (R444, R445, R448). -/
def State.packageReset (s : State) (cause : ResetCause) : State :=
  let t := s.bringUp cause
  if s.boot.inactive.isSome && t.boot.isUp then t.managed else t

/-- PACKAGE_RESET with its cause (R444, R449). -/
def execPackageReset (s : State) : Outcome := done (s.packageReset s.args.cause)

/-- THERMAL_TRIP of die n: the package enters reset at once; no completion record is written (R447). -/
def execThermalTrip (s : State) : Outcome := done (s.packageReset .thermalTrip)

/-- FIRMWARE_UPDATE: an image (bytes, security version n, whether its signature checks) goes into the inactive flash bank, in every state
of the package; it takes effect at the next package reset (R445, R448). Log 59, DESIGN CHOICE. -/
def execFirmwareUpdate (s : State) : Outcome :=
  done { s with boot := { s.boot with inactive := some (s.args.bytes, s.args.n, s.args.flag) } }

/-- What sensor i shows, averaged over or taken in the ms that is over (R367, R449). Log 59, DESIGN CHOICE. -/
def State.sensor (s : State) (i : Nat) : Nat := Config.sensor s.boot.resets (s.pktime / 2250000) i

/-- The records that the controller can read (R449): power of the 18 dies of R1 and of the package, and the temperature of each die; what a sensor
shows is not the package's state. Log 59, DESIGN CHOICE. -/
def telemetry (s : State) (n : Nat) : Option MgmtReply :=
  match n with
  | 0 => some (.identity s.boot.digest s.boot.version)
  | 1 => some (.status s.boot.isUp)
  | 2 => some (.power ((List.range 19).map s.sensor))
  | 3 => some (.temperature ((List.range 18).map fun i => s.sensor (32 + i)))
  | 4 => some (.ageing s.margins.toList)
  | 5 => some (.scan ((List.range 8).map fun d => ((s.scan d).sseq % 2 ^ 32, (spares s d).length, (s.scan d).stopped)))
  | 6 => some (.resetCause s.boot.cause)
  | _ => none

/-- MANAGEMENT_REQUEST: n below 7 reads a record; 7 sets a power limit of m W, which firmware meets with a clock plan; 8 asks for a package
reset. Before the firmware has booted only identity and status are answered (R445, R447 to R449). -/
def execManagementRequest (s : State) : Outcome :=
  let n := s.args.n
  if !s.boot.isUp ∧ 2 ≤ n then done s
  else if n = 7 then done { s with limit := some s.args.m, limitDue := true, planAsk := true }
  else if n = 8 then done (s.packageReset .management).managed
  else match telemetry s n with
    | some a => done { s with mgmtOut := s.mgmtOut ++ [a] }
    | none => done s

end Sys2Proof.Machine
end

