-- ==== Sys2Proof/Machine/Inject.lean ====
section
/-!
DEFINITION. XINJ, fault injection: its five kinds (R94, R95), and the delivery of each cause (R323).
-/

namespace Sys2Proof.Machine

/-- How a cause is delivered (the delivery column of R323). -/
inductive Delivery where
  /-- precise, imprecise, or as displaced -/
  | entry
  | interrupt
  /-- a fault record, in the hypervisor's ring or in the supervisor's -/
  | record (hv : Bool)
  | recordAndEntry
  | halt
  /-- imprecise, or a halt in a scheduled region -/
  | haltOrEntry
  | completion
deriving DecidableEq, Repr

/-- The delivery of a code that some unit raises; none for a code that is never raised (R322, R323). -/
def delivery (code : Nat) : Option Delivery :=
  if 0x001 ≤ code ∧ code ≤ 0x01B then some .entry
  else if code = 0x01C ∨ code = 0x01D then some .interrupt
  else if 0x01E ≤ code ∧ code ≤ 0x020 then some .halt
  else if 0x041 ≤ code ∧ code ≤ 0x047 then some .entry
  else if 0x081 ≤ code ∧ code ≤ 0x085 then some .entry
  else if code = 0x086 then some .haltOrEntry
  else if code = 0x087 then some (.record false)
  else if code = 0x088 then some (.record true)
  else if code = 0x089 then some .entry
  else if code = 0x0C1 then some .recordAndEntry
  else if code = 0x0C2 ∨ code = 0x0C3 then some .entry
  else if code = 0x0C4 ∨ code = 0x0C5 then some (.record true)
  else if 0x101 ≤ code ∧ code ≤ 0x103 then some .entry
  else if code = 0x104 then some (.record false)
  else if 0x141 ≤ code ∧ code ≤ 0x144 then some .entry
  else if code = 0x145 ∨ code = 0x147 ∨ code = 0x14A ∨ code = 0x14B then some (.record true)
  else if code = 0x146 ∨ code = 0x148 then some .completion
  else if code = 0x149 then some (.record false)
  else if code = 0x14C then some .halt
  else none

/-- Bits of g[A] that a kind allows: the kind, and the space bit for kind 2 (R94). -/
def xinjBits (kind : Nat) : Word := if kind = 2 then 0x10F else 0xF

/-- What every kind does first: the partition must allow injection, and g[A] must name this kind and no reserved bit (R94). -/
def xinj (kind : Nat) (a b : GReg) (s : State) (k : Word → Word → State → Outcome) : Outcome :=
  if !(s.part s.core.part).inj then trap 0x003 0 0 s
  else getG a s fun x s => getG b s fun y s =>
    if fld x 0 4 = kind ∧ onlyBits x (xinjBits kind) then k x y s
    else trap 0x00E x y s

/-- XINJ_INVALID, with g[A] rebuilt from the kind and the space bit. -/
def xinjBad (kind : Nat) (space : Bool) (y : Word) (s : State) : Outcome := trap 0x00E (word kind ||| bitAt space 8) y s

/-- XINJ kind 0, ACC_FLIP: waits until no engine holds the bank, then inverts one bit (R94, R95, R249). -/
def execAccFlip (a b : GReg) (s : State) : Outcome :=
  xinj 0 a b s fun _ y s =>
    let bank := fld y 0 4
    if !onlyBits y 0x7FFFF ∨ s.accCount ≤ bank then xinjBad 0 false y s
    else
      let r := BitVec.ofNat 4 bank
      if namesBank s.core.meq r || namesBank s.core.veq.flatten r then stall s
      else
        let bit := 32 * fld y 4 10 + fld y 14 5
        done { s with core := s.core.setAcc r (s.core.accOf r ^^^ BitVec.ofNat 32768 (2 ^ bit)) }

/-- XINJ kind 1, SPAD_FLIP: waits for the granule, then inverts one bit past the error correction (R94, R95, R247). -/
def execSpadFlip (a b : GReg) (s : State) : Outcome :=
  xinj 1 a b s fun _ y s =>
    let at' := fld y 0 19
    if !onlyBits y 0x3FFFFF ∨ s.spadSize ≤ at' then xinjBad 1 false y s
    else if s.core.granuleBusy [{ off := 0, at' := at', len := 1 }] then stall s
    else
      let m := s.core.spad
      let v := cellGet m.bytes at' ^^^ BitVec.ofNat 8 (2 ^ fld y 19 3)
      done { s with core := { s.core with spad := { m with bytes := cellPut m.bytes at' v } } }

/-- An injected global address: in range, translated as for a load, in device memory (R95). -/
def xinjGlobal (kind : Nat) (y : Word) (space : Bool) (s : State) (k : Nat → Outcome) : Outcome :=
  if 2 ^ 57 ≤ y.toNat then xinjBad kind space y s
  else match s.translate y.toNat true false false with
    | .error c => trap c y 0 s
    | .ok pa => if inHost pa then trap 0x144 y 0 s else k pa

/-- XINJ kind 2, SECTOR_POISON (R94, R95, R344): g[A][8] names the space. -/
def execSectorPoison (a b : GReg) (s : State) : Outcome :=
  xinj 2 a b s fun x y s =>
    if x.getLsbD 8 then xinjGlobal 2 y true s fun pa => done { s with mem := s.mem.setPoison pa true }
    else if s.spadSize ≤ y.toNat then xinjBad 2 false y s
    else done { s with core := { s.core with spad := s.core.spad.setPoison y.toNat true } }

/-- XINJ kind 3, TAG_BREAK: the tile's next fill from DRAM fails (R94, R95). -/
def execTagBreak (a b : GReg) (s : State) : Outcome :=
  xinj 3 a b s fun _ y s => xinjGlobal 3 y false s fun pa =>
    done (s.putTile (pa / 4096) { s.tileOf (pa / 4096) with inject := true })

/-- The record of an injected cause (R95, R320): TMASK marks the XINJ slot, as TPC names its bundle. Log 15, DEDUCED. -/
def injected (code : Nat) (s : State) : Trap := { s.preciseTrap code 0 0 with tinfo := s.tinfo s.core.seq true }

/-- XINJ kind 4, RAISE: the bundle commits and the cause is delivered as the cause table says (R95). Log 15, DEDUCED. -/
def execRaise (a b : GReg) (s : State) : Outcome :=
  xinj 4 a b s fun _ y s =>
    let code := y.toNat
    let t := injected code s
    let enter (s : State) : State := pendTrap { t with tmask := 0 } s
    let rec' (hv : Bool) (s : State) : State :=
      if hv then s.recordHv t s.core.asid s.core.part else s.recordSv t s.core.asid s.core.part
    match delivery code with
    | none => xinjBad 4 false y s
    | some .entry => done (enter s)
    | some .interrupt => done (pendTrap { t with tmask := 0, prec := false, level := some s.core.level } s)
    | some (.record hv) => done (rec' hv s)
    | some .recordAndEntry => done (enter (rec' true s))
    | some .halt => done (s.haltRegion s.core.region code)
    | some .haltOrEntry => if s.inScheduled then done (s.haltRegion s.core.region code) else done (enter s)
    | some .completion =>
      match s.myRegion with
      | some r => done (s.putRegion (if r.status = 0 then { r with status := code } else r))
      | none => done s

end Sys2Proof.Machine
end

