-- ==== Sys2Proof/Machine/Partitions.lean ====
section
/-!
DEFINITION. Partitions (R427 to R437): PTBIND, PTQUOTA and PTSEAL with their result codes, time slices, RGNCTL, the stop of a tenant,
and the second-stage generation raise (R227).
-/

namespace Sys2Proof.Machine

/-! ### Common to the three instructions (R430, R432) -/

/-- A g operand as it will be read; for g63 the value at the head of its queue. -/
def Core.peek (c : Core) (r : GReg) : Word :=
  if r = 63 then (c.sldq.head?.bind fun (e : DataEntry 64) => e.val).getD 0 else c.gVal r

/-- Write PTRES and commit. -/
def result (n : Nat) (s : State) : Outcome := done { s with core := { s.core with ptres := n } }

/-- The bundle waits until every earlier global access of the core is performed (R430, R436). -/
def whenContextQuiet (s : State) (k : State → Outcome) : Outcome := if contextWaits s then stall s else k s

/-- The head of PTBIND and PTQUOTA: operands, the wait, reserved bits of g[A], FEATACK0 (R430, R432). -/
def partHead (a b : GReg) (s : State) (k : Nat → Nat → Word → State → Outcome) : Outcome :=
  getG a s fun x s => getG b s fun y s => whenContextQuiet s fun s =>
    if !onlyBits x 0x7FF0F3F then result 1 s
    else if !s.featSet then result 4 s
    else k (fld x 0 6) (fld x 16 11) y s

/-! ### PTBIND (R429, R431) -/

/-- A partition that PTBIND may change; a FREE one becomes OPEN (R429, R431). -/
def Partition.bindable (p : Partition) : Bool :=
  match p.st with
  | .free | .opened | .stopped => true
  | _ => false

/-- A binding made: the partition is OPEN unless it is STOPPED. -/
def Partition.touched (p : Partition) : Partition := { p with st := if p.st = .free then .opened else p.st }

/-- PTBIND of one kind: its INDEX must be allowed, its feature acknowledged, its value usable (R428, R431, R432). Log 43, DEDUCED. -/
def bind' (a b : GReg) (index : Nat → Bool) (feature : Word → State → Bool)
    (set : Nat → Nat → Word → Partition → State → Option State) (s : State) : Outcome :=
  partHead a b s fun part i y s =>
    let p := s.part part
    if !index i then result 1 s
    else if !p.bindable then result 2 s
    else if !feature y s then result 4 s
    else match set part i y p.touched s with
      | some s' => result 0 s'
      | none => result 1 s

/-- No INDEX. Log 43, DEDUCED. -/
def noIndex (i : Nat) : Bool := decide (i = 0)
/-- No feature. Log 64, DEDUCED. -/
def noFeature (_ : Word) (_ : State) : Bool := true
/-- A binding that only sets fields of the partition. -/
def setField (ok : Word → Bool) (f : Word → Partition → Partition) (part _i : Nat) (y : Word) (p : Partition) (s : State) : Option State :=
  if ok y then some (s.putPart part (f y p)) else none

/-- Read words of a table of the issuing context (R431). -/
def State.tableWords (s : State) (va n : Nat) : Option (List Word) :=
  if va % 8 ≠ 0 ∨ 2 ^ 57 < va + 8 * n then none
  else match sourceRuns s (pages (8 * n / 4096 + 2) va (8 * n)) with
    | .error _ => none
    | .ok ps => if poisonPieces s.mem ps then none else some (wordsOf (readPieces s.mem ps) 0 n)

/-- A table of the issuing context is read: its tiles come in (R218, R431). -/
def State.touchTable (s : State) (va n : Nat) : State :=
  match sourceRuns s (pages (8 * n / 4096 + 2) va (8 * n)) with
  | .error _ => s
  | .ok ps => (s.touchPieces ps).1

/-- Places of the bits that are set in a mask of words (R361). -/
def coresOf (ws : List Word) : List Nat := (List.range 1024).filter fun n => (ws.getD (n / 64) 0).getLsbD (n % 64)

/-- PTBIND CORES; a KIND that is reserved gives PTRES 1 (R431). -/
def execPtbindCores (a b : GReg) (s : State) : Outcome :=
  if fld (s.core.peek a) 8 4 ≠ 0 then
    partHead a b s fun _ _ _ s => result 1 s
  else bind' a b noIndex noFeature (fun part _ y p s => let s := s.touchTable y.toNat 16; (s.tableWords y.toNat 16).map fun ws =>
    s.putPart part { p with cores := some (coresOf ws) }) s
/-- PTBIND ENGINES (R431). -/
def execPtbindEngines (a b : GReg) (s : State) : Outcome :=
  bind' a b noIndex noFeature (setField (fun y => onlyBits y 0x1F) fun y p => { p with engines := some (y.setWidth 5) }) s
/-- PTBIND MEMPORTS (R431). -/
def execPtbindMemports (a b : GReg) (s : State) : Outcome :=
  bind' a b noIndex noFeature (setField (fun y => onlyBits y 0xFFFF) fun y p => { p with memports := some (y.setWidth 16) }) s
/-- PTBIND QUEUES (R431). -/
def execPtbindQueues (a b : GReg) (s : State) : Outcome :=
  bind' a b noIndex noFeature (setField
    (fun y => onlyBits y 0x1FFFFFFFF && decide (1 ≤ fld y 16 17) && decide (fld y 0 16 + fld y 16 17 ≤ 65536))
    fun y p => { p with queues := some (fld y 0 16, fld y 16 17) }) s
/-- PTBIND S2ROOT (R431). -/
def execPtbindS2root (a b : GReg) (s : State) : Outcome :=
  bind' a b noIndex noFeature (setField (fun y => onlyBits y 0xFFFFFFFFFF000) fun y p => { p with s2root := some y.toNat }) s
/-- PTBIND KEY (R431). -/
def execPtbindKey (a b : GReg) (s : State) : Outcome :=
  bind' a b noIndex noFeature (setField (fun y => onlyBits y 0x3FF) fun y p => { p with key := some y.toNat }) s

/-- PTBIND DUMP: every page of the pool is translated (R431). Log 43, DEDUCED. -/
def execPtbindDump (a b : GReg) (s : State) : Outcome :=
  bind' a b (fun i => decide (1 ≤ i ∧ i ≤ 2047)) noFeature (fun part i y p s =>
    if !onlyBits y 0x1FFFFFFFFFFF000 ∨ 2 ^ 57 < y.toNat + i * 2 ^ 20 then none
    else
      let frames := (List.range (256 * i)).map fun k => (s.translate (y.toNat + 4096 * k) true true false).toOption
      if frames.all Option.isSome then some (s.putPart part { p with dump := some (y.toNat, frames.map fun f => (f.getD 0) / 4096, i) })
      else none) s

/-- An entry of an aperture (R431). -/
def aperOf (e : List Word) : Option Aper :=
  let w0 := e.getD 0 0
  let w2 := e.getD 2 0
  if !onlyBits w0 0x1FFFFFFFFFFF003 || !onlyBits w2 0xFFFFFFFFFF000 || decide (e.getD 1 0 = 0) || decide (e.getD 3 0 ≠ 0) || !inDevice w2.toNat
    then none
  else some { start := fld w0 12 45 * 4096, pages := (e.getD 1 0).toNat, base := w2.toNat, w := w0.getLsbD 1, r := w0.getLsbD 0 }

/-- Every entry of a table, k words each; none when one is bad. -/
def entriesOf {α : Type} (k : Nat) (f : List Word → Option α) (ws : List Word) : Nat → Option (List α)
  | 0 => some []
  | n + 1 => match f (ws.take k), entriesOf k f (ws.drop k) n with
    | some x, some l => some (x :: l)
    | _, _ => none

/-- PTBIND FAPER: the fabric aperture (R404, R431). -/
def execPtbindFaper (a b : GReg) (s : State) : Outcome :=
  bind' a b (fun i => decide (1 ≤ i ∧ i ≤ 64)) (fun _ s => s.featack.getLsbD 1 || s.featack.getLsbD 2) (fun part i y p s =>
    let s := s.touchTable y.toNat (4 * i)
    ((s.tableWords y.toNat (4 * i)).bind fun ws => entriesOf 4 aperOf ws i).map fun l => s.putPart part { p with faper := l }) s
/-- PTBIND NAPER: the network aperture (R416, R431). -/
def execPtbindNaper (a b : GReg) (s : State) : Outcome :=
  bind' a b (fun i => decide (1 ≤ i ∧ i ≤ 64)) (fun _ s => s.featack.getLsbD 4) (fun part i y p s =>
    let s := s.touchTable y.toNat (4 * i)
    ((s.tableWords y.toNat (4 * i)).bind fun ws => entriesOf 4 aperOf ws i).map fun l => s.putPart part { p with naper := l }) s

/-- An entry of the peer table: port, station address, key slot (R431). -/
def peerOf (e : List Word) : Option (Nat × Nat × Nat) :=
  if !onlyBits (e.getD 0 0) 0x7FFFFFFFFFFFF || !onlyBits (e.getD 1 0) 0x3FF then none
  else some (fld (e.getD 0 0) 48 3, fld (e.getD 0 0) 0 48, (e.getD 1 0).toNat)

/-- PTBIND PEER: the Ethernet ports that the table names come up (R431, R444). -/
def execPtbindPeer (a b : GReg) (s : State) : Outcome :=
  bind' a b (fun i => decide (1 ≤ i ∧ i ≤ 2047)) (fun _ s => s.featack.getLsbD 4) (fun part i y p s =>
    let s := s.touchTable y.toNat (2 * i)
    ((s.tableWords y.toNat (2 * i)).bind fun ws => entriesOf 2 peerOf ws i).map fun l => (s.putPart part { p with peers := some l }).ethChanged s) s

/-- The slot table of a circuit port (R409): EN, GUARD, T0 and the slots. -/
def slotTable (s : State) (va : Nat) : Option (Bool × Nat × Nat × List (Nat × Nat)) :=
  (s.tableWords va 1).bind fun h =>
    let w := h.getD 0 0
    let n := fld w 32 7
    if !onlyBits w 0x8000007FFFFFFFFF ∨ n < 1 ∨ 64 < n then none
    else (s.tableWords va (2 + n)).bind fun ws =>
      let slot (e : List Word) : Option (Nat × Nat) :=
        let x := e.getD 0 0
        if !onlyBits x 0xFFE00000FFFFFFFF ∨ fld x 0 32 ≤ fld w 0 32 then none else some (fld x 53 11, fld x 0 32)
      (entriesOf 1 slot (ws.drop 2) n).map fun l => (w.getLsbD 63, fld w 0 32, (ws.getD 1 0).toNat, l)

/-- A port takes a binding: what it had in hand ends when it can send no longer, and its state has changed (R398, R401, R409). -/
def bindPort (part n : Nat) (x : Port) (s : State) : State :=
  let old := s.port n
  let x := { x with isUp := decide (x.mode ≠ 0) && old.isUp, part := some part }
  let s := if old.mode = x.mode ∧ x.works then s else closePort n 0 s
  (s.putPort n x).portChanged n

/-- Bind a port to a partition. It takes the binding at once, unless it serves another that is sealed: then at the seal, which a shared port does
not pass (R431, R434). Log 43, DEDUCED. -/
def bindKport (part i : Nat) (x : Port) (p : Partition) (s : State) : State :=
  let s := s.putPart part { p with kports := assocPut p.kports i x }
  let serves := (s.port i).part.any fun m => decide (m ≠ part) && (match (s.part m).st with | .sealed | .stopping => true | _ => false)
  if serves then s else bindPort part i x s

/-- PTBIND KPORT: down, switched, or circuit mode with its table (R409, R431). -/
def execPtbindKport (a b : GReg) (s : State) : Outcome :=
  bind' a b (fun i => decide (i < 96)) (fun y s => decide (y = 0) || s.featack.getLsbD (if y = 1 then 1 else 2)) (fun part i y p s =>
    if y = 0 then some (bindKport part i {} p s)
    else if y = 1 then some (bindKport part i { mode := 1 } p s)
    else
      let s := s.touchTable y.toNat 1
      let s := s.touchTable y.toNat (2 + fld (((s.tableWords y.toNat 1).getD []).getD 0 0) 32 7)
      (slotTable s y.toNat).map fun (en, guard, t0, slots) =>
      bindKport part i { mode := 2, en := en, guard := guard, t0 := t0, slots := slots } p s) s

/-- PTBIND RWIN: a reduction window (R408, R431). -/
def execPtbindRwin (a b : GReg) (s : State) : Outcome :=
  bind' a b (fun i => decide (i < 256)) (fun _ s => s.featack.getLsbD 3) (fun part i y p s =>
    let s := s.touchTable y.toNat 2
    (s.tableWords y.toNat 2).bind fun ws =>
      let w0 := ws.getD 0 0
      let w1 := ws.getD 1 0
      let fmt := fld w1 40 8
      let blocks := fld w1 0 13
      if !onlyBits w0 0x1FFFFFFFFFFFFFF || !onlyBits w1 0x7FFFF0000001FFF || !(decide (fmt = 0x08) || decide (fmt = 0x06))
          || !decide (1 ≤ blocks ∧ blocks ≤ 4096) then none
      else
        let w := (i, w0.toNat, fld w1 48 11 + 1, fmt, blocks)
        some (s.putPart part { p with rwins := (p.rwins.filter fun x => decide (x.1 ≠ i)) ++ [w] })) s

/-- PTBIND INTR: a routing entry (R377, R431). -/
def execPtbindIntr (a b : GReg) (s : State) : Outcome :=
  bind' a b isSource noFeature (fun part i y p s =>
    if !onlyBits y 0x8000000000000FFF ∨ fld y 10 2 = 3 then none
    else some ({ s with routes := assocPut s.routes i (y, part) }.putPart part p)) s

/-- PTBIND INJ: XINJ in the partition (R94, R431). -/
def execPtbindInj (a b : GReg) (s : State) : Outcome :=
  bind' a b noIndex (fun y s => decide (y.getLsbD 0 = false) || s.featack.getLsbD 6)
    (setField (fun y => onlyBits y 1) fun y p => { p with inj := y.getLsbD 0 }) s

/-! ### PTQUOTA (R429, R433) -/

/-- PTQUOTA of one kind; kinds 0 and 2 also in SEALED (R429). Log 43, DEDUCED. -/
def quota (a b : GReg) (whileSealed : Bool) (ok : Word → Bool) (f : Word → Partition → Partition) (s : State) : Outcome :=
  partHead a b s fun part i y s =>
    let p := s.part part
    if i ≠ 0 then result 1 s
    else if !(decide (p.st = .opened) || decide (p.st = .stopped) || (whileSealed && decide (p.st = .sealed))) then result 2 s
    else if !ok y then result 1 s
    else result 0 (s.putPart part (f y p))

/-- PTQUOTA SLICE; in SEALED it takes effect at the next slice, or at the next launch of a partition that has none. A KIND that is reserved gives PTRES 1 (R429, R433). Log 44, DEDUCED. -/
def execPtquotaSlice (a b : GReg) (s : State) : Outcome :=
  if fld (s.core.peek a) 8 4 ≠ 0 then partHead a b s fun _ _ _ s => result 1 s
  else quota a b true (fun y => decide (y.toNat < 2 ^ 32)) (fun y p =>
    if p.st = .sealed then { p with sliceDue := some y.toNat } else { p with slice := y.toNat, sliceDue := none }) s
/-- PTQUOTA PRIO (R433). -/
def execPtquotaPrio (a b : GReg) (s : State) : Outcome :=
  quota a b false (fun y => decide (y.toNat < 16)) (fun y p => { p with prio := y.toNat }) s
/-- PTQUOTA RATE (R433). -/
def execPtquotaRate (a b : GReg) (s : State) : Outcome :=
  quota a b true (fun y => decide (fld y 0 32 = 0 ∨ fld y 32 32 ≠ 0)) (fun y p => { p with rate := fld y 0 32, ceiling := fld y 32 32 }) s
/-- PTQUOTA ACTIVEQ (R433). -/
def execPtquotaActiveq (a b : GReg) (s : State) : Outcome :=
  quota a b false (fun y => decide (1 ≤ y.toNat ∧ y.toNat ≤ 2048)) (fun y p => { p with activeq := y.toNat }) s

/-! ### Time slices (R435) -/

/-- Numbers of the partitions that satisfy a test. -/
def partsThat (s : State) (f : Partition → Bool) : List Nat := (List.range 64).filter fun n => f (s.part n)
/-- Two lists share a number. -/
def meet (a b : List Nat) : Bool := a.any fun x => b.contains x
/-- Core masks of two partitions overlap. -/
def overlap (s : State) (m n : Nat) : Bool := meet ((s.part m).cores.getD []) ((s.part n).cores.getD [])

/-- Shared by time: sealed, or stopping with cores that it still holds (R435). -/
def Partition.sliced (p : Partition) : Bool :=
  (decide (p.st = .sealed) || (decide (p.st = .stopping) && p.holds)) && decide (p.slice ≠ 0)

/-- The partitions reached from a set through overlapping masks. -/
def reachParts (s : State) : Nat → List Nat → List Nat
  | 0, l => l
  | k + 1, l => reachParts s k ((partsThat s Partition.sliced).filter fun n => l.contains n || l.any fun m => overlap s m n)

/-- The rotation of a partition, in the order of sealing (R435). -/
def rotation (s : State) (n : Nat) : List Nat :=
  let l := reachParts s 64 [n]
  (sortNat (l.map fun m => (s.part m).sealNo)).filterMap fun k => l.find? fun m => decide ((s.part m).sealNo = k)

/-- The partition behind another in a rotation. -/
def nextIn (l : List Nat) (n : Nat) : Option Nat :=
  match l.dropWhile fun m => decide (m ≠ n) with
  | _ :: m :: _ => some m
  | _ => l.head?

/-- Every save of a partition has completed, and every record of a region that has ended is written: no region still holds cores (R435, R437). -/
def allSaved (s : State) (part : Nat) : Bool :=
  (s.regions.filter fun r => decide (r.part = part)).all fun r => r.notStarted || (match r.state with | .saved _ => true | _ => false)

/-- The regions of a partition that have started and have not ended, and those held back, are due to go on (R326, R435). -/
def State.resumeAll (s : State) (part : Nat) : State :=
  { s with regions := s.regions.map fun r => if r.part = part then { r with hold := false, resumeDue := (match r.state with | .saved _ => true | _ => r.resumeDue) } else r }

/-- A partition's slice starts: its pre-empted regions resume, its launches start, and its end is timed (R435). Log 44, DEDUCED. -/
def startSlice (n : Nat) (s : State) : State :=
  let p := s.part n
  let slice := p.sliceDue.getD p.slice
  let s := s.putPart n { p with holds := true, ending := false, slice := slice, sliceDue := none, sliceAt := s.clk }
  let s := if slice = 0 then s else s.addTimer { instr := .sliceEnd, args := { n := n, m := s.clk }, at' := s.pktime + slice * 2250 }
  s.resumeAll n

/-- SLICE_END: the slice of partition n that began at clk m is over: each of its running regions is asked to give its cores up, and a
launch that has not started is held (R326, R435). -/
def execSliceEnd (s : State) : Outcome :=
  let n := s.args.n
  if 64 ≤ n then done s
  else
    let p := s.part n
    if !p.holds || decide (p.sliceAt ≠ s.args.m) || decide (p.st ≠ .sealed) then done s
    else
      let s := s.putPart n { p with ending := true }
      done ((s.regions.filter fun r => decide (r.part = n)).foldl (fun (s : State) r =>
        match s.region? r.id with | some r => requestOne r false graceClk s | none => s) s)

/-- SLICE_START: the slice of partition n starts once every save of the one before has completed (m = 0, R435); or region n resumes on its
cores (m = 1, R339). -/
def execSliceStart (s : State) : Outcome :=
  let n := s.args.n
  if s.args.m = 1 then resumeRegion n s
  else if 64 ≤ n then done s
  else
    let p := s.part n
    if !p.sliced || decide (p.st ≠ .sealed) then stall s
    else
      let rot := rotation s n
      match rot.find? fun m => (s.part m).holds with
      | none => if rot.head? = some n then done (startSlice n s) else stall s
      | some h =>
        if !((s.part h).ending || decide ((s.part h).st = .stopping)) || !allSaved s h || decide (nextIn rot h ≠ some n) then stall s
        else done (startSlice n (s.putPart h { s.part h with holds := false, ending := false }))

/-! ### PTSEAL (R434, R437, R438) -/

/-- Two partitions cannot be sealed together (R434). -/
def sealConflict (s : State) (m n : Nat) : Bool :=
  let p := s.part m
  let q := s.part n
  let queues (p : Partition) : Nat × Nat := match p.queues with | some (f, k) => (f, f + k) | none => (0, 0)
  (overlap s m n && !(decide (p.slice ≠ 0) && decide (q.slice ≠ 0)))
    || decide ((queues p).1 < (queues q).2 ∧ (queues q).1 < (queues p).2)
    || meet (p.kports.map (·.1)) (q.kports.map (·.1)) || meet (p.rwins.map (·.1)) (q.rwins.map (·.1))

/-- The checks of a seal (R434). -/
def sealable (s : State) (n : Nat) : Bool :=
  let p := s.part n
  p.cores.isSome && p.s2root.isSome && p.key.isSome && p.dump.isSome
    && !((partsThat s fun q => decide (q.st ≠ .free)).any fun m => decide (m ≠ n) && sealConflict s n m)
    && decide (p.activeq + ((partsThat s fun q => decide (q.st = .sealed)).map fun m => (s.part m).activeq).foldl (· + ·) 0 ≤ 2048)

/-- The bytes of the second-stage table pages that can be reached from a table (R438). -/
def tablePages (m : Store) : Nat → Nat → Nat → List Byte
  | 0, _, _ => []
  | k + 1, l, table =>
    let n := if l = 0 then 16 else 512
    m.read table 4096 ++ (List.range n).flatMap fun i =>
      match readPte false l (m.word (table + 8 * i)) with
      | .next t => tablePages m k (l + 1) t
      | _ => []

/-- The numbers of a port's binding: its mode and its slot table. -/
def Port.numbers (x : Port) : List Nat := [x.mode, if x.en then 1 else 0, x.guard, x.t0] ++ x.slots.flatMap fun d => [d.1, d.2]

/-- The numbers of an aperture's entry. -/
def Aper.numbers (e : Aper) : List Nat := [e.start, e.pages, e.base, if e.w then 1 else 0, if e.r then 1 else 0]

/-- A partition's bindings and quotas as numbers, in an order of the model's own, each list behind its length (R438). Log 57, PRESUMED. -/
def Partition.numbers (p : Partition) (routes : List (Nat × Word)) : List Nat :=
  let sized (l : List (List Nat)) : List Nat := l.length :: l.flatMap fun x => x.length :: x
  sized [p.cores.getD []] ++ [(p.engines.map BitVec.toNat).getD 31, (p.memports.map BitVec.toNat).getD 65535, (p.queues.map (·.1)).getD 0,
    (p.queues.map (·.2)).getD 0, p.s2root.getD 0, p.key.getD 0, (p.dump.map (·.1)).getD 0, (p.dump.map (·.2.2)).getD 0]
    ++ sized (p.faper.map Aper.numbers) ++ sized (p.naper.map Aper.numbers) ++ sized ((p.peers.getD []).map fun e => [e.1, e.2.1, e.2.2])
    ++ sized (p.kports.map fun x => x.1 :: x.2.numbers) ++ sized (p.rwins.map fun w => [w.1, w.2.1, w.2.2.1, w.2.2.2.1, w.2.2.2.2])
    ++ sized (routes.map fun e => [e.1, e.2.toNat]) ++ [if p.inj then 1 else 0, p.slice, p.prio, p.rate, p.ceiling, p.activeq]
/-- The routing entries that a partition has bound (R431). -/
def State.routesOf (s : State) (part : Nat) : List (Nat × Word) :=
  (s.routes.filter fun e => decide (e.2.2 = part)).map fun e => (e.1, e.2.1)

/-- The measurement that a seal of partition n fixes (R438). Log 57, PRESUMED. -/
def measurement (s : State) (n : Nat) (p : Partition) : Nat :=
  sha512 (((p.numbers (s.routesOf n)).flatMap fun n => leBytes 8 n) ++ tablePages s.mem 5 0 (p.s2root.getD 0))

/-- The sealed partition's ports take its bindings, where another partition had them (R431, R434). -/
def takePorts (n : Nat) (s : State) : State :=
  (s.part n).kports.foldl (fun (s : State) x => if (s.port x.1).part = some n then s else bindPort n x.1 x.2 s) s

/-- Seal (R434, R435, R437, R438): a spatial partition holds its cores at once, a time-sliced one when nobody of its rotation does. -/
def sealPart (n : Nat) (s : State) : State :=
  let p := s.part n
  let s := takePorts n { s with seals := s.seals + 1 }
  let s := s.putPart n { p with
    st := .sealed, sealNo := s.seals, dirty := [], s2raises := 0, measure := measurement s n p, holds := false, ending := false }
  if p.slice = 0 ∨ !(rotation s n).any fun m => (s.part m).holds then startSlice n s else s

/-- A port that serves a partition is bound to none. -/
def unbindPort (n k : Nat) (s : State) : State :=
  if (s.port k).part = some n then (closePort k 0 s).putPort k {} |>.portChanged k else s

/-- Take every binding away; what the partition still had saved goes with them (R434). Log 44, DEDUCED. -/
def freePart (n : Nat) (s : State) : State :=
  let s := (s.part n).kports.foldl (fun (s : State) x => unbindPort n x.1 s) s
  let gone (r : Option Nat) : Bool := r.any fun id => (s.region? id).any fun r => decide (r.part = n)
  State.ethChanged (old := s) <| ({ s with
      tasks := s.tasks.filter fun t => !gone (some t.region)
      links := s.links.filter fun l => !gone l.region
      nets := s.nets.filter fun l => !gone l.region
      routes := s.routes.filter fun e => decide (e.2.2 ≠ n)
      regions := s.regions.filter fun r => decide (r.part ≠ n) } : State).putPart n { frqh := (s.part n).frqh, s2gen := (s.part n).s2gen }

/-- Stop every region of a partition by forced save with no grace period (R437). Log 44, DEDUCED. -/
def stopRegions (n : Nat) (s : State) : State :=
  (s.regions.filter fun r => decide (r.part = n)).foldl (fun (s : State) r =>
    match s.region? r.id with
    | none => s
    | some r =>
      if r.notStarted then s.putRegion { r with hold := true }
      else if !r.live then s
      else if r.level.toNat < 2 then requestOne r true 0 s
      else startSave r s) s

/-- The head of PTSEAL (R430). Log 43, DEDUCED. -/
def sealHead (a : GReg) (s : State) (k : Nat → State → Outcome) : Outcome :=
  getG a s fun x s => whenContextQuiet s fun s =>
    if !onlyBits x 0x33F ∨ fld x 8 2 = 3 then result 1 s
    else if !s.featSet then result 4 s
    else k (fld x 0 6) s

/-- PTSEAL seal; the reserved OP gives PTRES 1 (R434). -/
def execPtsealSeal (a : GReg) (s : State) : Outcome :=
  sealHead a s fun n s =>
    match (s.part n).st with
    | .opened | .stopped => if sealable s n then result 0 (sealPart n s) else result 3 s
    | _ => result 2 s

/-- PTSEAL stop (R434, R437). -/
def execPtsealStop (a : GReg) (s : State) : Outcome :=
  sealHead a s fun n s =>
    match (s.part n).st with
    | .sealed => result 0 (stopRegions n (s.putPart n { s.part n with st := .stopping, stopDue := true }))
    | _ => result 2 s

/-- PTSEAL free (R434). -/
def execPtsealFree (a : GReg) (s : State) : Outcome :=
  sealHead a s fun n s =>
    match (s.part n).st with
    | .free => result 0 s
    | .opened | .stopped => result 0 (freePart n s)
    | _ => result 2 s

/-- STOP_COMPLETE: every region of stopping partition n is saved: the dirty-page report, then the STOPPED word, then the state (R437). Where it held
the slice of its rotation, the next one's starts (R435). -/
def execStopComplete (s : State) : Outcome :=
  let n := s.args.n
  if 64 ≤ n then done s
  else
    let p := s.part n
    if p.st ≠ .stopping ∨ !allSaved s n then stall s
    else
      let many := decide (7679 < p.dirty.length)
      let report := leBytes 8 (if many then 2 ^ 64 - 1 else p.dirty.length) ++ (if many then [] else p.dirty.flatMap fun g => leBytes 8 (g * 4096))
      let s := s.forPart n fun s => (s.poolWrite n 0x1000 report).poolWrite n 0 (leBytes 8 (2 ^ 63 + n))
      let next := if p.sliced then (nextIn (rotation s n) n).filter fun m => decide (m ≠ n) else none
      let s := s.putPart n { s.part n with
        st := .stopped, stopDue := false, holds := false, ending := false, slice := p.sliceDue.getD p.slice, sliceDue := none }
      done (match next with | some m => startSlice m s | none => s)

/-! ### RGNCTL (R436) -/

/-- The live region that RGNSEL and an ASID name. -/
def chosenRegion (s : State) (w : Word) : Option Region :=
  s.regions.find? fun r => decide (r.part = fld s.core.rgnsel 0 6) && decide (r.asid = fld w 0 10)
    && decide (r.block = fld s.core.rgnsel 8 49 * 256) && decide (r.state ≠ .complete)

/-- A WRSR of RGNCTL that has passed its checks, with the region it names (R90, R436). -/
def regionOp (d : GReg) (s : State) (k : Region → State → Outcome) : Outcome :=
  writing 0x30B d s fun w s =>
    if fld w 16 2 = 3 then result 1 s
    else match chosenRegion s w with
      | some r => k r s
      | none => result 2 s

/-- RGNCTL query; the reserved OP gives PTRES 1 (R436). Log 44, DEDUCED. -/
def execRgnctlQuery (d : GReg) (s : State) : Outcome :=
  regionOp d s fun r s =>
    match r.state with
    | .saved _ => result 6 s
    | .saving | .halting => result 5 s
    | _ => result 0 s

/-- RGNCTL pre-empt (R326, R436). -/
def execRgnctlPreempt (d : GReg) (s : State) : Outcome :=
  regionOp d s fun r s =>
    match r.state with
    | .saved _ => result 2 s
    | _ => result 0 (requestTree r.root true graceClk s)

/-- A region of a tree that is saved, being saved or asked to stop is due to go on; one held back may start (R339, R436). -/
def State.resumeTree (s : State) (root : Nat) : State :=
  { s with regions := s.regions.map fun r => if r.root = root then { r with hold := false, resumeDue := (match r.state with | .saved _ | .saving | .requested _ => true | _ => r.resumeDue) } else r }

/-- RGNCTL resume: a region that is saved, being saved, or held back before its start (R436). -/
def execRgnctlResume (d : GReg) (s : State) : Outcome :=
  regionOp d s fun r s =>
    match r.state with
    | .saved _ | .saving => result 0 (s.resumeTree r.root)
    | _ => if r.hold then result 0 (s.resumeTree r.root) else result 2 s

/-! ### The second-stage generation (R227) -/

/-- The first page of a live lease whose new walk differs from its frozen translation (R227). Log 45, DEDUCED. -/
def revokedPage (s : State) (r : Region) (l : Lease) : Option Nat :=
  (List.range l.frames.length).findSome? fun i =>
    let va := (l.start + i) * 4096
    match s.walk r.part r.asid va false false with
    | .ok pa pr pw px _ => if l.frames[i]? = some (pa / 4096) ∧ l.perms[i]? = some (pr, pw, px) then none else some va
    | _ => some va

/-- End every task of a region: its commands are killed, its cores leave, and its work is over (R227, R348). -/
def endTasks (r : Region) (s : State) : State :=
  let s := killCommands r s
  let s := (s.tasks.filter fun t => decide (t.region = r.id)).foldl (fun (s : State) t => s.noteTask { t with st := 5 }) s
  let s := { s with tasks := s.tasks.filter fun t => decide (t.region ≠ r.id) }
  let s := (s.held r).foldl (fun (s : State) id => s.onCore id fun (c : Core) =>
    { c.freed with run := if r.scheduled then .retired else .free, after := none, held := [], pend := none, veq := [], vbusy := false, meq := [],
                   ceq := [], landBuf := [], freeze := none }) s
  match s.region? r.id with
  | some r => if r.count = 0 then s else (s.putRegion { r with count := 0 }).addTodo { instr := .completionRecord, args := { n := r.id } }
  | none => s

/-- Leases that a raise of the second stage of a partition revokes are reported, and the tasks that hold them end (R227). -/
def revokeLeases (part : Nat) (s : State) : State :=
  (s.regions.filter fun r => decide (r.part = part) && decide (r.state ≠ .complete)).foldl (fun (s : State) r =>
    let gone := r.leases.filterMap (revokedPage s r)
    let s := gone.foldl (fun (s : State) va => s.recordHv { code := 0x147, tval := word va, tinfo := s.vatInfo } r.asid part) s
    if gone.isEmpty || r.notStarted then s else endTasks r s) s

/-- The second-stage generation of a partition rises (R227). -/
def raiseStage2 (part : Nat) (s : State) : State :=
  let p := s.part part
  s.putPart part { p with s2gen := (p.s2gen + 1) % 2 ^ 32, s2raises := p.s2raises + 1 }

/-- WRSR of S2GENRAISE: the generation rises, and it commits once every access translated before is performed (R227, R365). Log 74, DEDUCED. -/
def execS2genraise (d : GReg) (s : State) : Outcome :=
  writing 0x20A d s fun w s =>
    let part := fld w 0 6
    raising (fun c => decide (c.part = part)) (raiseStage2 part) s fun s => done (revokeLeases part s)

end Sys2Proof.Machine
end

