-- ==== Sys2Proof/Machine/Sync.lean ====
section
/-!
DEFINITION. The synchronising forms of the S slot and their retry (R116 to R122, R216, R346, R381).
-/

namespace Sys2Proof.Machine

/-- What every synchronising form does before its access: the checks of R178, R100, R101 and R219, FE_HOST, the windows and busy granules (R247),
then every earlier access to the word has been performed and no fence holds it back, REL included (R118, R192), and the port serves the
request (R233). The access is at `a` of its space. -/
def syncAt (base : GReg) (imm : BitVec 9) (sp read write : Bool) (s : State) (k : Word → Nat → State → Outcome) : Outcome :=
  getG base s fun x s =>
    let ea := x + 8 * sext9 imm
    if !sp && s.inCompute then trap 0x015 0 0 s
    else match rangeCause s sp ea.toNat 8 with
      | some c => trap c ea 0 s
      | none =>
        if ea.toNat % 8 ≠ 0 then trap 0x011 ea 0 s
        else
          let go (a : Nat) (s : State) : Outcome :=
            let ps : List Piece := [{ off := 0, at' := a, len := 8 }]
            afterAccesses sp ps s fun s =>
              if !(s.core.fencesPassed s.core.nextId true) then stall s
              else match (if sp then some s else served s ps) with
                | none => stall s
                | some s => k ea a s
          if sp then
            throughWindows write [(ea.toNat, ea, 0)] s fun s =>
              if s.core.granuleBusy [{ off := 0, at' := ea.toNat, len := 8 }] then stall s else go ea.toNat s
          else match s.translate ea.toNat read write false with
            | .error c => trap c ea 0 s
            | .ok pa => if inHost pa then trap 0x144 ea 0 s else go pa (s.touchRange pa 8)

/-- Attempts made so far, when the next one may be made now; none while the interval of R120 runs. -/
def attemptsSoFar (s : State) : Option Nat :=
  match s.core.run with
  | .feWait tries at' => if at' ≤ s.clk then some tries else none
  | _ => some 0

/-- A waiting form: an attempt finds the bit as wanted and goes on, or waits for the next attempt, or exhausts its budget
(R120). -/
def attempt (ea : Word) (wanted : Bool) (s : State) (k : State → Outcome) : Outcome :=
  match attemptsSoFar s with
  | none => waits s
  | some n =>
    if wanted then k { s with core := { s.core with run := .running } }
    else if fld s.core.febudget 0 32 ≤ n then trap 0x012 ea (word (n + 1)) s
    else waits (({ s with core := { s.core with run := .feWait (n + 1) (s.clk + 64) } } : State).addTimer
      { instr := .waitingFormRetry, core := s.core.id, args := { n := s.clk + 64 }, at' := s.clk + 64 })

/-- The word at a place of a space. -/
def State.wordAt (s : State) (sp : Bool) (a : Nat) : Word := (s.space sp).word a

/-- LDW: wait for full, then read (R116). -/
def execLdw (d a : GReg) (imm : BitVec 9) (gl : Bool) (s : State) : Outcome :=
  syncAt a imm (!gl) true false s fun ea p s =>
    if (s.space (!gl)).poisoned p then trap 0x01A ea 0 s
    else attempt ea ((s.space (!gl)).fe p) s fun s => setG d (s.wordAt (!gl) p) (if gl then s else s.observe p 8)
/-- LDC: wait for full, read, and leave empty (R116). -/
def execLdc (d a : GReg) (imm : BitVec 9) (gl : Bool) (s : State) : Outcome :=
  syncAt a imm (!gl) true true s fun ea p s =>
    if (s.space (!gl)).poisoned p then trap 0x01A ea 0 s
    else attempt ea ((s.space (!gl)).fe p) s fun s =>
      let w := s.wordAt (!gl) p
      setG d w ((if (!gl) then (s.observe p 8).winWrote p else s).setFeAt (!gl) p false)
/-- STF: wait for empty, then write and leave full (R116). -/
def execStf (d a : GReg) (imm : BitVec 9) (gl : Bool) (s : State) : Outcome :=
  syncAt a imm (!gl) true true s fun ea p s => getG d s fun w s =>
    attempt ea (!(s.space (!gl)).fe p) s fun s => done ((s.store (!gl) p (leBytes 8 w.toNat)).setFeAt (!gl) p true)
/-- STS: write and leave full (R116). -/
def execSts (d a : GReg) (imm : BitVec 9) (gl : Bool) (s : State) : Outcome :=
  syncAt a imm (!gl) false true s fun _ p s => getG d s fun w s =>
    done ((s.store (!gl) p (leBytes 8 w.toNat)).setFeAt (!gl) p true)
/-- FEQ: read the bit (R116). -/
def execFeq (d a : GReg) (imm : BitVec 9) (gl : Bool) (s : State) : Outcome :=
  syncAt a imm (!gl) true false s fun _ p s => setG d (truth ((s.space (!gl)).fe p)) s
/-- FESET: leave full (R116). -/
def execFeset (a : GReg) (imm : BitVec 9) (gl : Bool) (s : State) : Outcome :=
  syncAt a imm (!gl) false true s fun _ p s => done ((if (!gl) then s.winWrote p else s).setFeAt (!gl) p true)
/-- FECLR: leave empty (R116). -/
def execFeclr (a : GReg) (imm : BitVec 9) (gl : Bool) (s : State) : Outcome :=
  syncAt a imm (!gl) false true s fun _ p s => done ((if (!gl) then s.winWrote p else s).setFeAt (!gl) p false)

/-- The next attempt of a waiting form is due: the 64 clk that end at clk n have passed since the previous one (R119, R120). The form makes it
when its bundle issues again. -/
def execWaitingFormRetry (s : State) : Outcome :=
  match s.core.run with
  | .feWait n t => if t = s.args.n then done { s with core := { s.core with run := .feWait n 0 } } else done s
  | _ => done s

end Sys2Proof.Machine
end

