-- ==== Sys2Proof/Machine/Dispatch.lean ====
section
/-!
DEFINITION. The dispatcher: one arm per instruction and step, each one call of its meaning.
-/

namespace Sys2Proof.Machine

def exec (i : Instr) (s : State) : Host.Outcome State Fault Refusal :=
  match i with
  | .add d a b => Sys2Proof.Machine.execAdd d a b s
  | .sub d a b => Sys2Proof.Machine.execSub d a b s
  | .mul d a b => Sys2Proof.Machine.execMul d a b s
  | .mulh d a b => Sys2Proof.Machine.execMulh d a b s
  | .mulhw d a b => Sys2Proof.Machine.execMulhw d a b s
  | .div d a b => Sys2Proof.Machine.execDiv d a b s
  | .divw d a b => Sys2Proof.Machine.execDivw d a b s
  | .rem d a b => Sys2Proof.Machine.execRem d a b s
  | .remw d a b => Sys2Proof.Machine.execRemw d a b s
  | .and d a b => Sys2Proof.Machine.execAnd d a b s
  | .or d a b => Sys2Proof.Machine.execOr d a b s
  | .xor d a b => Sys2Proof.Machine.execXor d a b s
  | .shl d a b => Sys2Proof.Machine.execShl d a b s
  | .shr d a b => Sys2Proof.Machine.execShr d a b s
  | .sha d a b => Sys2Proof.Machine.execSha d a b s
  | .min d a b => Sys2Proof.Machine.execMin d a b s
  | .max d a b => Sys2Proof.Machine.execMax d a b s
  | .minw d a b => Sys2Proof.Machine.execMinw d a b s
  | .maxw d a b => Sys2Proof.Machine.execMaxw d a b s
  | .clz d a => Sys2Proof.Machine.execClz d a s
  | .ctz d a => Sys2Proof.Machine.execCtz d a s
  | .popc d a => Sys2Proof.Machine.execPopc d a s
  | .sext d a w => Sys2Proof.Machine.execSext d a w s
  | .zext d a w => Sys2Proof.Machine.execZext d a w s
  | .bfx d a b signed => Sys2Proof.Machine.execBfx d a b signed s
  | .bfi d a b => Sys2Proof.Machine.execBfi d a b s
  | .sel d a b => Sys2Proof.Machine.execSel d a b s
  | .cmp d a b c => Sys2Proof.Machine.execCmp d a b c s
  | .addi d a imm => Sys2Proof.Machine.execAddi d a imm s
  | .andi d a imm => Sys2Proof.Machine.execAndi d a imm s
  | .ori d a imm => Sys2Proof.Machine.execOri d a imm s
  | .xori d a imm => Sys2Proof.Machine.execXori d a imm s
  | .shli d a n => Sys2Proof.Machine.execShli d a n s
  | .shri d a n => Sys2Proof.Machine.execShri d a n s
  | .shai d a n => Sys2Proof.Machine.execShai d a n s
  | .cmpiEq d a imm => Sys2Proof.Machine.execCmpiEq d a imm s
  | .cmpiNe d a imm => Sys2Proof.Machine.execCmpiNe d a imm s
  | .cmpiLt d a imm => Sys2Proof.Machine.execCmpiLt d a imm s
  | .cmpiGe d a imm => Sys2Proof.Machine.execCmpiGe d a imm s
  | .cmpiLtw d a imm => Sys2Proof.Machine.execCmpiLtw d a imm s
  | .cmpiGew d a imm => Sys2Proof.Machine.execCmpiGew d a imm s
  | .movi d imm => Sys2Proof.Machine.execMovi d imm s
  | .movhi d imm => Sys2Proof.Machine.execMovhi d imm s
  | .br off => Sys2Proof.Machine.execBr off s
  | .call off => Sys2Proof.Machine.execCall off s
  | .brcZ d off => Sys2Proof.Machine.execBrcZ d off s
  | .brcNz d off => Sys2Proof.Machine.execBrcNz d off s
  | .jmp a => Sys2Proof.Machine.execJmp a s
  | .loop n a dist => Sys2Proof.Machine.execLoop n a dist s
  | .loopi n count dist => Sys2Proof.Machine.execLoopi n count dist s
  | .rdsr d n => Sys2Proof.Machine.execRdsr d n s
  | .wrsr d n => Sys2Proof.Machine.execWrsr d n s
  | .trap code => Sys2Proof.Machine.execTrap code s
  | .sysc code => Sys2Proof.Machine.execSysc code s
  | .brk code => Sys2Proof.Machine.execBrk code s
  | .accFlip a b => Sys2Proof.Machine.execAccFlip a b s
  | .spadFlip a b => Sys2Proof.Machine.execSpadFlip a b s
  | .sectorPoison a b => Sys2Proof.Machine.execSectorPoison a b s
  | .tagBreak a b => Sys2Proof.Machine.execTagBreak a b s
  | .raise a b => Sys2Proof.Machine.execRaise a b s
  | .ldw d a imm sp => Sys2Proof.Machine.execLdw d a imm sp s
  | .ldc d a imm sp => Sys2Proof.Machine.execLdc d a imm sp s
  | .stf d a imm sp => Sys2Proof.Machine.execStf d a imm sp s
  | .sts d a imm sp => Sys2Proof.Machine.execSts d a imm sp s
  | .feq d a imm sp => Sys2Proof.Machine.execFeq d a imm sp s
  | .feset a imm sp => Sys2Proof.Machine.execFeset a imm sp s
  | .feclr a imm sp => Sys2Proof.Machine.execFeclr a imm sp s
  | .spawn d a b => Sys2Proof.Machine.execSpawn d a b s
  | .park a => Sys2Proof.Machine.execPark a s
  | .dcset a b => Sys2Proof.Machine.execDcset a b s
  | .dcdec a => Sys2Proof.Machine.execDcdec a s
  | .mon n a imm sp => Sys2Proof.Machine.execMon n a imm sp s
  | .waitm d a => Sys2Proof.Machine.execWaitm d a s
  | .acq sc => Sys2Proof.Machine.execAcq sc s
  | .rel sc => Sys2Proof.Machine.execRel sc s
  | .fence sc => Sys2Proof.Machine.execFence sc s
  | .fenceX mask sc => Sys2Proof.Machine.execFenceX mask sc s
  | .promote a sc => Sys2Proof.Machine.execPromote a sc s
  | .barwt a b => Sys2Proof.Machine.execBarwt a b s
  | .wdecl d a b => Sys2Proof.Machine.execWdecl d a b s
  | .wdrop a => Sys2Proof.Machine.execWdrop a s
  | .acqt a sc => Sys2Proof.Machine.execAcqt a sc s
  | .relt a sc => Sys2Proof.Machine.execRelt a sc s
  | .ptbindCores a b => Sys2Proof.Machine.execPtbindCores a b s
  | .ptbindEngines a b => Sys2Proof.Machine.execPtbindEngines a b s
  | .ptbindMemports a b => Sys2Proof.Machine.execPtbindMemports a b s
  | .ptbindQueues a b => Sys2Proof.Machine.execPtbindQueues a b s
  | .ptbindS2root a b => Sys2Proof.Machine.execPtbindS2root a b s
  | .ptbindKey a b => Sys2Proof.Machine.execPtbindKey a b s
  | .ptbindDump a b => Sys2Proof.Machine.execPtbindDump a b s
  | .ptbindFaper a b => Sys2Proof.Machine.execPtbindFaper a b s
  | .ptbindNaper a b => Sys2Proof.Machine.execPtbindNaper a b s
  | .ptbindPeer a b => Sys2Proof.Machine.execPtbindPeer a b s
  | .ptbindKport a b => Sys2Proof.Machine.execPtbindKport a b s
  | .ptbindRwin a b => Sys2Proof.Machine.execPtbindRwin a b s
  | .ptbindIntr a b => Sys2Proof.Machine.execPtbindIntr a b s
  | .ptbindInj a b => Sys2Proof.Machine.execPtbindInj a b s
  | .ptquotaSlice a b => Sys2Proof.Machine.execPtquotaSlice a b s
  | .ptquotaPrio a b => Sys2Proof.Machine.execPtquotaPrio a b s
  | .ptquotaRate a b => Sys2Proof.Machine.execPtquotaRate a b s
  | .ptquotaActiveq a b => Sys2Proof.Machine.execPtquotaActiveq a b s
  | .ptsealSeal a => Sys2Proof.Machine.execPtsealSeal a s
  | .ptsealStop a => Sys2Proof.Machine.execPtsealStop a s
  | .ptsealFree a => Sys2Proof.Machine.execPtsealFree a s
  | .la a imm sz sp => Sys2Proof.Machine.execLa a imm sz sp s
  | .lav a imm sz sp => Sys2Proof.Machine.execLav a imm sz sp s
  | .sa a imm sz sp => Sys2Proof.Machine.execSa a imm sz sp s
  | .sav a imm sz sp => Sys2Proof.Machine.execSav a imm sz sp s
  | .laxIndex a b sz sp => Sys2Proof.Machine.execLaxIndex a b sz sp s
  | .laxIncrement a b sz sp => Sys2Proof.Machine.execLaxIncrement a b sz sp s
  | .saxIndex a b sz sp => Sys2Proof.Machine.execSaxIndex a b sz sp s
  | .saxIncrement a b sz sp => Sys2Proof.Machine.execSaxIncrement a b sz sp s
  | .lavStrided a b es sp => Sys2Proof.Machine.execLavStrided a b es sp s
  | .savStrided a b es sp => Sys2Proof.Machine.execSavStrided a b es sp s
  | .lagv a b es sp => Sys2Proof.Machine.execLagv a b es sp s
  | .sasv a b es sp => Sys2Proof.Machine.execSasv a b es sp s
  | .pref a imm => Sys2Proof.Machine.execPref a imm s
  | .amoAdd a b eight sp => Sys2Proof.Machine.execAmoAdd a b eight sp s
  | .amoAnd a b eight sp => Sys2Proof.Machine.execAmoAnd a b eight sp s
  | .amoOr a b eight sp => Sys2Proof.Machine.execAmoOr a b eight sp s
  | .amoXor a b eight sp => Sys2Proof.Machine.execAmoXor a b eight sp s
  | .amoSwap a b eight sp => Sys2Proof.Machine.execAmoSwap a b eight sp s
  | .amoSmin a b eight sp => Sys2Proof.Machine.execAmoSmin a b eight sp s
  | .amoSmax a b eight sp => Sys2Proof.Machine.execAmoSmax a b eight sp s
  | .amoUmin a b eight sp => Sys2Proof.Machine.execAmoUmin a b eight sp s
  | .amoUmax a b eight sp => Sys2Proof.Machine.execAmoUmax a b eight sp s
  | .amoFadd a b sp => Sys2Proof.Machine.execAmoFadd a b sp s
  | .cas a b eight sp => Sys2Proof.Machine.execCas a b eight sp s
  | .laLand a b sz sp => Sys2Proof.Machine.execLaLand a b sz sp s
  | .lavLand a b sz sp => Sys2Proof.Machine.execLavLand a b sz sp s
  | .vadd d a b t => Sys2Proof.Machine.execVadd d a b t s
  | .vaddMasked d k b t => Sys2Proof.Machine.execVaddMasked d k b t s
  | .vsub d a b t => Sys2Proof.Machine.execVsub d a b t s
  | .vsubMasked d k b t => Sys2Proof.Machine.execVsubMasked d k b t s
  | .vmul d a b t => Sys2Proof.Machine.execVmul d a b t s
  | .vmulMasked d k b t => Sys2Proof.Machine.execVmulMasked d k b t s
  | .vmulh d a b t => Sys2Proof.Machine.execVmulh d a b t s
  | .vmulhMasked d k b t => Sys2Proof.Machine.execVmulhMasked d k b t s
  | .vmin d a b t => Sys2Proof.Machine.execVmin d a b t s
  | .vminMasked d k b t => Sys2Proof.Machine.execVminMasked d k b t s
  | .vmax d a b t => Sys2Proof.Machine.execVmax d a b t s
  | .vmaxMasked d k b t => Sys2Proof.Machine.execVmaxMasked d k b t s
  | .vand d a b => Sys2Proof.Machine.execVand d a b s
  | .vandMasked d k b => Sys2Proof.Machine.execVandMasked d k b s
  | .vor d a b => Sys2Proof.Machine.execVor d a b s
  | .vorMasked d k b => Sys2Proof.Machine.execVorMasked d k b s
  | .vxor d a b => Sys2Proof.Machine.execVxor d a b s
  | .vxorMasked d k b => Sys2Proof.Machine.execVxorMasked d k b s
  | .vshl d a b t => Sys2Proof.Machine.execVshl d a b t s
  | .vshlMasked d k b t => Sys2Proof.Machine.execVshlMasked d k b t s
  | .vshr d a b t => Sys2Proof.Machine.execVshr d a b t s
  | .vshrMasked d k b t => Sys2Proof.Machine.execVshrMasked d k b t s
  | .vsha d a b t => Sys2Proof.Machine.execVsha d a b t s
  | .vshaMasked d k b t => Sys2Proof.Machine.execVshaMasked d k b t s
  | .vperm d a b t => Sys2Proof.Machine.execVperm d a b t s
  | .vpermMasked d k b t => Sys2Proof.Machine.execVpermMasked d k b t s
  | .vpack d a b t => Sys2Proof.Machine.execVpack d a b t s
  | .vpackMasked d k b t => Sys2Proof.Machine.execVpackMasked d k b t s
  | .vabs d a k t => Sys2Proof.Machine.execVabs d a k t s
  | .vneg d a k t => Sys2Proof.Machine.execVneg d a k t s
  | .vnot d a k => Sys2Proof.Machine.execVnot d a k s
  | .vrcp d a k t => Sys2Proof.Machine.execVrcp d a k t s
  | .vrsq d a k t => Sys2Proof.Machine.execVrsq d a k t s
  | .vexp2 d a k t => Sys2Proof.Machine.execVexp2 d a k t s
  | .vlog2 d a k t => Sys2Proof.Machine.execVlog2 d a k t s
  | .vredSum d a k t => Sys2Proof.Machine.execVredSum d a k t s
  | .vredMax d a k t => Sys2Proof.Machine.execVredMax d a k t s
  | .vredMin d a k t => Sys2Proof.Machine.execVredMin d a k t s
  | .vscan d a k t => Sys2Proof.Machine.execVscan d a k t s
  | .vmov d a k => Sys2Proof.Machine.execVmov d a k s
  | .vsat d a k t => Sys2Proof.Machine.execVsat d a k t s
  | .vunpkLo d a k t => Sys2Proof.Machine.execVunpkLo d a k t s
  | .vunpkHi d a k t => Sys2Proof.Machine.execVunpkHi d a k t s
  | .vbcast d a k t => Sys2Proof.Machine.execVbcast d a k t s
  | .vfmaF32 d a b k => Sys2Proof.Machine.execVfmaF32 d a b k s
  | .vfmaF16 d a b k => Sys2Proof.Machine.execVfmaF16 d a b k s
  | .vfmaB16 d a b k => Sys2Proof.Machine.execVfmaB16 d a b k s
  | .vfmsF32 d a b k => Sys2Proof.Machine.execVfmsF32 d a b k s
  | .vfmsF16 d a b k => Sys2Proof.Machine.execVfmsF16 d a b k s
  | .vfmsB16 d a b k => Sys2Proof.Machine.execVfmsB16 d a b k s
  | .vfnmaF32 d a b k => Sys2Proof.Machine.execVfnmaF32 d a b k s
  | .vfnmaF16 d a b k => Sys2Proof.Machine.execVfnmaF16 d a b k s
  | .vfnmaB16 d a b k => Sys2Proof.Machine.execVfnmaB16 d a b k s
  | .vdot4I8 d a b k => Sys2Proof.Machine.execVdot4I8 d a b k s
  | .vdot4W8 d a b k => Sys2Proof.Machine.execVdot4W8 d a b k s
  | .vsel d a b k => Sys2Proof.Machine.execVsel d a b k s
  | .vcmpEq d a b t => Sys2Proof.Machine.execVcmpEq d a b t s
  | .vcmpNe d a b t => Sys2Proof.Machine.execVcmpNe d a b t s
  | .vcmpLt d a b t => Sys2Proof.Machine.execVcmpLt d a b t s
  | .vcmpLe d a b t => Sys2Proof.Machine.execVcmpLe d a b t s
  | .vcvt d a selector r => Sys2Proof.Machine.execVcvt d a selector r s
  | .vshuf d a kind p => Sys2Proof.Machine.execVshuf d a kind p s
  | .vins d a b t => Sys2Proof.Machine.execVins d a b t s
  | .vext d a b t => Sys2Proof.Machine.execVext d a b t s
  | .vmovi d imm => Sys2Proof.Machine.execVmovi d imm s
  | .kand d a b => Sys2Proof.Machine.execKand d a b s
  | .kor d a b => Sys2Proof.Machine.execKor d a b s
  | .knot d a => Sys2Proof.Machine.execKnot d a s
  | .kpop d a => Sys2Proof.Machine.execKpop d a s
  | .vacr d a u => Sys2Proof.Machine.execVacr d a u s
  | .vacrRow d a j => Sys2Proof.Machine.execVacrRow d a j s
  | .vacw d a u => Sys2Proof.Machine.execVacw d a u s
  | .vacwRow d a j => Sys2Proof.Machine.execVacwRow d a j s
  | .vqpop d a => Sys2Proof.Machine.execVqpop d a s
  | .mma d a b => Sys2Proof.Machine.execMma d a b s
  | .mmas d a b => Sys2Proof.Machine.execMmas d a b s
  | .mzero d => Sys2Proof.Machine.execMzero d s
  | .mdrn d a => Sys2Proof.Machine.execMdrn d a s
  | .mchk d a b => Sys2Proof.Machine.execMchk d a b s
  | .mstat d => Sys2Proof.Machine.execMstat d s
  | .cpy a b m => Sys2Proof.Machine.execCpy a b m s
  | .cpyn a b m => Sys2Proof.Machine.execCpyn a b m s
  | .cpyp a b m => Sys2Proof.Machine.execCpyp a b m s
  | .cpym a b m => Sys2Proof.Machine.execCpym a b m s
  | .cpyg a b m => Sys2Proof.Machine.execCpyg a b m s
  | .cpyq a b m => Sys2Proof.Machine.execCpyq a b m s
  | .rngset a b => Sys2Proof.Machine.execRngset a b s
  | .rngadvRelease a b => Sys2Proof.Machine.execRngadvRelease a b s
  | .rngadvCommit a b => Sys2Proof.Machine.execRngadvCommit a b s
  | .barinit a b => Sys2Proof.Machine.execBarinit a b s
  | .barexp a b => Sys2Proof.Machine.execBarexp a b s
  | .tfetch a b => Sys2Proof.Machine.execTfetch a b s
  | .lnkSendPut a b => Sys2Proof.Machine.execLnkSendPut a b s
  | .lnkSendGet a b => Sys2Proof.Machine.execLnkSendGet a b s
  | .lnkSendAtomic a b => Sys2Proof.Machine.execLnkSendAtomic a b s
  | .lnkSendMessage a b => Sys2Proof.Machine.execLnkSendMessage a b s
  | .lnkRecv a b => Sys2Proof.Machine.execLnkRecv a b s
  | .lnkRadd a b => Sys2Proof.Machine.execLnkRadd a b s
  | .lnkRed a b => Sys2Proof.Machine.execLnkRed a b s
  | .netPost a b => Sys2Proof.Machine.execNetPost a b s
  | .netArm a b => Sys2Proof.Machine.execNetArm a b s
  | .netCqr d a => Sys2Proof.Machine.execNetCqr d a s
  | .launch d => Sys2Proof.Machine.execLaunch d s
  | .genraise d => Sys2Proof.Machine.execGenraise d s
  | .s2genraise d => Sys2Proof.Machine.execS2genraise d s
  | .bankFormatRegister d bank => Sys2Proof.Machine.execBankFormatRegister d bank s
  | .sgbase d => Sys2Proof.Machine.execSgbase d s
  | .frqs d => Sys2Proof.Machine.execFrqs d s
  | .frqh d => Sys2Proof.Machine.execFrqh d s
  | .featack0 d => Sys2Proof.Machine.execFeatack0 d s
  | .rgnctlQuery d => Sys2Proof.Machine.execRgnctlQuery d s
  | .rgnctlPreempt d => Sys2Proof.Machine.execRgnctlPreempt d s
  | .rgnctlResume d => Sys2Proof.Machine.execRgnctlResume d s
  | .nop => Sys2Proof.Machine.execNop s
  | .ret => Sys2Proof.Machine.execRet s
  | .idle => Sys2Proof.Machine.execIdle s
  | .rft => Sys2Proof.Machine.execRft s
  | .sstep => Sys2Proof.Machine.execSstep s
  | .tdone => Sys2Proof.Machine.execTdone s
  | .yield => Sys2Proof.Machine.execYield s
  | .mwait => Sys2Proof.Machine.execMwait s
  | .waitingFormRetry => Sys2Proof.Machine.execWaitingFormRetry s
  | .waitmTimeout => Sys2Proof.Machine.execWaitmTimeout s
  | .loadDataArrival => Sys2Proof.Machine.execLoadDataArrival s
  | .storePerformed => Sys2Proof.Machine.execStorePerformed s
  | .landing => Sys2Proof.Machine.execLanding s
  | .landingLate => Sys2Proof.Machine.execLandingLate s
  | .mmasFire => Sys2Proof.Machine.execMmasFire s
  | .copyChunk => Sys2Proof.Machine.execCopyChunk s
  | .trapEntry => Sys2Proof.Machine.execTrapEntry s
  | .intExt => Sys2Proof.Machine.execIntExt s
  | .preempt => Sys2Proof.Machine.execPreempt s
  | .barrierRelease => Sys2Proof.Machine.execBarrierRelease s
  | .conductorSlotSend => Sys2Proof.Machine.execConductorSlotSend s
  | .computeStepStart => Sys2Proof.Machine.execComputeStepStart s
  | .taskedBoundary => Sys2Proof.Machine.execTaskedBoundary s
  | .deadlineOver => Sys2Proof.Machine.execDeadlineOver s
  | .taskDispatch => Sys2Proof.Machine.execTaskDispatch s
  | .taskAgeing => Sys2Proof.Machine.execTaskAgeing s
  | .parkWake => Sys2Proof.Machine.execParkWake s
  | .completionRecord => Sys2Proof.Machine.execCompletionRecord s
  | .verdict => Sys2Proof.Machine.execVerdict s
  | .wqEntryLaunch => Sys2Proof.Machine.execWqEntryLaunch s
  | .leaseAcquisition => Sys2Proof.Machine.execLeaseAcquisition s
  | .pageFaultResponse => Sys2Proof.Machine.execPageFaultResponse s
  | .queueInactive => Sys2Proof.Machine.execQueueInactive s
  | .dbtail => Sys2Proof.Machine.execDbtail s
  | .wqcfg => Sys2Proof.Machine.execWqcfg s
  | .tileFill => Sys2Proof.Machine.execTileFill s
  | .tileWriteback => Sys2Proof.Machine.execTileWriteback s
  | .keyRotationEnd => Sys2Proof.Machine.execKeyRotationEnd s
  | .pageMigration => Sys2Proof.Machine.execPageMigration s
  | .multicastArrival => Sys2Proof.Machine.execMulticastArrival s
  | .gets => Sys2Proof.Machine.execGets s
  | .getm => Sys2Proof.Machine.execGetm s
  | .drop => Sys2Proof.Machine.execDrop s
  | .noticeEToM => Sys2Proof.Machine.execNoticeEToM s
  | .invalidation => Sys2Proof.Machine.execInvalidation s
  | .windowFill => Sys2Proof.Machine.execWindowFill s
  | .packageLost => Sys2Proof.Machine.execPackageLost s
  | .flitReplay => Sys2Proof.Machine.execFlitReplay s
  | .lnkDown => Sys2Proof.Machine.execLnkDown s
  | .lossBeyondReplay => Sys2Proof.Machine.execLossBeyondReplay s
  | .remoteWrite => Sys2Proof.Machine.execRemoteWrite s
  | .remoteAtomic => Sys2Proof.Machine.execRemoteAtomic s
  | .atomicResend => Sys2Proof.Machine.execAtomicResend s
  | .messageArrival => Sys2Proof.Machine.execMessageArrival s
  | .reductionDelivery => Sys2Proof.Machine.execReductionDelivery s
  | .timeMessage => Sys2Proof.Machine.execTimeMessage s
  | .circuitSlotStart => Sys2Proof.Machine.execCircuitSlotStart s
  | .packetPlacement => Sys2Proof.Machine.execPacketPlacement s
  | .selectiveAck => Sys2Proof.Machine.execSelectiveAck s
  | .retransmitTimeout => Sys2Proof.Machine.execRetransmitTimeout s
  | .sliceEnd => Sys2Proof.Machine.execSliceEnd s
  | .sliceStart => Sys2Proof.Machine.execSliceStart s
  | .graceEnd => Sys2Proof.Machine.execGraceEnd s
  | .forcedSaveComplete => Sys2Proof.Machine.execForcedSaveComplete s
  | .regionHalt => Sys2Proof.Machine.execRegionHalt s
  | .stopComplete => Sys2Proof.Machine.execStopComplete s
  | .scanSlot => Sys2Proof.Machine.execScanSlot s
  | .swap => Sys2Proof.Machine.execSwap s
  | .swapTimeout => Sys2Proof.Machine.execSwapTimeout s
  | .scanEnd => Sys2Proof.Machine.execScanEnd s
  | .memUncorr => Sys2Proof.Machine.execMemUncorr s
  | .hostMemAccess => Sys2Proof.Machine.execHostMemAccess s
  | .hostSnoop => Sys2Proof.Machine.execHostSnoop s
  | .tdispMessage => Sys2Proof.Machine.execTdispMessage s
  | .hostLinkDown => Sys2Proof.Machine.execHostLinkDown s
  | .clockPlanInstall => Sys2Proof.Machine.execClockPlanInstall s
  | .getVersion => Sys2Proof.Machine.execGetVersion s
  | .getCapabilities => Sys2Proof.Machine.execGetCapabilities s
  | .negotiateAlgorithms => Sys2Proof.Machine.execNegotiateAlgorithms s
  | .getDigests => Sys2Proof.Machine.execGetDigests s
  | .getCertificate => Sys2Proof.Machine.execGetCertificate s
  | .challenge => Sys2Proof.Machine.execChallenge s
  | .getMeasurements => Sys2Proof.Machine.execGetMeasurements s
  | .keyExchange => Sys2Proof.Machine.execKeyExchange s
  | .finish => Sys2Proof.Machine.execFinish s
  | .firmwareUpdate => Sys2Proof.Machine.execFirmwareUpdate s
  | .packageReset => Sys2Proof.Machine.execPackageReset s
  | .thermalTrip => Sys2Proof.Machine.execThermalTrip s
  | .tokenAccrual => Sys2Proof.Machine.execTokenAccrual s
  | .linkTraining => Sys2Proof.Machine.execLinkTraining s
  | .acknowledgement => Sys2Proof.Machine.execAcknowledgement s
  | .ageingReport => Sys2Proof.Machine.execAgeingReport s
  | .managementRequest => Sys2Proof.Machine.execManagementRequest s

end Sys2Proof.Machine
end

