-- ==== Sys2Proof/Machine/Issue.lean ====
section
/-!
DEFINITION. Issue of a bundle: framing and legality (R42 to R46), privilege and engine presence (R37, R71), the conditions
of issue (R48 to R51, R172, R247, R249), the front slots, and the commit with its loop-end test (R47, R53, R85); and the
execution of one slot of a back engine (R47, R54).
-/

namespace Sys2Proof.Machine

/-! ### Rows that share a word -/

/-- The kind of a link command stands in word 3 of its descriptor, in the scratchpad (R404). -/
def linkKind (s : State) (r : GReg) : Nat := fld (s.core.spad.word ((s.core.peek r).toNat + 24)) 56 3

/-- The row that an instruction is, among those that share its word (R94, R288, R403, R430, R431, R433, R436). -/
def rowOf (s : State) (i : Instr) : Instr :=
  match i with
  | .accFlip a b =>
    match fld (s.core.peek a) 0 4 with
    | 1 => .spadFlip a b
    | 2 => .sectorPoison a b
    | 3 => .tagBreak a b
    | 4 => .raise a b
    | _ => .accFlip a b
  | .ptbindCores a b =>
    match fld (s.core.peek a) 8 4 with
    | 1 => .ptbindEngines a b
    | 2 => .ptbindMemports a b
    | 3 => .ptbindQueues a b
    | 4 => .ptbindS2root a b
    | 5 => .ptbindKey a b
    | 6 => .ptbindDump a b
    | 7 => .ptbindFaper a b
    | 8 => .ptbindNaper a b
    | 9 => .ptbindPeer a b
    | 10 => .ptbindKport a b
    | 11 => .ptbindRwin a b
    | 12 => .ptbindIntr a b
    | 13 => .ptbindInj a b
    | _ => .ptbindCores a b
  | .ptquotaSlice a b =>
    match fld (s.core.peek a) 8 4 with
    | 1 => .ptquotaPrio a b
    | 2 => .ptquotaRate a b
    | 3 => .ptquotaActiveq a b
    | _ => .ptquotaSlice a b
  | .ptsealSeal a =>
    match fld (s.core.peek a) 8 2 with
    | 1 => .ptsealStop a
    | 2 => .ptsealFree a
    | _ => .ptsealSeal a
  | .rngadvRelease a b => if fld (s.core.peek a) 4 2 = 1 then .rngadvCommit a b else i
  | .lnkSendPut a b =>
    match linkKind s a with
    | 1 => .lnkSendGet a b
    | 2 => .lnkSendAtomic a b
    | 3 => .lnkSendMessage a b
    | _ => i
  | .rgnctlQuery d =>
    match fld (s.core.peek d) 16 2 with
    | 1 => .rgnctlPreempt d
    | 2 => .rgnctlResume d
    | _ => i
  | i => i

/-! ### Legality (R44 to R46) -/

/-- The slots of a list of marks, as TMASK has them. -/
def maskOf : List Bool → Nat
  | [] => 0
  | b :: r => (if b then 1 else 0) + 2 * maskOf r

/-- The limit of each class of slot (R44). -/
def classLimit : UnitClass → Nat
  | .s => 1
  | .a => 2
  | .v => 2
  | .m => 1
  | .c => 2
  | .step => 0

/-- Slots whose U is lower than that of the slot before (R44). -/
def orderMarks : Nat → List Use → List Bool
  | _, [] => []
  | u, x :: r => decide (x.unit.code < u) :: orderMarks x.unit.code r

/-- Slots beyond the permitted count of their class, given the slots before (R44). -/
def countMarks (seen : List UnitClass) : List Use → List Bool
  | [] => []
  | x :: r => decide (classLimit x.unit ≤ seen.count x.unit) :: countMarks (x.unit :: seen) r

/-- What a slot writes, for the duplicate rule: g but g0, v, k but k0, loop levels (R44). -/
def Use.dests (u : Use) : List Nat :=
  (u.gw.filter (· ≠ 0)).map (·.toNat) ++ u.vw.map (fun r => 64 + r.toNat) ++ (u.kw.filter (· ≠ 0)).map (fun r => 128 + r.toNat)
    ++ u.lvl.map fun r => 144 + r.toNat

/-- Slots that share a name with another slot. -/
def sharedMarks (l : List (List Nat)) : List Bool :=
  l.zipIdx.map fun (x : List Nat × Nat) => x.1.any fun n => l.zipIdx.any fun (y : List Nat × Nat) => decide (y.2 ≠ x.2) && y.1.contains n

/-- The slot at which a count exceeds its limit, and every later slot that counts (R44). -/
def portMarks (limit : Nat) : Nat → List Nat → List Bool
  | _, [] => []
  | sum, n :: r => (decide (n ≠ 0) && decide (limit < sum + n)) :: portMarks limit (sum + n) r

/-- Marks of two rules together. -/
def orMarks (a b : List Bool) : List Bool := a.zipWith (· || ·) b

/-- The offending slots of a bundle without reserved encodings (R44). -/
def offending (us : List Use) (ended : Bool) : List Bool :=
  [orderMarks 0 us, countMarks [] us, us.map fun _ => !ended, sharedMarks (us.map Use.dests),
   sharedMarks (us.map fun u => u.acc.map (·.toNat)), sharedMarks (us.map fun u => u.rq.map (·.toNat)),
   portMarks 6 0 (us.map fun u => u.gr.length), portMarks 3 0 (us.map fun u => u.gw.length),
   portMarks 6 0 (us.map fun u => u.vr.length), portMarks 3 0 (us.map fun u => u.vw.length)].foldl
    orMarks (us.map fun _ => false)

/-- A bundle as fetched: its words, and what each decodes to. -/
abbrev Bundle := List (SlotWord × Except Illegal Instr)

/-- Decode fetched words. -/
def readBundle (ws : List SlotWord) : Bundle := ws.map fun w => (w, decodeSlot w)

/-- A slot is a reserved encoding. -/
def reserved (x : SlotWord × Except Illegal Instr) : Bool :=
  match x.2 with
  | .ok _ => false
  | .error _ => true

/-- The instruction of a slot; a reserved one never gets so far. -/
def instrOf (x : SlotWord × Except Illegal Instr) : Instr :=
  match x.2 with
  | .ok i => i
  | .error _ => .nop

/-- The cause and the marks of an illegal bundle (R46). -/
def illegal (b : Bundle) (ended : Bool) : Option (Nat × List Bool) :=
  let res := b.map reserved
  if res.any id then some (0x001, res)
  else
    let off := offending (b.map fun x => use (instrOf x)) ended
    if off.any id then some (0x002, off) else none

/-! ### Privilege and engines (R37, R71, R428) -/

/-- The special register that a slot reads or writes, and whether it writes. -/
def registerOf : Instr → Option Nat
  | .rdsr _ n => some n.toNat
  | .wrsr _ n => some n.toNat
  | .launch _ => some 0x187
  | .sgbase _ => some 0x185
  | .genraise _ => some 0x205
  | .s2genraise _ => some 0x20A
  | .bankFormatRegister _ n => some (0x800 + n.toNat)
  | .frqs _ => some 0x050
  | .frqh _ => some 0x051
  | .featack0 _ => some 0x304
  | .rgnctlQuery _ => some 0x30B
  | _ => none

/-- A slot uses an opcode or a register above its permitted level, or XINJ where injection is off (R37, R94). -/
def unprivileged (s : State) (i : Instr) : Bool :=
  decide (leastLevel i < s.core.level)
    || (match registerOf i with
        | some n => srDefined s n && decide (srLevel n < s.core.level.toNat)
        | none => false)
    || (match i with
        | .accFlip _ _ => !(s.part s.core.part).inj
        | _ => false)

/-- The features that an opcode needs, any one of each list (R428). Log 64, DEDUCED. -/
def features : Instr → List (List Nat)
  | .wdecl _ _ _ | .wdrop _ | .acqt _ _ | .relt _ _ | .tfetch _ _ => [[0]]
  | .lnkSendPut _ _ | .lnkRecv _ _ | .lnkRadd _ _ => [[1, 2]]
  | .lnkRed _ _ => [[1, 2], [3]]
  | .netPost _ _ | .netArm _ _ | .netCqr _ _ => [[4]]
  | _ => []

/-- The slot's engine is absent: the partition lacks it, the region leaves it out, or its feature is not accepted (R71, R173, R428). Log 39, DEDUCED. -/
def engineAbsent (s : State) (i : Instr) : Bool :=
  (match engineBit i with
    | some n => (match (s.part s.core.part).engines with | some e => !e.getLsbD n | none => false)
        || (match s.myRegion with | some r => !(r.engines / 2 ^ n % 2 == 1) | none => false)
    | none => false)
    || (features i).any fun l => !(l.any fun n => s.featack.getLsbD n)

/-! ### Conditions of issue (R48, R49, R51, R249, R259) -/

/-- A later bundle that uses a g or k register which a queued slot will write waits (R48). -/
def pendingRegs (c : Core) (us : List Use) : Bool :=
  c.queued.any fun q =>
    let w := use q.instr
    us.any fun u => (w.gw.any fun r => decide (r ≠ 0 ∧ r ≠ 63) && (u.gr.contains r || u.gw.contains r))
      || (w.kw.any fun r => decide (r ≠ 0) && (u.kr.contains r || u.kw.contains r))

/-- A front slot reads a v register that a queued slot will write (R48). -/
def pendingV (c : Core) (us : List Use) : Bool :=
  us.any fun u => decide (u.unit = .a) && u.vr.any fun r => decide (r ≠ 63) && c.veq.flatten.any fun q => (use q.instr).vw.contains r

/-- Each engine that the bundle uses has a free entry (R31, R49). -/
def enginesFree (c : Core) (us : List Use) : Bool :=
  let any (u : UnitClass) : Bool := us.any fun x => decide (x.unit = u)
  !(any .v && decide (16 ≤ c.veq.length)) && !(any .m && decide (8 ≤ c.meq.length)) && !(any .c && decide (16 ≤ c.ceq.length))

/-- A bank is held by the other engine (R249). Log 34, DEDUCED. -/
def bankHeld (c : Core) (is : List Instr) : Bool :=
  is.any fun i => match namedBank i with
    | some b => if (use i).unit = .v then namesBank c.meq b else namesBank c.veq.flatten b
    | none => false

/-- The bundle waits before any slot acts. -/
def heldBack (c : Core) (is : List Instr) : Bool :=
  let us := is.map use
  pendingRegs c us || pendingV c us || !enginesFree c us || bankHeld c is
    || c.meq.any fun q => decide (q.instr = .mwait)

/-! ### Front slots -/

/-- What the front slots of a bundle come to. -/
inductive Front where
  /-- every slot acts -/
  | go (s : State)
  | stall
  /-- a slot waits: the state before it and the state it leaves -/
  | wait (before after' : State)
  | trapped (t : Trap)
  /-- a fault or refusal of a meaning -/
  | out (o : Outcome)

/-- Several slots trap: the lowest gives the cause, all are marked (R53). -/
def mergeTrap (best : Option Trap) (t : Trap) : Trap :=
  match best with
  | none => t
  | some b => if b.tpc = t.tpc then { b with tmask := b.tmask ||| t.tmask } else b

/-- QUEUE_STUCK is the bundle's own trap: R50 names its queue and no slot, so TMASK marks none (R314). Log 10, DEDUCED. -/
def bundleMarks (t : Trap) : Trap := if t.code = 0x005 then { t with tmask := 0 } else t

/-- Run a slot at its place. -/
def State.atSlot (s : State) (n : Nat) : State := { s with core := { s.core with curSlot := n, mark := .ok } }

/-- A front slot: its meaning, or LOOP_END_CTL in a loop-end bundle (R86). -/
def frontSlot (n : Nat) (i : Instr) (s : State) : Outcome :=
  let s := s.atSlot n
  if isTransfer i && s.core.loops.endsAt s.core.pc then trap 0x007 0 0 s else exec (rowOf s i) s

/-- Run the front slots in order (R47, R53). -/
def runFront : List (Nat × Instr) → Option Trap → State → Front
  | [], none, s => .go s
  | [], some t, _ => .trapped t
  | (n, i) :: r, best, s =>
    match frontSlot n i s with
    | .next s' =>
      match s'.core.mark with
      | .ok => runFront r best s'
      | .stall => .stall
      | .wait => if best.isSome then runFront r best s else .wait s s'
      | .trap t => runFront r (some (mergeTrap best (bundleMarks t))) s
    | o => .out o

/-! ### Back slots at issue (R48, R51, R172, R253) -/

/-- The g and k values that a queued slot takes along (R48). -/
def sources (c : Core) (i : Instr) : List (GReg × Word) × List (KReg × MaskWord) :=
  (((use i).gr.filter (· ≠ 63)).map fun r => (r, c.gVal r), (use i).kr.map fun r => (r, c.kVal r))

/-- Take the n-th entry of the scalar load-data queue for an M slot: the entries before it belong to V slots of its bundle. -/
def popNth (n : Nat) (s : State) (k : Word → State → Outcome) : Outcome :=
  match s.core.sldq[n]? with
  | none => trap 0x005 1 0 s
  | some e =>
    match e.val with
    | none => (match s.core.stuckStore e.id with
      | some q => trap 0x005 (word q) 0 s
      | none => stall s)
    | some w =>
      if e.poison then trap 0x01A e.addr 0 s
      else k w { s with core := { s.core with sldq := s.core.sldq.eraseIdx n } }

/-- Take `m` entries from place n on. -/
def popMany (n : Nat) : Nat → State → (List Word → State → Outcome) → Outcome
  | 0, s, k => k [] s
  | m + 1, s, k => popNth n s fun w s => popMany n m s fun ws s => k (w :: ws) s

/-- The queue that a queued slot can never be served from, if any (R50, R172): the first of vector load-data, scalar load-data, scalar store-data
and vector store-data where several are. Log 86, DESIGN CHOICE. -/
def neverServed (c : Core) : Option Nat :=
  if c.vldq.length < c.vPops then some 2
  else if c.sldq.length < c.gPops then some 1
  else if 32 + c.unpairedStores false < c.ssdq.length + c.gPushes then some 3
  else if 16 + c.unpairedStores true < c.vsdq.length + c.vPushes then some 4
  else none

/-- Put a slot at the tail of its engine's queue, into the entry of its bundle (R47). -/
def Core.enqueue (c : Core) (q : QSlot) : Core :=
  let put (l : List (List QSlot)) : List (List QSlot) :=
    match l.getLast? with
    | some e => if e.any fun (x : QSlot) => decide (x.seq = q.seq) then l.dropLast ++ [e ++ [q]] else l ++ [[q]]
    | none => [[q]]
  match (use q.instr).unit with
  | .v => { c with veq := put c.veq }
  | .m => { c with meq := c.meq ++ [q] }
  | _ => { c with ceq := put c.ceq }

/-- Bytes that stand for the window tiles that the M slot just queued will read (R381). -/
def tilesRead (c : Core) : List Nat :=
  match c.meq.getLast?.bind (queuedOps c) with
  | some o => o.reads.flatMap fun (p : Piece) => probes p.at' p.len
  | none => []

/-- Registers that a WRSR has changed and that a back slot of its bundle still goes by: VSTAT, MXSTAT and the bank formats, with the values they
had (R89, R91, R211). -/
def oldRegs (old new : Core) : List (Nat × Word) :=
  (if old.vstat = new.vstat then [] else [(0x100, old.vstat)])
    ++ (if old.mxstat = new.mxstat then [] else [(0x110, old.mxstat)])
    ++ ((List.finRange 384).filter fun i => old.bf.get i != new.bf.get i).map fun i => (0x800 + i.val, old.bf.get i)

/-- The registers that a WRSR may change and that other slots of its bundle go by, as another core value has them (R89). -/
def Core.withRegs (c from' : Core) : Core :=
  { c with vstat := from'.vstat, bf := from'.bf, heapbase := from'.heapbase, heaplim := from'.heaplim, heapoff := from'.heapoff,
           ptroot := from'.ptroot, febudget := from'.febudget, pfqbase := from'.pfqbase, asid := from'.asid, s2root := from'.s2root, keysel := from'.keysel }

/-- Issue one back slot into its queue; `before` counts the g63 pops that were queued before the bundle, `olds` holds what a WRSR of the bundle
has changed. A LNK or NET slot in a compute step is UNTIMED_ACCESS (R178). Log 63, DEDUCED. -/
def backSlot (before : Nat) (olds : List (Nat × Word)) (n : Nat) (i : Instr) (s : State) : Outcome :=
  let s := s.atSlot n
  if (isLink i || isNet i) && s.inCompute then trap 0x015 0 0 s
  else
  let src := sources s.core i
  let pops := if (use i).unit = .m then ((use i).gr.filter (· = 63)).length else 0
  if pops ≠ 0 ∧ before ≠ 0 then stall s
  else popMany (s.core.gPops - before) pops s fun ws s =>
    let gsrc := ws.map (fun w => ((63 : GReg), w)) ++ src.1
    match bankFault { s with core := { s.core with early := gsrc ++ s.core.early } } i with
    | some (code, v, v2) => trap code v v2 s
    | none =>
      let c := s.core.enqueue { instr := i, bundle := s.core.pc, slot := n, seq := s.core.seq, gsrc := gsrc, ksrc := src.2,
                                olds := olds, ctx := if (use i).unit = .c then s.core.issued else [] }
      match neverServed c with
      | some q => trap 0x005 (word q) 0 s
      | none => throughWindows false ((if (use i).unit = .m then tilesRead c else []).map fun a => (a, word a, 0)) s fun s => done { s with core := c }

/-- Issue the back slots in order. -/
def runBack (before : Nat) (olds : List (Nat × Word)) : List (Nat × Instr) → Option Trap → State → Front
  | [], none, s => .go s
  | [], some t, _ => .trapped t
  | (n, i) :: r, best, s =>
    match backSlot before olds n i s with
    | .next s' =>
      match s'.core.mark with
      | .ok => runBack before olds r best s'
      | .trap t => runBack before olds r (some (mergeTrap best (bundleMarks t))) s
      | .wait => if best.isSome then runBack before olds r best s else .wait s s'
      | .stall => .stall
    | o => .out o

/-! ### Issue -/

/-- The committed trap of this bundle learns its addresses and its count (R53, R92, R95). -/
def Core.fillPend (c : Core) (next : Word) : Core :=
  { c with pend := c.pend.map fun (t : Trap) =>
      if t.committed then { t with tpc := next, tnpc := next, tinfo := setFld t.tinfo 40 24 c.seq } else t }

/-- The bundle commits: the loop-end test selects the next bundle (R47, R85). It sees the levels that an RFT of the bundle has restored. Log 71, DEDUCED. -/
def commit (s : State) : State :=
  let c := s.core
  let (loops, next) := loopEnd c.pc c.loops.order c.loops c.next
  let c := { c with loops := loops, pc := next, seq := c.seq + 1, early := [], earlyK := [], mine := [], mark := .ok, splitNow := none, curSlot := 0 }
  { s with core := c.fillPend next }

/-- The state that a waiting slot leaves: nothing of the bundle, but what the wait has noted (R118). -/
def keepNotes (s before after' : State) : State :=
  { s with
    todo := s.todo ++ after'.todo.drop before.todo.length,
    timers := s.timers ++ after'.timers.drop before.timers.length,
    buckets := after'.buckets, asids := after'.asids, parts := after'.parts,
    core := { s.core with run := if after'.core.run = before.core.run then s.core.run else after'.core.run, mark := .wait } }

/-- A precise trap of the bundle, with its own marks. -/
def bundleTrap (code : Nat) (tval tval2 : Word) (mask : Nat) (s : State) : Outcome :=
  let t := { s.preciseTrap code tval tval2 with tmask := word mask }
  done (takeTrap t s)

/-- MASPLIT.ARM is cleared as a bundle issues and splits its slot; the bundle of the RFT with which a handler returns leaves ARM to the bundle it
returns to (R124). Log 72, DEDUCED. -/
def Core.armSplit (c : Core) (is : List Instr) : Core :=
  if c.masplit.getLsbD 3 && !is.contains .rft then { c with masplit := c.masplit &&& 0x7, splitNow := some (fld c.masplit 0 3) }
  else { c with splitNow := none }

/-- The tile of a synchronising access is brought in before its bundle runs, so that a failed tag check stands whatever becomes of the bundle
(R118, R218, R232). -/
def touchSync (i : Instr) (s : State) : State :=
  let at' (r : GReg) (imm : BitVec 9) (rd wr : Bool) : State :=
    let ea := s.core.peek r + 8 * sext9 imm
    match s.translate ea.toNat rd wr false with
    | .ok pa => if s.inCompute || ea.toNat % 8 ≠ 0 then s else s.touchRange pa 8
    | .error _ => s
  match i with
  | .ldw _ a imm true | .feq _ a imm true => at' a imm true false
  | .ldc _ a imm true | .stf _ a imm true => at' a imm true true
  | .sts _ a imm true | .feset a imm true | .feclr a imm true => at' a imm false true
  | _ => s

/-- What the front slots before the others, and then all others, make of a bundle: the S slot runs first; the other slots go by the registers
as they were before a WRSR of it (R47, R89). -/
def runSlots (before : Nat) (slots : List (Nat × Instr)) (s : State) : Front :=
  let ofUnit (u : UnitClass) (x : Nat × Instr) : Bool := decide ((use x.2).unit = u)
  match runFront (slots.filter (ofUnit .s)) none s with
  | .go s1 =>
    let back (f : Front) : Front :=
      match f with
      | .go s' => if slots.any (ofUnit .s) then .go { s' with core := s'.core.withRegs s1.core } else .go s'
      | f => f
    match runFront (slots.filter (ofUnit .a)) none { s1 with core := s1.core.withRegs s.core } with
    | .go s2 => back (runBack before (oldRegs s.core s1.core) (slots.filter fun x => !ofUnit .s x && !ofUnit .a x) none s2)
    | f => f
  | .trapped t => runFront (slots.filter (ofUnit .a)) (some t) s
  | f => f

/-- Run a legal bundle (R47 to R53). A trap, a stall and a wait leave the state before the bundle. Log 67, DEDUCED. -/
def issueBundle (is : List Instr) (s : State) : Outcome :=
  if heldBack s.core is then stall s
  else
    let s := is.foldl (fun s i => touchSync i s) s
    let s0 : State := { s with core := { s.core with curLen := is.length, early := [], earlyK := [], olds := [], mine := [], mark := .ok } }
    let s1 : State := { s0 with core := { s0.core.armSplit is with next := s0.sequential } }
    match runSlots s0.core.gPops (is.zipIdx.map fun (x : Instr × Nat) => (x.2, x.1)) s1 with
    | .go s' => done (commit s')
    | .stall => stall s
    | .wait a b => .next (keepNotes s0 a b)
    | .trapped t => done (takeTrap t { s0 with core := { s0.core with masplit := s1.core.masplit } })
    | .out o => o

/-- The checks of R71 in order, then the bundle. -/
def issueChecked (b : Bundle) (ended : Bool) (s : State) : Outcome :=
  match illegal b ended with
  | some (code, marks) =>
    bundleTrap code (((b.zip marks).find? fun x => x.2).elim 0 fun x => x.1.1.setWidth 64) (word b.length) (maskOf marks) s
  | none =>
    let is := b.map instrOf
    let priv := is.map (unprivileged s)
    let absent := is.map (engineAbsent s)
    if priv.any id then
      -- a special register of a level above gives its number (R90)
      let n := (((is.zip priv).find? fun x => x.2).bind fun x => registerOf x.1).getD 0
      bundleTrap 0x003 (word n) 0 (maskOf priv) s
    else if absent.any id then bundleTrap 0x004 0 0 (maskOf absent) s
    else issueBundle is s

/-- The bytes of the bundle have come: a cache in front of the last-level cache holds them, or its ports serve the request of a context with
tokens. Which it is the spec leaves open (R217, R233). Log 88, DESIGN CHOICE. -/
def fetched (s : State) (n : Nat) : Option State :=
  if s.buckets.all fun b => decide (b.ctx ≠ s.core.asid) then some s
  else match s.translateRuns false false true 0 (pageRuns s.core.pc.toNat n) with
    | .error _ => some s
    | .ok ps => if Config.pick s.free % 2 = 0 then some s else served s ps

/-- Issue the bundle at the bundle address: fetch, check, run (R42, R71, R219, R233). -/
def issue (s : State) : Outcome :=
  let s := fetchTouch 8 s.core.pc.toNat s
  match frame s s.core.pc.toNat 8 with
  | .error (code, va) => bundleTrap code (word va) 0 0 s
  | .ok (ws, ended) =>
    match fetched s (4 * ws.length) with
    | none => stall s
    | some s => issueChecked (readBundle ws) ended s

/-! ### Back engines (R47, R54) -/

/-- Take the executed slot out of the vector queue; the entry leaves with its last slot. -/
def Core.doneV (c : Core) : Core :=
  match c.veq with
  | (_ :: []) :: r => { c with veq := r, earlyV := [], vbusy := false }
  | (_ :: l) :: r => { c with veq := l :: r, vbusy := true }
  | _ => c

/-- Take the accepted slot out of the copy queue. -/
def Core.doneC (c : Core) : Core :=
  match c.ceq with
  | (_ :: []) :: r => { c with ceq := r }
  | (_ :: l) :: r => { c with ceq := l :: r }
  | _ => c

/-- Execute a queued slot: a stall changes nothing, a wait keeps its notes, else the slot leaves its queue. A C slot goes by the context that it
issued with (R89). -/
def backStep (q : QSlot) (gone : Core → Core) (s : State) : Outcome :=
  let s1 : State := { s with core := (s.core.enter q).under q.ctx }
  let restored (c : Core) : Core := c.leave.underOf s.core
  match exec (rowOf s1 q.instr) s1 with
  | .next s2 =>
    match s2.core.mark with
    | .ok => .next { s2 with core := gone (restored s2.core) }
    | .stall => stall s
    | _ => .next { s2 with core := restored s2.core }
  | o => o

/-- The slot at the head of the vector engine's queue. -/
def stepV (s : State) : Outcome :=
  match s.core.veq with
  | (q :: _) :: _ => backStep q Core.doneV s
  | _ => stall s

/-- The slot at the head of the matrix engine's queue. -/
def stepM (s : State) : Outcome :=
  match s.core.meq with
  | q :: r => backStep q (fun c => { c with meq := r }) s
  | _ => stall s

/-- The slot at the head of the copy engine's queue is accepted. -/
def stepC (s : State) : Outcome :=
  match s.core.ceq with
  | (q :: _) :: _ => backStep q Core.doneC s
  | _ => stall s

end Sys2Proof.Machine
end

