-- ==== Sys2Proof/Machine/Schedule.lean ====
section
/-!
DEFINITION. Which unit acts next: the units that can act, one of which does (R47, R103, R267), and the passing of time (R176,
R180, R181, R367, R399).
-/

namespace Sys2Proof.Machine

/-! ### Units that may act -/

/-- A unit of the package that may act. -/
inductive Act where
  /-- the front engines of a core issue its next bundle -/
  | issue (core : Nat)
  /-- the slot at the head of a back engine's queue of a core: 0 vector, 1 matrix, 2 copy -/
  | back (core engine : Nat)
  /-- a step that some unit does on its own -/
  | own (d : Due)
  /-- the n-th step that is due -/
  | todo (n : Nat)
  /-- the n-th timer -/
  | timer (n : Nat)
  /-- the oldest message from the surroundings that can be taken -/
  | message
  /-- the next frame of a link command, the next packet of a network request -/
  | frame (id : Nat)
  | packet (id : Nat)
deriving DecidableEq, Repr

/-- The core may issue now (R88, R120, R180, R191). -/
def State.mayIssue (s : State) (c : Core) : Bool :=
  !c.entryDue && !s.frozen c
    && (match c.run with
        | .running | .raising _ _ | .barwt => true
        | .feWait _ t => decide (t ≤ s.clk)
        | .waitm m u _ => decide (u ≤ s.clk) || watchMask c m (fun w => decide (w.reason ≠ 0)) ≠ 0
        | _ => false)

/-- The instruction that completes a wait which has committed (R182, R185, R188). -/
def leaveInstr (how : Nat) : Instr :=
  match how with
  | 0 => .tdone
  | 1 => .yield
  | _ => .park 0

/-- The acts of one core. -/
def coreActs (s : State) (c : Core) : List Act :=
  let id := c.id
  let own (i : Instr) (n : Nat := 0) : Act := .own { instr := i, core := id, args := { n := n } }
  let engines := c.run.active && !s.frozen c
  (if s.mayIssue c then [.issue id] else [])
    ++ (if c.entryDue && c.drained && !s.frozen c then [own .trapEntry] else [])
    ++ (if engines && !c.veq.isEmpty then [.back id 0] else [])
    ++ (if !engines then [] else match c.meq with
        | [] => []
        | q :: _ => (match q.instr with | .mmas _ _ _ => [own .mmasFire] | _ => [.back id 1]))
    ++ (if engines && !c.ceq.isEmpty then [.back id 2] else [])
    ++ ((c.laq.filter c.eligible).map fun e => own (if e.kind = .store then .storePerformed else .loadDataArrival) e.id)
    ++ (if c.run = .stopped then [] else (c.copies.filter fun (x : CopyCmd) => x.cond || !s.frozen c).map fun (x : CopyCmd) => own .copyChunk x.id)
    ++ (match c.run with
        | .leaving how _ => if ({ s with core := c } : State).mayLeave then [own (leaveInstr how)] else []
        | .free => if (nextTask s c).isSome then [own .taskDispatch] else []
        | _ => [])

/-- Words that are being written; a frozen core's copy engine stops but for the conductor's transfers (R180, R299,
R405, R422). Log 79, DEDUCED. -/
def flightActs (s : State) : List Act :=
  (s.flights.filter fun f => decide (f.path ≠ .copy) || f.cond || !s.frozen (s.coreAt f.core)).map fun f =>
    .own { instr := .copyChunk, core := f.core, args := { n := f.no, flag := true } }

/-- Some core has landing data whose cycle has come (R180). -/
def landingDue (c : Core) : Bool := c.landBuf.any fun l => decide (l.cycle.toNat ≤ c.stepclk.toNat)

/-- Places of a list that satisfy a test. -/
def places {α : Type} (l : List α) (p : α → Bool) : List Nat := (l.zipIdx.filter fun x => p x.1).map (·.2)

/-- A step that a unit of the package does on its own. -/
def ownAct (i : Instr) (n : Nat) (m : Nat := 0) : Act := .own { instr := i, args := { n := n, m := m } }

/-- Steps of a region that are bound to their clk: the conductor's, and the start of a compute step (R177, R179). -/
def timedActs (r : Region) : List Act :=
  if !r.scheduled || !r.live then []
  else (if r.inComm && r.endT.isNone then [ownAct .conductorSlotSend r.id] else [])
    ++ (if r.unsent.any (slotDue r) then [ownAct .conductorSlotSend r.id 1] else [])
    ++ (if r.inComm && r.endT.any fun t => decide (t ≤ r.time) then [ownAct .computeStepStart r.id] else [])

/-- Acts of one core whose clk has come: landing data, the retry of a synchronising access, the end of a freeze that lasts too long, a store or
load that has been passed over for long enough, and the rest of a vector entry that a stop found begun (R120, R180, R200, R331). -/
def dueActs (s : State) (c : Core) : List Act :=
  let own (i : Instr) (n : Nat := 0) : Act := .own { instr := i, core := c.id, args := { n := n } }
  (if landingDue c then [own .landing] else [])
    ++ (match c.run with
        | .feWait _ t => if decide (t ≤ s.clk) && s.mayIssue c then [.issue c.id] else []
        | .stopped => if c.vbusy then [.back c.id 0] else []
        | _ => [])
    ++ (match c.freeze with
        | some t => if c.freezeLimit < s.clk - t then [own .landingLate] else []
        | none => [])
    ++ ((c.laq.filter fun e => c.eligible e && decide (e.born + Config.patience ≤ s.free)).map fun e =>
          own (if e.kind = .store then .storePerformed else .loadDataArrival) e.id)

/-- The clock that a timer runs on: clk for the waits of a core, package time for what the spec gives in µs or ms (R120, R191, R367). -/
def State.timeOf (s : State) (i : Instr) : Nat :=
  match i with
  | .waitingFormRetry | .waitmTimeout => s.clk
  | _ => s.pktime

/-- A message from a home to a core: those to one core are taken in the order sent (R383). -/
def Due.toCore (d : Due) : Bool := decide (d.instr = .windowFill) || decide (d.instr = .invalidation)

/-- A halt, or a deadline that has run out: it takes effect at once (R181, R340). -/
def Due.halts (d : Due) : Bool := decide (d.instr = .regionHalt) || decide (d.instr = .deadlineOver)

/-- Place n of the due steps is not behind an earlier message to the same core. -/
def inTurn (s : State) (n : Nat) : Bool :=
  match s.todo[n]? with
  | some d => !d.toCore || !((s.todo.take n).any fun e => e.toCore && decide (e.core = d.core))
  | none => false

/-- Acts that come before every other and take no time: those of `dueActs`, region halts, a region's timed steps, timers that have run out,
tasks that have aged, and tokens that have accrued (R177, R179 to R181, R186, R234, R340). -/
def firstActs (s : State) : List Act :=
  s.allCores.flatMap (dueActs s)
    ++ (places s.todo Due.halts).map Act.todo
    ++ s.regions.flatMap timedActs
    ++ (places s.timers fun d => decide (d.at' ≤ s.timeOf d.instr)).map Act.timer
    ++ ((s.tasks.filter s.aged).map fun t => ownAct .taskAgeing t.id)
    ++ (s.buckets.filter fun b => decide (clkPerMicro ≤ b.credit)).map fun b => ownAct .tokenAccrual b.port b.ctx

/-- What the launch engine, the couching engine and the barrier may do for a region (R177, R194, R226, R330, R331, R339). -/
def regionActs (s : State) (r : Region) : List Act :=
  match r.state with
  | .acquiring _ _ | .waitingCores => [ownAct .leaseAcquisition r.id]
  | .pageFault _ _ pa =>
    if s.mem.word (pa + 24) = 1 ∨ s.mem.word (pa + 24) = 2 then [ownAct .pageFaultResponse r.id] else []
  | .running | .requested _ =>
    (if barrierReady s r then [ownAct .barrierRelease r.id] else [])
      ++ (if atBoundary' s r then [ownAct .taskedBoundary r.id] else [])
  | .saving | .halting => [ownAct .forcedSaveComplete r.id]
  | .saved _ => if r.resumeDue then [ownAct .sliceStart r.id 1] else []
  | .complete => []

/-- What a partition may do (R435, R437). -/
def partActs (s : State) (n : Nat) : List Act :=
  let p := s.part n
  (if p.stopDue then [ownAct .stopComplete n] else [])
    ++ (if p.sliced && decide (p.st = .sealed) && (!p.holds || p.ending) then [ownAct .sliceStart n] else [])

/-- What the units of the vat die and the deckle dies may do (R291, R350, R354, R376, R404, R409, R422, R439). -/
def packageActs (s : State) : List Act :=
  ((s.mcasts.map fun (m : Mcast) => m.core).eraseDups.map fun c => .own { instr := .multicastArrival, core := c })
    ++ (s.links.map fun l => .frame l.id) ++ (s.nets.map fun r => .packet r.id)
    ++ ((s.ports.filter fun x => decide (x.2.mode = 2)).map fun x => ownAct .circuitSlotStart x.1)
    ++ (s.active.map fun q => ownAct .wqEntryLaunch q)
    ++ ((List.range 8).filter fun d => ((s.scans.toList.getD d {}).pick).isSome).map (fun d => ownAct .swap d)
    ++ (if s.migs.isEmpty then [] else [ownAct .pageMigration 0])
    ++ (if s.planDue.isSome then [ownAct .clockPlanInstall 0] else [])

/-- Every other act. -/
def otherActs (s : State) : List Act :=
  s.allCores.flatMap (coreActs s)
    ++ flightActs s
    ++ s.regions.flatMap (regionActs s)
    ++ (List.range 64).flatMap (partActs s)
    ++ packageActs s
    ++ (if s.inbox.isEmpty then [] else [.message])
    ++ ((places s.todo fun d => !d.halts).filter (inTurn s)).map Act.todo
    ++ (if s.wakes.isEmpty then [] else [.own { instr := .parkWake }])

/-- Run a step of the package on its core with its operands. -/
def runDue (d : Due) (s : State) : Outcome :=
  let s := s.focus d.core
  exec d.instr { s with args := d.args, core := { s.core with mark := .ok } }

/-- Messages that the package takes before its firmware has booted: the management requests and a reset (R445, R447). -/
def beforeBoot (i : Instr) : Bool := decide (i = .managementRequest ∨ i = .firmwareUpdate ∨ i = .packageReset ∨ i = .thermalTrip)

/-- The oldest message from place n on that can be taken; one that comes before the firmware has booted may find nobody (R445). Log 3, DEDUCED. Log 48, DESIGN CHOICE. -/
def takeMessage : Nat → Nat → State → Outcome
  | 0, _, s => stall s
  | k + 1, n, s =>
    match s.inbox[n]? with
    | none => stall s
    | some d =>
      if !s.boot.isUp && !beforeBoot d.instr then done { s with inbox := s.inbox.eraseIdx n }
      else match runDue d { s with inbox := s.inbox.eraseIdx n } with
      | .next s' => if s'.core.mark = .stall then takeMessage k (n + 1) s else .next s'
      | o => o

/-- An act whose turn has come; a stall says that it cannot act yet. -/
def perform' (a : Act) (s : State) : Outcome :=
  match a with
  | .issue c => issue ({ s.focus c with core := { (s.focus c).core with mark := .ok } })
  | .back c e => (match e with | 0 => stepV | 1 => stepM | _ => stepC) (s.focus c)
  | .own d => runDue d s
  | .todo n => match s.todo[n]? with
    | some d => runDue d { s with todo := s.todo.eraseIdx n }
    | none => stall s
  | .timer n => match s.timers[n]? with
    | some d => runDue d { s with timers := s.timers.eraseIdx n }
    | none => stall s
  | .message => takeMessage s.inbox.length 0 s
  | .frame id => sendFrame id s
  | .packet id => sendPacket id s

/-- The outcomes of the acts that can act. -/
def able (s : State) : List Act → List Outcome
  | [] => []
  | a :: r =>
    match perform' a s with
    | .next s' => if s'.core.mark = .stall then able s r else .next s' :: able s r
    | o => o :: able s r

/-! ### Time -/

/-- The next landing cycle that a core waits for. -/
def nextArrival (c : Core) : Option Nat :=
  ((c.laq.filterMap fun e => e.arrival.map BitVec.toNat).filter fun a => decide (c.stepclk.toNat ≤ a)).min?

/-- The region whose deadline and steps count for a core: one that is live. Log 40, DEDUCED. -/
def State.counted (s : State) (c : Core) : Option Region := (c.region.bind s.region?).filter Region.live

/-- The clk of a communication step goes up to its end (R177). -/
def Region.stepTo (r : Region) (t : Nat) : Nat := match r.endT with | some e => max r.time (min t e) | none => t

/-- A core's counts: DLREG, and STEPCLK, which stops at the end of a communication step, at a landing cycle whose data is not there,
and while the core is frozen (R176, R177, R180, R181). -/
def Core.tick (s : State) (n : Nat) (c : Core) : Core :=
  match s.counted c with
  | none => c
  | some r =>
    let c := { c with dlreg := if r.deadline ≠ 0 then word (c.dlreg.toNat - n) else c.dlreg }
    if !r.scheduled then c
    else if r.inComm then { c with stepclk := word (r.stepTo (r.time + n)) }
    else if s.frozen c then { c with freeze := some (c.freeze.getD s.clk) }
    else
      let c := c.thaw s.clk
      let t := c.stepclk.toNat + n
      { c with stepclk := word (match nextArrival c with | some a => min t a | none => t) }

/-- The DLREG of cores that a live region has lent, and the clk of its communication step (R177, R181). -/
def Region.tick (n : Nat) (r : Region) : Region :=
  if !r.live then r
  else
    let r := { r with left := if r.deadline = 0 then r.left else r.left - n }
    if r.scheduled && r.inComm then { r with time := r.stepTo (r.time + n) } else r

/-- A deadline that this tick uses up, at a core of the region or at one that it has lent (R181, R194). -/
def deadlines (s : State) (n : Nat) : List Due :=
  (s.allCores.filterMap fun c =>
    match s.counted c with
    | some r =>
      if r.deadline ≠ 0 ∧ c.dlreg ≠ 0 ∧ c.dlreg.toNat ≤ n then some { instr := .deadlineOver, core := c.id, args := { n := r.id } } else none
    | none => none)
    ++ (s.regions.filter fun r => r.live && s.lends r && decide (r.deadline ≠ 0 ∧ r.left ≠ 0 ∧ r.left ≤ n)).map fun r => { instr := .deadlineOver, args := { n := r.id } }

/-- Times, in clk from now, at which something is bound to its clk: landings, starts of slots, ends of steps, deadlines, retries, freezes, tasks
that age, tokens. -/
def horizons (s : State) : List Nat :=
  (s.allCores.filterMap fun c => (nextArrival c).map fun a => a - c.stepclk.toNat)
    ++ (s.allCores.flatMap fun c => (c.landBuf.map fun l => l.cycle.toNat - c.stepclk.toNat))
    ++ (s.allCores.filterMap fun c => (s.counted c).bind fun r => if r.deadline = 0 then none else some c.dlreg.toNat)
    ++ (s.allCores.filterMap fun c => c.freeze.map fun t => t + c.freezeLimit + 1 - s.clk)
    ++ (s.regions.flatMap fun r => if r.live && s.lends r && decide (r.deadline ≠ 0) then [r.left] else [])
    ++ (s.regions.flatMap fun r => if r.inComm && r.live then (r.unsent.map fun x => slotTime r x - r.time) ++ (r.endT.map fun t => t - r.time).toList else [])
    ++ (s.tasks.map fun t => if t.st = 1 ∧ t.cur < 15 then t.since + 2 ^ 20 - s.clk else 0)
    ++ (s.buckets.map fun b => if b.rate = 0 then 0 else (clkPerMicro - b.credit + b.rate - 1) / b.rate)
    ++ s.timers.map fun d => d.at' - s.timeOf d.instr

/-- Cycles of the reference clock up to the next timer on package time. -/
def refHorizons (s : State) : List Nat := s.timers.map fun d => match d.instr with | .waitingFormRetry | .waitmTimeout => 0 | _ => d.at' - s.pktime

/-- A time that passes no moment of the list that is still to come. Log 3, DEDUCED. -/
def capTime (l : List Nat) (n : Nat) : Nat := l.foldl (fun m h => if h = 0 then m else min m h) n

/-- Cycles of the reference clock in n clk: as many under the nominal clock plan; under another, a number left open, which passes no timer
(R4, R367). Log 51, DESIGN CHOICE. -/
def State.refCount (s : State) (n : Nat) : Nat := if s.plan = 1 then n else capTime (refHorizons s) (Config.refTicks s.free)

/-- Whole ns in a count of package time (R367, R399). -/
def nanos (n : Nat) : Nat := n * 4 / 9

/-- Pod time after m cycles of the reference clock: it runs freely, or steers toward the master's (R399). Log 51, DESIGN CHOICE. -/
def State.podAfter (s : State) (m : Nat) : Nat :=
  if !s.podRuns then s.podtime
  else if s.inPod && !s.master then s.podtime + Config.steer s.free
  else s.podtime + (nanos (s.pktime + m) - nanos s.pktime)

/-- n clk pass (R176, R181, R234, R367, R399). Log 51, DESIGN CHOICE. -/
def State.pass (s : State) (n : Nat) : State :=
  let due := deadlines s n
  let m := s.refCount n
  let s' := s.mapCores (Core.tick s n)
  { s' with
    todo := s.todo ++ due, free := s.free + 1, clk := s.clk + n, pktime := s.pktime + m
    podtime := s.podAfter m
    regions := s.regions.map (Region.tick n)
    buckets := s.buckets.map fun b => { b with credit := b.credit + b.rate * m } }

/-- The armed watches that have nothing to report: core and entry. -/
def armedWatches (s : State) : List (Nat × Fin 16) :=
  s.allCores.flatMap fun c => (List.finRange 16).filterMap fun i =>
    let w := c.watches.get i
    if w.armed && decide (w.reason = 0) then some (c.id, i) else none

/-- A sorus may evict an armed watch when its filter overflows; the entry then reports reason 3 (R191). Log 66, DESIGN CHOICE. -/
def evictWatch (s : State) : State :=
  match armedWatches s with
  | [] => s
  | x :: l =>
    let n := Config.pick s.free
    let s : State := { s with free := s.free + 1 }
    if n % 2 = 0 then s
    else
      let (id, i) := (x :: l).getD (n / 2 % (l.length + 1)) x
      s.onCore id fun c => ({ c with watches := c.watches.set i.val { c.watches.get i with reason := 3 } i.isLt } : Core).wakeWatch

/-- A sorus cache may evict a dirty host line: the host has it (R368). Log 66, DESIGN CHOICE. -/
def evictHost (s : State) : State :=
  match s.hostDirty with
  | [] => s
  | x :: l =>
    let n := Config.pick s.free
    let s : State := { s with free := s.free + 1 }
    if n % 2 = 0 then s else { s with hostDirty := s.hostDirty.erase ((x :: l).getD (n / 2 % (l.length + 1)) x) }

/-- Time passes after an act; where none could act, at least one clk does. Log 3, DEDUCED. -/
def tick (least : Nat) (s : State) : State :=
  let s := evictHost <| evictWatch (s.pass (capTime (horizons s) (Config.ticks s.free + least)))
  { s with asked := [], askPrio := 0, core := { s.core with mark := .ok } }

/-- Choose among the outcomes: the surroundings of the model pick. Log 3, DEDUCED. -/
def choose (s : State) (l : List Outcome) : Outcome :=
  match l with
  | [] => .next s
  | [o] => o
  | o :: r => (o :: r).getD (Config.pick s.free % (r.length + 1)) o

/-- The slots' marks, and what the act asked of the ports, are of no use after it. -/
def clean (s : State) : State := { s with free := s.free + 1, asked := [], askPrio := 0, core := { s.core with mark := .ok } }

/-- An act that asks a port of the last-level cache. -/
def asksPort (o : Outcome) : Bool :=
  match o with
  | .next s => !s.asked.isEmpty
  | _ => false

/-- A request of a higher priority at one of the same ports, which holds its tokens too (R233). -/
def outranks (o p : Outcome) : Bool :=
  match o, p with
  | .next s, .next t => decide (t.askPrio < s.askPrio) && s.asked.any t.asked.contains
  | _, _ => false

/-- The outcomes that no other outranks at a port (R233). -/
def leading (all l : List Outcome) : List Outcome := l.filter fun p => !(asksPort p && all.any fun o => outranks o p)

/-- One step of the package: a unit that can act does, and time passes; when none can, only time passes. Among requests that hold tokens a port
serves the highest priority first (R233). Before the firmware has booted only messages act (R445). Log 3, DEDUCED. -/
def advance (s : State) : Outcome :=
  let first := if s.boot.isUp then able s (firstActs s) else []
  let rest := if first.isEmpty || first.any asksPort then able s (if s.boot.isUp then otherActs s else [.message]) else []
  match leading (first ++ rest) first with
  | [] =>
    let l := leading (first ++ rest) rest
    (match choose s l with
      | .next s' => .next (tick (if l.isEmpty then 1 else 0) s')
      | o => o)
  | l =>
    match choose s l with
    | .next s' => .next (clean s')
    | o => o

end Sys2Proof.Machine
end

