-- ==== Sys2Proof/Machine/Step.lean ====
section
/-!
DEFINITION. The step of the package, and the placing of an instruction where core 0 fetches its next bundle.
-/

namespace Sys2Proof.Machine

/-- One step. -/
def step (s : State) : Host.Outcome State Fault Refusal := advance s

/-- The loader places part of a .text or .data image in device memory, for a block whose fe field is given (R19). Log 1, DESIGN CHOICE. -/
def State.load (s : State) (pa : Nat) (bs : List Byte) (fe : Bool) : State := { s with mem := s.mem.load pa bs fe }

/-- Core 0 runs at a bundle address whose word is the given slot, alone in its bundle; its heap maps the address, so that the
fetch finds it. A program is loaded from outside the machine; this stands for that load. Log 1, DESIGN CHOICE. -/
def State.withFetchWord (s : State) (nbits w : Nat) : State :=
  let c := s.core
  let at' := c.pc.toNat % 2 ^ 38 / 4 * 4
  ({ s with core := { c with pc := word at', run := .running, heapbase := 0x7, heaplim := 0x4000000000, heapoff := 0 } } : State).load
    at' (leBytes 4 (w % 2 ^ nbits % 2 ^ 31 + 2 ^ 31)) false

end Sys2Proof.Machine
end

