-- ==== Sys2Proof/Certificates/Slice0/Obligations.lean ====
section
/-!
DEFINITION. The statements for the provers. `Sys2Proof.Spec` holds the words they are written with: what a slot reads and
writes, and the values of the rules, written from the rules of spec/ and not from the meanings they are compared with.
-/

namespace Sys2Proof.Spec

open Sys2Proof Sys2Proof.Machine

/-! ### Sources and destinations (R21, R25, R30, R51) -/

/-- A front slot can read g register r now, and has read w: g0 reads zero, g63 pops the scalar load-data queue, whose oldest
entry must have arrived unpoisoned with no queued slot to pop before it; any other register is read as it was before the
bundle (R21, R25, R30, R51, R106). -/
def reads (r : GReg) (s : State) : Option (Word × State) :=
  if r = 63 then
    match s.core.sldq with
    | [] => none
    | e :: rest =>
      match e.val with
      | none => none
      | some w => if e.poison = true ∨ s.core.gPops ≠ 0 then none
                  else some (w, { s with core := { s.core with sldq := rest } })
  else some (s.core.gVal r, s)

/-- Read several sources in order. -/
def readsAll : List GReg → State → Option (List Word × State)
  | [], s => some ([], s)
  | r :: rs, s =>
    match reads r s with
    | none => none
    | some (w, s1) =>
      match readsAll rs s1 with
      | none => none
      | some (ws, s2) => some (w :: ws, s2)

/-- A front slot writes w to g register d: g0 discards it; g63 pushes it onto the scalar store-data queue, which needs room and
no queued push before it; any other register holds w afterwards, and the rest of the bundle still reads the value from before
(R21, R25, R30, R49, R51). -/
def writes (d : GReg) (w : Word) (s : State) : Option State :=
  if d = 63 then
    if s.core.gPushes = 0 ∧ s.core.ssdq.length < 32 then some { s with core := s.core.pushG (some w) } else none
  else if d = 0 then some s
  else some { s with core := { s.core with g := s.core.g.set d.toNat w d.isLt, early := (d, s.core.gVal d) :: s.core.early } }

/-! ### Values of the scalar slots (R73 to R79) -/

/-- The place of the first set bit in a list of bits; its length where none is set. -/
def firstSet (bits : List Bool) : Nat := bits.findIdx fun b => b

/-- The condition c between x and y (R69, R78). -/
def condition (c : Cond) (x y : Word) : Bool :=
  match c with
  | .eq => decide (x = y)
  | .ne => decide (x ≠ y)
  | .lt => x.slt y
  | .ge => !x.slt y
  | .ltw => x.ult y
  | .gew => !x.ult y

/-- 1 where the condition holds, else 0 (R78). -/
def flagOf (b : Bool) : Word := if b then 1#64 else 0#64

/-- BFX (R77). -/
def bfx (a b : Word) (signed : Bool) : Word :=
  let pos := b.toNat % 64
  let w := min (b.toNat / 256 % 128) (64 - pos)
  let f := (a >>> pos).toNat % 2 ^ w
  if w = 0 then 0
  else if signed ∧ 2 ^ (w - 1) ≤ f then BitVec.ofInt 64 ((f : Int) - 2 ^ w) else BitVec.ofNat 64 f

/-- BFI (R77). -/
def bfi (a b d : Word) : Word :=
  let pos := b.toNat % 64
  let w := min (b.toNat / 256 % 128) (64 - pos)
  if w = 0 then d
  else
    let m := BitVec.ofNat 64 (2 ^ w - 1) <<< pos
    (d &&& ~~~m) ||| ((a <<< pos) &&& m)

/-- A value of two words. -/
def of2 (f : Word → Word → Word) (l : List Word) : Word := f (l.getD 0 0) (l.getD 1 0)
/-- A value of one word. -/
def of1 (f : Word → Word) (l : List Word) : Word := f (l.getD 0 0)
/-- A value of three words. -/
def of3 (f : Word → Word → Word → Word) (l : List Word) : Word := f (l.getD 0 0) (l.getD 1 0) (l.getD 2 0)

/-- The destination, the sources in reading order and the value of every scalar compute slot (R72 to R79). -/
def scalarForm : Instr → Option (GReg × List GReg × (List Word → Word))
  | .add d a b => some (d, [a, b], of2 fun x y => x + y)
  | .sub d a b => some (d, [a, b], of2 fun x y => x - y)
  | .mul d a b => some (d, [a, b], of2 fun x y => x * y)
  | .mulh d a b => some (d, [a, b], of2 fun x y => (x.signExtend 128 * y.signExtend 128).extractLsb' 64 64)
  | .mulhw d a b => some (d, [a, b], of2 fun x y => (x.setWidth 128 * y.setWidth 128).extractLsb' 64 64)
  | .div d a b => some (d, [a, b], of2 fun x y => if y = 0 then BitVec.allOnes 64 else x.sdiv y)
  | .divw d a b => some (d, [a, b], of2 fun x y => if y = 0 then BitVec.allOnes 64 else x.udiv y)
  | .rem d a b => some (d, [a, b], of2 fun x y => if y = 0 then x else x.srem y)
  | .remw d a b => some (d, [a, b], of2 fun x y => if y = 0 then x else x.umod y)
  | .and d a b => some (d, [a, b], of2 fun x y => x &&& y)
  | .or d a b => some (d, [a, b], of2 fun x y => x ||| y)
  | .xor d a b => some (d, [a, b], of2 fun x y => x ^^^ y)
  | .shl d a b => some (d, [a, b], of2 fun x y => x <<< (y.toNat % 64))
  | .shr d a b => some (d, [a, b], of2 fun x y => x >>> (y.toNat % 64))
  | .sha d a b => some (d, [a, b], of2 fun x y => x.sshiftRight (y.toNat % 64))
  | .min d a b => some (d, [a, b], of2 fun x y => if x.slt y then x else y)
  | .max d a b => some (d, [a, b], of2 fun x y => if x.slt y then y else x)
  | .minw d a b => some (d, [a, b], of2 fun x y => if x.ult y then x else y)
  | .maxw d a b => some (d, [a, b], of2 fun x y => if x.ult y then y else x)
  | .clz d a => some (d, [a], of1 fun x => BitVec.ofNat 64 (firstSet ((List.range 64).map fun i => x.getLsbD (63 - i))))
  | .ctz d a => some (d, [a], of1 fun x => BitVec.ofNat 64 (firstSet ((List.range 64).map fun i => x.getLsbD i)))
  | .popc d a => some (d, [a], of1 fun x => BitVec.ofNat 64 ((List.range 64).filter fun i => x.getLsbD i).length)
  | .sext d a .w8 => some (d, [a], of1 fun x => (x.setWidth 8).signExtend 64)
  | .sext d a .w16 => some (d, [a], of1 fun x => (x.setWidth 16).signExtend 64)
  | .sext d a .w32 => some (d, [a], of1 fun x => (x.setWidth 32).signExtend 64)
  | .zext d a .w8 => some (d, [a], of1 fun x => x &&& 0xFF)
  | .zext d a .w16 => some (d, [a], of1 fun x => x &&& 0xFFFF)
  | .zext d a .w32 => some (d, [a], of1 fun x => x &&& 0xFFFFFFFF)
  | .bfx d a b signed => some (d, [a, b], of2 fun x y => bfx x y signed)
  | .bfi d a b => some (d, [a, b, d], of3 bfi)
  | .sel d a b => some (d, [a, b, d], of3 fun x y z => if z = 0 then y else x)
  | .cmp d a b c => some (d, [a, b], of2 fun x y => flagOf (condition c x y))
  | .addi d a imm => some (d, [a], of1 fun x => x + imm.signExtend 64)
  | .andi d a imm => some (d, [a], of1 fun x => x &&& imm.signExtend 64)
  | .ori d a imm => some (d, [a], of1 fun x => x ||| imm.setWidth 64)
  | .xori d a imm => some (d, [a], of1 fun x => x ^^^ imm.setWidth 64)
  | .shli d a n => some (d, [a], of1 fun x => x <<< n.toNat)
  | .shri d a n => some (d, [a], of1 fun x => x >>> n.toNat)
  | .shai d a n => some (d, [a], of1 fun x => x.sshiftRight n.toNat)
  | .cmpiEq d a imm => some (d, [a], of1 fun x => flagOf (condition .eq x (imm.signExtend 64)))
  | .cmpiNe d a imm => some (d, [a], of1 fun x => flagOf (condition .ne x (imm.signExtend 64)))
  | .cmpiLt d a imm => some (d, [a], of1 fun x => flagOf (condition .lt x (imm.signExtend 64)))
  | .cmpiGe d a imm => some (d, [a], of1 fun x => flagOf (condition .ge x (imm.signExtend 64)))
  | .cmpiLtw d a imm => some (d, [a], of1 fun x => flagOf (condition .ltw x (imm.setWidth 64)))
  | .cmpiGew d a imm => some (d, [a], of1 fun x => flagOf (condition .gew x (imm.setWidth 64)))
  | .movi d imm => some (d, [], fun _ => imm.signExtend 64)
  | .movhi d imm => some (d, [d], of1 fun z => z <<< 15 + imm.setWidth 64)
  | _ => none

/-! ### Control (R80 to R88) -/

/-- The address that a bundle of n slots at pc runs on to (R80). -/
def after (s : State) : Word := s.core.pc + BitVec.ofNat 64 (4 * s.core.curLen)

/-- A transfer target is a multiple of 4 below 2^57 (R80). -/
def goodTarget (t : Word) : Prop := t.toNat % 4 = 0 ∧ t.toNat < 2 ^ 57

/-- The bundle goes on at t. -/
def goTo (t : Word) (s : State) : State := { s with core := { s.core with next := t } }

/-- A precise trap at the slot that issues, with its values (R314). -/
def preciseAt (s : State) (code : Nat) (tval tval2 : Word) : Trap :=
  { code := code, prec := true, tpc := s.core.pc, tnpc := s.core.pc, tmask := BitVec.ofNat 64 (2 ^ s.core.curSlot),
    tval := tval, tval2 := tval2, tinfo := s.tinfo s.core.seq }

/-- The slot took a precise trap: nothing of it took effect, and the trap enters at once where the core has drained, else it
is pending (R53). -/
def trapped (s : State) (code : Nat) (tval tval2 : Word) : Host.Outcome State Fault Refusal :=
  let t := preciseAt s code tval tval2
  let s1 := if s.core.drained && s.core.held.isEmpty then enterTrap t s else { s with core := { s.core with pend := some t } }
  .next { s1 with core := { s1.core with mark := .trap t } }

end Sys2Proof.Spec

open Sys2Proof Sys2Proof.Machine

/-- O1. Every scalar compute slot writes the value of R73 to R79 to g[D], from the values of its sources, and completes. With g63
it pops and pushes (R25); with g0 as D nothing is written. Covers add, sub, mul, mulh, mulhw, div, divw, rem, remw, and, or, xor,
shl, shr, sha, min, max, minw, maxw, clz, ctz, popc, sext, zext, bfx, bfi, sel, cmp, addi, andi, ori, xori, shli, shri, shai,
cmpiEq, cmpiNe, cmpiLt, cmpiGe, cmpiLtw, cmpiGew, movi, movhi. -/
def Obligations.ScalarResults : Prop :=
  ∀ (i : Instr) (d : GReg) (srcs : List GReg) (f : List Word → Word) (s s1 t : State) (ws : List Word),
    Spec.scalarForm i = some (d, srcs, f) → Spec.readsAll srcs s = some (ws, s1) → Spec.writes d (f ws) s1 = some t →
    exec i s = .next t

/-- O2. The frame of the scalar compute slots, on every form and in every state: whatever they end in, they change no v or k
register, no accumulator, no byte of memory or scratchpad, no full/empty bit, no task, region or partition; and where the slot
took effect (it did not stall and did not trap) no g register but g[D]. -/
def Obligations.ScalarFrame : Prop :=
  ∀ (i : Instr) (d : GReg) (srcs : List GReg) (f : List Word → Word) (s t : State),
    Spec.scalarForm i = some (d, srcs, f) → s.core.mark = .ok → exec i s = .next t →
    t.mem = s.mem ∧ t.others = s.others ∧ t.parts = s.parts ∧ t.tasks = s.tasks ∧ t.regions = s.regions ∧
    t.core.spad = s.core.spad ∧ t.core.v = s.core.v ∧ t.core.k = s.core.k ∧ t.core.acc = s.core.acc ∧
    t.core.vstat = s.core.vstat ∧ t.core.mxstat = s.core.mxstat ∧ t.core.bf = s.core.bf ∧ t.core.rq = s.core.rq ∧
    (t.core.mark = .ok → t.core.banks = s.core.banks ∧ t.core.level = s.core.level ∧ t.core.loops = s.core.loops ∧
      t.core.pc = s.core.pc ∧ t.core.next = s.core.next ∧
      ∀ r : GReg, r ≠ d → t.core.g.get ⟨r.toNat, r.isLt⟩ = s.core.g.get ⟨r.toNat, r.isLt⟩)

/-- BR, CALL, JMP and RET, and BRC.z and BRC.nz on their condition, go to their target, where it is a multiple of 4 below 2^57;
CALL writes the sequential address to g62; a BRC whose condition fails checks no target and goes on (R80, R81). Covers br, call,
brcZ, brcNz, jmp, ret. -/
def Sys2Proof.Spec.TransfersGo : Prop :=
  ∀ (s s1 : State) (x : Word) (d a : GReg) (o21 : BitVec 21) (o15 : BitVec 15),
    (Spec.goodTarget (s.core.pc + 4 * o21.signExtend 64) →
      exec (.br o21) s = .next (Spec.goTo (s.core.pc + 4 * o21.signExtend 64) s) ∧
      some (exec (.call o21) s) = (Spec.writes 62 (Spec.after s) (Spec.goTo (s.core.pc + 4 * o21.signExtend 64) s)).map .next) ∧
    (Spec.goodTarget (s.core.gVal 62) → exec .ret s = .next (Spec.goTo (s.core.gVal 62) s)) ∧
    (Spec.reads a s = some (x, s1) → Spec.goodTarget x → exec (.jmp a) s = .next (Spec.goTo x s1)) ∧
    (Spec.reads d s = some (x, s1) →
      (x = 0 → Spec.goodTarget (s.core.pc + 4 * o15.signExtend 64) →
        exec (.brcZ d o15) s = .next (Spec.goTo (s.core.pc + 4 * o15.signExtend 64) s1)) ∧
      (x ≠ 0 → exec (.brcZ d o15) s = .next s1) ∧
      (x ≠ 0 → Spec.goodTarget (s.core.pc + 4 * o15.signExtend 64) →
        exec (.brcNz d o15) s = .next (Spec.goTo (s.core.pc + 4 * o15.signExtend 64) s1)) ∧
      (x = 0 → exec (.brcNz d o15) s = .next s1))

/-- A transfer that is taken to a target that is no multiple of 4, or at or above 2^57, traps with BAD_TARGET (0x006) and the
target in TVAL (R80). -/
def Sys2Proof.Spec.BadTargetTraps : Prop :=
  ∀ (s s1 : State) (x : Word) (d a : GReg) (o21 : BitVec 21) (o15 : BitVec 15),
    (¬ Spec.goodTarget (s.core.pc + 4 * o21.signExtend 64) →
      exec (.br o21) s = Spec.trapped s 0x006 (s.core.pc + 4 * o21.signExtend 64) 0 ∧
      exec (.call o21) s = Spec.trapped s 0x006 (s.core.pc + 4 * o21.signExtend 64) 0) ∧
    (¬ Spec.goodTarget (s.core.gVal 62) → exec .ret s = Spec.trapped s 0x006 (s.core.gVal 62) 0) ∧
    (Spec.reads a s = some (x, s1) → ¬ Spec.goodTarget x → exec (.jmp a) s = Spec.trapped s1 0x006 x 0) ∧
    (Spec.reads d s = some (x, s1) → ¬ Spec.goodTarget (s.core.pc + 4 * o15.signExtend 64) →
      (x = 0 → exec (.brcZ d o15) s = Spec.trapped s1 0x006 (s.core.pc + 4 * o15.signExtend 64) 0) ∧
      (x ≠ 0 → exec (.brcNz d o15) s = Spec.trapped s1 0x006 (s.core.pc + 4 * o15.signExtend 64) 0))

/-- O3. BR, CALL, JMP and RET, and BRC.z and BRC.nz on their condition, go to their target, where it is a multiple of 4 below 2^57;
CALL writes the sequential address to g62; a BRC whose condition fails checks no target and goes on (R80, R81). Covers br, call,
brcZ, brcNz, jmp, ret. And: A transfer that is taken to a target that is no multiple of 4, or at or above 2^57, traps with BAD_TARGET (0x006) and the
target in TVAL (R80). -/
def Obligations.TransfersGo : Prop := Sys2Proof.Spec.TransfersGo ∧ Sys2Proof.Spec.BadTargetTraps

/-- O4. LOOP and LOOPI set their level up with the count, the sequential address as start and the bundle address plus the distance
as end; a count other than zero makes the level active and the most recent (R83). A zero count leaves it inactive, and the bundle
goes on behind the bundle at the end address (R84); where that bundle cannot be framed or fetched the bundle goes on at the end
address itself, which is the model's reading (log 69). The bundle at the end address is brought in as a fetched one (R218). Covers
loop, loopi. -/
def Obligations.LoopSetUp : Prop :=
  ∀ (n : LoopLevel) (a : GReg) (dist : BitVec 9) (count : BitVec 8) (short : BitVec 7) (s s1 : State) (x : Word),
    let up (s : State) (x : Word) (m : Nat) : State :=
      { s with core := { s.core with loops :=
        { lc := s.core.loops.lc.set n.toNat x n.isLt, ls := s.core.loops.ls.set n.toNat (Spec.after s) n.isLt,
          le := s.core.loops.le.set n.toNat (s.core.pc + BitVec.ofNat 64 (4 * m)) n.isLt,
          order := (if x = 0 then [] else [n]) ++ s.core.loops.order.filter (fun l => l ≠ n) } } }
    let skips (s : State) (m : Nat) (o : Host.Outcome State Fault Refusal) : Prop :=
      let le := s.core.pc + BitVec.ofNat 64 (4 * m)
      let s2 := fetchTouch 8 le.toNat (up s 0 m)
      (∀ l : List SlotWord, frame s2 le.toNat 8 = .ok (l, true) → o = .next (Spec.goTo (le + BitVec.ofNat 64 (4 * l.length)) s2)) ∧
      ((∀ l : List SlotWord, frame s2 le.toNat 8 ≠ .ok (l, true)) → o = .next (Spec.goTo le s2))
    (Spec.reads a s = some (x, s1) →
      (x ≠ 0 → exec (.loop n a dist) s = .next (up s1 x dist.toNat)) ∧ (x = 0 → skips s1 dist.toNat (exec (.loop n a dist) s))) ∧
    (count ≠ 0 → exec (.loopi n count short) s = .next (up s (count.setWidth 64) short.toNat)) ∧
    (count = 0 → skips s short.toNat (exec (.loopi n count short) s))

/-- O5. NOP changes nothing (R88). IDLE stops the core from issuing unless a wake event is pending, when it changes nothing (R88). Which events
count as pending is the model's reading (log 16): an interrupt, whatever IE holds, a trap that waits, a watch report, or an outstanding
pre-emption request, the hypervisor's, a slice's or a scan's. The wait keeps the address of its bundle, which a stop without grace goes
back to (R331). Covers nop, idle. -/
def Obligations.NopAndIdle : Prop :=
  ∀ s : State,
    exec .nop s = .next s ∧
    ((s.core.irqs ≠ [] ∨ s.core.held ≠ [] ∨ s.core.pend.isSome = true ∨ (∃ w ∈ s.core.watches.toList, w.reason ≠ 0) ∨
        ∃ r, s.myRegion = some r ∧ (r.scanReq ≠ [] ∨ ∃ reason, r.state = .requested reason)) → exec .idle s = .next s) ∧
    (s.core.irqs = [] → s.core.held = [] → s.core.pend = none → (∀ w ∈ s.core.watches.toList, w.reason = 0) →
        (∀ r, s.myRegion = some r → r.scanReq = [] ∧ ∀ reason, r.state ≠ .requested reason) →
      exec .idle s = .next { s with core := { s.core with run := .idle s.core.pc } })

namespace Sys2Proof.Spec

open Sys2Proof Sys2Proof.Machine

/-- The bank of a level can take a record: not ACTIVE, and with a handler (R313). -/
def takes (c : Core) (l : Nat) : Prop := (c.bank l).tstate.getLsbD 0 = false ∧ (c.bank l).tvec.toNat / 64 % 2 ^ 51 ≠ 0

/-- The level that a trap tries to enter first (R313). -/
def firstLevel (c : Core) (t : Trap) : Nat := min ((t.level.map BitVec.toNat).getD (handlingLevel t.code)) c.level.toNat

/-- The TCAUSE image of R308 and R313. -/
def causeWord (t : Trap) (plev : BitVec 2) : Word :=
  BitVec.ofNat 64 (t.code % 512 + 512 * t.prec.toNat + 1024 * t.impr.toNat + 2048 * t.walk.toNat + 4096 * plev.toNat)

/-- LSHORD holds this order: the level i-th most recently set up stands in bits [2i+1:2i], and NACT, bits [10:8], is how many levels
are active (R312). -/
def holdsOrder (w : Word) (order : List LoopLevel) : Prop :=
  w.toNat / 256 = order.length ∧ ∀ i n, order[i]? = some n → w.toNat / 4 ^ i % 4 = n.toNat

/-- What the bank holds after entry; the reserved bits of TPC and TNPC stay 0 (R8, R307, R310, R312, R313). -/
def entered (b : TrapBank) (t : Trap) (plev : BitVec 2) (lo : Loops) (b' : TrapBank) : Prop :=
  b'.tcause = causeWord t plev ∧ b'.tpc = t.tpc &&& 0x1FFFFFFFFFFFFFF ∧ b'.tnpc = t.tnpc &&& 0x1FFFFFFFFFFFFFC ∧ b'.tmask = t.tmask ∧ b'.tval = t.tval ∧
  b'.tval2 = t.tval2 ∧ b'.tinfo = t.tinfo ∧ b'.tvec = b.tvec ∧ b'.tscr = b.tscr ∧
  b'.lshlc = lo.lc ∧ b'.lshls = lo.ls ∧ b'.lshle = lo.le ∧ (lo.order.length ≤ 4 → holdsOrder b'.lshord lo.order) ∧
  b'.tstate.getLsbD 2 = b.tstate.getLsbD 1 ∧ b'.tstate.getLsbD 1 = false ∧ b'.tstate.getLsbD 0 = true

/-- The double trap of R315. -/
def displaced (t : Trap) (plev : BitVec 2) (l : Nat) : Trap :=
  { t with code := 0x01B, walk := false, tval := causeWord t plev, tval2 := t.tnpc, level := some (BitVec.ofNat 2 l) }

/-- A trap that the bundle, once committed, leaves pending: TRAP, SYSC and XINJ kind 4 (R53, R92, R95). -/
def committedTrap (s : State) (code : Nat) (tval tval2 : Word) (inj : Bool) : Trap :=
  { code := code, prec := true, tpc := s.core.pc, tnpc := s.core.pc, tmask := 0, tval := tval, tval2 := tval2,
    tinfo := s.tinfo s.core.seq inj, committed := true }

/-- The state with a pending committed trap. -/
def pending (t : Trap) (s : State) : State := { s with core := { s.core with pend := some t } }

/-- The bits of a plain register that WRSR sets at the levels that may write it, as a later RDSR reads them
(R119, R123, R144, R176, R220, R260, R307 to R312, R427). -/
def srBits (n : Nat) : Option Word :=
  if n = 0x040 ∨ n = 0x060 then some 0x3FFF
  else if n = 0x041 ∨ n = 0x061 then some 0x1FFFFFFFFFFFFFF
  else if n = 0x042 ∨ n = 0x062 then some 0xFF
  else if n = 0x043 ∨ n = 0x044 ∨ n = 0x049 ∨ n = 0x063 ∨ n = 0x064 ∨ n = 0x069 then some (BitVec.allOnes 64)
  else if n = 0x045 ∨ n = 0x065 then some 0xFFFFFFFFFFFFC000
  else if n = 0x046 ∨ n = 0x066 then some 0x1FFFFFFFFFFFFFC
  else if n = 0x047 ∨ n = 0x067 then some 0x7
  else if n = 0x048 ∨ n = 0x068 then some 0x1FFFFFFFFFFFFC0
  else if 0x070 ≤ n ∧ n ≤ 0x07B then some (BitVec.allOnes 64)
  else if n = 0x07C then some 0x7FF
  else if n = 0x080 then some 0xFFFFFFFF
  else if n = 0x081 then some 0xF
  else if n = 0x100 then some 0xFF03FB
  else if n = 0x110 then some 0xE
  else if n = 0x181 then some (BitVec.allOnes 64)
  else if n = 0x184 then some 0x1FFFFFFFFFFF000
  else if 0x1C0 ≤ n ∧ n ≤ 0x1C7 then some 0xFFFF
  else if n = 0x200 then some 0x1FFFFFFFFFFF007
  else if n = 0x201 then some 0x1FFFFFFFFFFF000
  else if n = 0x202 then some 0xFFFFFFFFFFFFF000
  else if n = 0x203 ∨ n = 0x208 then some 0xFFFFFFFFFF000
  else if n = 0x204 ∨ n = 0x209 then some 0x3FF
  else if n = 0x206 then some 0x1FFFFFFFFFFFFC0
  else if n = 0x30A then some 0x1FFFFFFFFFFFF3F
  else none

/-- The register's own rule takes the value (R127, R144, R176). -/
def srTakes (n : Nat) (w : Word) : Prop :=
  (n = 0x100 → (fmtOf (w.toNat / 2 ^ 16 % 256)).isSome = true) ∧ (n = 0x184 → w.toNat % 4096 = 0)

/-- A special-register access need not wait (R91, R220). -/
def srNow (s : State) (n : Nat) (wr : Bool) : Prop :=
  (0x100 ≤ n ∧ n ≤ 0x17F → s.core.veq = [] ∧ s.core.meq = []) ∧
  (wr = true → 0x200 ≤ n ∧ n ≤ 0x2FF → ∀ e ∈ s.core.laq, e.sp = true)

/-- The least privileged level that may use a register, and the least privileged that may write a field of it, where one may: levels 0
FW, 1 HV, 2 SV, 3 TK; none for a number that no chapter defines (R32 to R37, R119, R123, R144, R176, R209, R211, R220, R260, R307,
R311, R312, R319, R427, R428). -/
def srRow (n : Nat) : Option (Nat × Option Nat) :=
  if n ≤ 0x004 then some (3, none)
  else if 0x040 ≤ n ∧ n ≤ 0x050 ∧ ¬ (0x04A ≤ n ∧ n ≤ 0x04F) then some (2, some 2)
  else if n = 0x051 then some (2, some 1)
  else if 0x060 ≤ n ∧ n ≤ 0x069 then some (1, some 1)
  else if 0x070 ≤ n ∧ n ≤ 0x07C then some (2, some 2)
  else if n = 0x080 then some (3, some 2)
  else if n = 0x081 then some (2, some 2)
  else if n = 0x100 ∨ n = 0x110 then some (3, some 3)
  else if n = 0x111 ∨ n = 0x112 ∨ (0x118 ≤ n ∧ n ≤ 0x11F) then some (3, none)
  else if n = 0x181 then some (3, some 1)
  else if n = 0x184 ∨ n = 0x185 then some (3, some 2)
  else if n = 0x187 then some (3, some 3)
  else if n = 0x180 ∨ n = 0x182 ∨ n = 0x183 ∨ n = 0x186 then some (3, none)
  else if 0x1C0 ≤ n ∧ n ≤ 0x1C7 then some (3, some 0)
  else if n = 0x204 ∨ (0x208 ≤ n ∧ n ≤ 0x20A) then some (3, some 1)
  else if n = 0x207 then some (3, none)
  else if 0x200 ≤ n ∧ n ≤ 0x206 then some (3, some 2)
  else if n = 0x304 then some (3, some 1)
  else if n = 0x309 then some (1, none)
  else if n = 0x30A ∨ n = 0x30B then some (1, some 1)
  else if 0x300 ≤ n ∧ n ≤ 0x308 then some (3, none)
  else if 0x800 ≤ n ∧ n < 0x980 then some (3, some 3)
  else none

/-- The core has the register: the SKEW registers on conductor cores alone, a bank format for each bank of the region's scratchpad alone
(R176, R209, R211). -/
def srHere (s : State) (n : Nat) : Prop :=
  (0x1C0 ≤ n ∧ n ≤ 0x1C7 → s.core.cond = true) ∧ (0x800 ≤ n → (n - 0x800) * 1024 < s.spadSize)

/-- The access passes the checks of R90: defined, permitted at the level and, for a write, writable there. -/
def srPermits (s : State) (n : Nat) (wr : Bool) : Prop :=
  ∃ use wl, srRow n = some (use, wl) ∧ srHere s n ∧ s.core.level.toNat ≤ use ∧
    (wr = true → ∃ l, wl = some l ∧ s.core.level.toNat ≤ l)

/-- A fault ring after its word is written: base, size and LOST are taken; the writer keeps its place where base and size stay as they
were, and restarts at place 0 otherwise (R319). -/
def ringSet (r : FaultRing) (w : Word) (r' : FaultRing) : Prop :=
  r'.reg = w &&& 0x1FFFFFFFFFFFFFF ∧
  (if w.toNat / 4096 % 2 ^ 45 = r.reg.toNat / 4096 % 2 ^ 45 ∧ w.toNat % 16 = r.reg.toNat % 16 then r'.pos = r.pos else r'.pos = 0)

/-- OP of an M slot (R67). -/
def matrixOp : Instr → Option Nat
  | .mma _ _ _ => some 0
  | .mmas _ _ _ => some 1
  | .mzero _ => some 2
  | .mdrn _ _ => some 3
  | .mchk _ _ _ => some 4
  | .mwait => some 5
  | .mstat _ => some 6
  | _ => none

/-- XINJ of a kind is allowed and g[A] names the kind with no reserved bit (R94). -/
def injects (kind : Nat) (a b : GReg) (s s2 : State) (x y : Word) : Prop :=
  (s.part s.core.part).inj = true ∧ Spec.readsAll [a, b] s = some ([x, y], s2) ∧ x.toNat % 16 = kind ∧
  (x.toNat / 16 = 0 ∨ (kind = 2 ∧ x.toNat / 16 = 16))

end Sys2Proof.Spec

/-- O6. Taking a trap or interrupt as R313 and R315 say it, over every state. The level tried first is the handling level of the
cause (or the level its routing entry names), or the current level when that is more privileged. A bank that is not ACTIVE and has
a handler takes the record; the loops are shadowed and made inactive, PIE takes IE, IE is cleared, ACTIVE is set, the level becomes
the bank's and the bundle address its TVEC; the other banks, the registers and the memory stay. A bank that does not take it is
passed over: the trap enters one level up as DOUBLE_TRAP with TVAL the TCAUSE image and TVAL2 the TNPC of the displaced trap. Where
FW's bank does not take it either, the core stops and the halt of its partition with DOUBLE_TRAP is asked of the package, as the
pseudocode of R313 and R315 say; R340 speaks of the fault domain there, and log 68 records that the model follows R313. -/
def Obligations.TrapEntry : Prop :=
  ∀ (t : Trap) (s : State),
    let l := Spec.firstLevel s.core t
    (Spec.takes s.core l →
      let s' := enterTrap t s
      Spec.entered (s.core.bank l) t s.core.level s.core.loops (s'.core.bank l) ∧
      (∀ m, m ≠ l → s'.core.bank m = s.core.bank m) ∧
      s'.core.level.toNat = l ∧ s'.core.pc = (s.core.bank l).tvec ∧ s'.core.next = (s.core.bank l).tvec ∧
      s'.core.loops.lc = Vector.replicate 4 0 ∧ s'.core.loops.order = [] ∧
      s'.core.g = s.core.g ∧ s'.core.v = s.core.v ∧ s'.core.k = s.core.k ∧ s'.core.acc = s.core.acc ∧
      s'.core.spad = s.core.spad ∧ s'.mem = s.mem ∧ s'.core.run = .running) ∧
    (¬ Spec.takes s.core l → 0 < l → enterTrap t s = enterTrap (Spec.displaced t s.core.level (l - 1)) s) ∧
    (¬ Spec.takes s.core l → l = 0 →
      (enterTrap t s).core.run = .stopped ∧ (enterTrap t s).mem = s.mem ∧
      (enterTrap t s).todo = s.todo ++ [{ instr := .regionHalt, args := { list := [s.core.part], m := 0x01B } }])

/-- RFT at SV, HV or FW, with every engine drained and no imprecise trap waiting, returns: the loops come back from the shadow,
a level being active exactly where its count is not zero, in the order that LSHORD holds (R312); IE takes PIE, ACTIVE is cleared; the level becomes PLEV and the next
bundle address TNPC; the other banks, the registers and the memory stay (R93, R318). Traps that were held for the return of this
handler are due again, and the others stand one return nearer (R54, R317). Covers rft. -/
def Sys2Proof.Spec.ReturnFromTrap : Prop :=
  ∀ s : State, s.core.level.toNat ≤ 2 → s.core.drained = true → s.core.held = [] → s.core.mark = .ok →
    let l := s.core.level.toNat
    let b := s.core.bank l
    l ≤ b.tcause.toNat / 4096 % 4 →
    ∃ t, exec .rft s = .next t ∧ t.core.mark = .ok ∧
      t.core.loops.lc = b.lshlc ∧ t.core.loops.ls = b.lshls ∧ t.core.loops.le = b.lshle ∧
      (∀ n : LoopLevel, n ∈ t.core.loops.order ↔ b.lshlc.get ⟨n.toNat, n.isLt⟩ ≠ 0) ∧
      (∀ order : List LoopLevel, order.Nodup → (∀ n : LoopLevel, n ∈ order ↔ b.lshlc.get ⟨n.toNat, n.isLt⟩ ≠ 0) →
        Spec.holdsOrder b.lshord order → t.core.loops.order = order) ∧
      t.core.level.toNat = b.tcause.toNat / 4096 % 4 ∧
      t.core.next = b.tnpc &&& 0x1FFFFFFFFFFFFFC ∧
      (t.core.bank l).tstate.getLsbD 1 = b.tstate.getLsbD 2 ∧ (t.core.bank l).tstate.getLsbD 0 = false ∧
      (∀ m, m ≠ l → t.core.bank m = s.core.bank m) ∧
      t.core.held = (s.core.later.filter fun x => x.1 ≤ 1).map (·.2) ∧
      t.core.later = ((s.core.later.filter fun x => 1 < x.1).map fun x => (x.1 - 1, x.2)) ∧
      t.core.g = s.core.g ∧ t.core.v = s.core.v ∧ t.core.k = s.core.k ∧ t.core.pend = s.core.pend ∧ t.mem = s.mem

/-- The loops go through the shadow unchanged: from a core whose order lists exactly the levels that count, each once, a trap that a bank
of SV, HV or FW takes and the RFT of its handler, with every engine drained and no imprecise trap waiting, leave the counts, the
addresses and the set-up order as they were (R87, R312, R313, R318). -/
def Sys2Proof.Spec.LoopShadowRoundTrip : Prop :=
  ∀ (t : Trap) (s : State), Spec.takes s.core (Spec.firstLevel s.core t) → Spec.firstLevel s.core t ≤ 2 →
    s.core.loops.order.Nodup → (∀ n : LoopLevel, n ∈ s.core.loops.order ↔ s.core.loops.lc.get ⟨n.toNat, n.isLt⟩ ≠ 0) →
    s.core.drained = true → s.core.held = [] →
    ∃ u, exec .rft (enterTrap t s) = .next u ∧ u.core.loops = s.core.loops ∧ u.core.level = s.core.level

/-- O7. RFT at SV, HV or FW, with every engine drained and no imprecise trap waiting, returns: the loops come back from the shadow,
a level being active exactly where its count is not zero, in the order that LSHORD holds (R312); IE takes PIE, ACTIVE is cleared; the
level becomes PLEV and the next bundle address TNPC; the other banks, the registers and the memory stay (R93, R318). Traps that were
held for the return of this handler are due again, and the others stand one return nearer (R54, R317). Covers rft. And: the loops go
through the shadow unchanged: from a core whose order lists exactly the levels that count, each once, a trap that a bank of SV, HV or
FW takes and the RFT of its handler leave the counts, the addresses and the set-up order as they were (R87, R312, R313, R318). -/
def Obligations.ReturnFromTrap : Prop := Sys2Proof.Spec.ReturnFromTrap ∧ Sys2Proof.Spec.LoopShadowRoundTrip

/-- O8. TRAP and SYSC let the bundle commit and leave SW_TRAP (0x00B) or SYSCALL (0x00C) pending with the code in TVAL and the bundle
address in TVAL2; BRK takes BREAKPOINT (0x00D) at once as a precise trap with the code in TVAL and 0 in TVAL2 (R92). Covers trap,
sysc, brk. -/
def Obligations.TrapInstructions : Prop :=
  ∀ (code : BitVec 15) (s : State),
    exec (.trap code) s = .next (Spec.pending (Spec.committedTrap s 0x00B (code.setWidth 64) s.core.pc false) s) ∧
    exec (.sysc code) s = .next (Spec.pending (Spec.committedTrap s 0x00C (code.setWidth 64) s.core.pc false) s) ∧
    exec (.brk code) s = Spec.trapped s 0x00D (code.setWidth 64) 0

/-- O9. RDSR of a register that is defined and permitted, with no wait due, writes its value to g[D]; and the values of the registers
that R33 to R36, R119, R123, R144, R176, R210, R211, R220, R260, R307 to R312, R319 and R427 name, KEYSTAT apart. HEAD of MXSTAT is 0xF while the
matrix queue is empty, after reset too (log 84). Covers rdsr. -/
def Obligations.ReadSpecial : Prop :=
  ∀ (d : GReg) (n : BitVec 12) (s t : State),
    (Spec.srPermits s n.toNat false → Spec.srNow s n.toNat false → Spec.writes d (srRead s n.toNat) s = some t →
      exec (.rdsr d n) s = .next t) ∧
    srRead s 0x000 = BitVec.ofNat 64 (s.core.die * 2 ^ 29 + s.core.phys * 2 ^ 8 + s.core.spare.toNat * 2 ^ 7 + s.core.lcore) ∧
    srRead s 0x001 = s.core.level.setWidth 64 ∧
    srRead s 0x003 = BitVec.ofNat 64 s.pktime ∧
    srRead s 0x004 = (if s.inPod = true ∧ s.master = false ∧ s.podSync = false then 0 else BitVec.ofNat 64 s.podtime) ∧
    srRead s 0x040 = (s.core.bank s.core.level.toNat).tcause ∧ srRead s 0x041 = (s.core.bank s.core.level.toNat).tpc ∧
    srRead s 0x042 = (s.core.bank s.core.level.toNat).tmask ∧ srRead s 0x043 = (s.core.bank s.core.level.toNat).tval ∧
    srRead s 0x044 = (s.core.bank s.core.level.toNat).tval2 ∧ srRead s 0x045 = (s.core.bank s.core.level.toNat).tinfo ∧
    srRead s 0x046 = (s.core.bank s.core.level.toNat).tnpc ∧ srRead s 0x047 = (s.core.bank s.core.level.toNat).tstate ∧
    srRead s 0x048 = (s.core.bank s.core.level.toNat).tvec ∧ srRead s 0x049 = (s.core.bank s.core.level.toNat).tscr ∧
    (let b := s.core.bank (s.core.level.toNat + 1);
      srRead s 0x060 = b.tcause ∧ srRead s 0x061 = b.tpc ∧ srRead s 0x062 = b.tmask ∧ srRead s 0x063 = b.tval ∧
      srRead s 0x064 = b.tval2 ∧ srRead s 0x065 = b.tinfo ∧ srRead s 0x066 = b.tnpc ∧ srRead s 0x067 = b.tstate ∧
      srRead s 0x068 = b.tvec ∧ srRead s 0x069 = b.tscr) ∧
    (let b := s.core.bank s.core.level.toNat;
      (∀ i : Fin 4, srRead s (0x070 + i.val) = b.lshlc.get i ∧ srRead s (0x074 + i.val) = b.lshls.get i ∧
        srRead s (0x078 + i.val) = b.lshle.get i) ∧ srRead s 0x07C = b.lshord) ∧
    srRead s 0x050 = (s.asidOf s.core.asid).frqs.reg ∧ srRead s 0x051 = (s.part s.core.part).frqh.reg ∧
    srRead s 0x002 = BitVec.ofNat 64 (s.core.laq.length + 2 ^ 6 * s.core.sldq.length + 2 ^ 12 * s.core.vldq.length +
      2 ^ 17 * s.core.ssdq.length + 2 ^ 23 * s.core.vsdq.length + 2 ^ 28 * s.core.veq.length + 2 ^ 33 * s.core.meq.length +
      2 ^ 37 * s.core.ceq.length) ∧
    (srRead s 0x110).toNat % 16 = s.core.mxstat.toNat % 16 ∧
    (s.core.meq = [] → (srRead s 0x110).toNat / 2 ^ 16 = 0xF) ∧
    (∀ q r k, s.core.meq = q :: r → Spec.matrixOp q.instr = some k → (srRead s 0x110).toNat / 2 ^ 16 = k) ∧
    srRead s 0x111 = BitVec.ofNat 64 (s.core.accSat.toNat + 2 ^ 16 * s.core.accPois.toNat) ∧
    ((∀ n : Fin 8, (s.core.rq.get n).length < 64) → ∀ n : Fin 8, (srRead s 0x112).toNat / 64 ^ n.val % 64 = (s.core.rq.get n).length) ∧
    (∀ n : Fin 8, srRead s (0x118 + n.val) = (s.core.rqhdr.get n).setWidth 64) ∧
    (srRead s 0x186).toNat = s.core.frozen.toNat % 2 ^ 32 * 2 ^ 32 + s.core.landBuf.length % 2 ^ 32 ∧
    (∀ n : Fin 8, srRead s (0x1C0 + n.val) = s.core.skew.get n) ∧
    srRead s 0x204 = BitVec.ofNat 64 ((s.asidOf s.core.asid).gen % 2 ^ 32 * 2 ^ 32 + s.core.asid % 1024) ∧
    (∀ n : Fin 384, srRead s (0x800 + n.val) = s.core.bf.get n) ∧
    (∀ n ∈ [0x187, 0x205, 0x20A, 0x301, 0x302, 0x303, 0x305, 0x306, 0x307, 0x30B], srRead s n = 0) ∧
    srRead s 0x080 = s.core.febudget ∧ srRead s 0x081 = s.core.masplit ∧ srRead s 0x100 = s.core.vstat ∧
    srRead s 0x180 = s.core.stepclk ∧ srRead s 0x181 = s.core.dlreg ∧ srRead s 0x182 = s.core.stepno ∧
    srRead s 0x183 = s.core.taskid ∧ srRead s 0x184 = s.core.pkbase ∧ srRead s 0x185 = s.core.sgbase ∧
    srRead s 0x200 = s.core.heapbase ∧ srRead s 0x201 = s.core.heaplim ∧ srRead s 0x202 = s.core.heapoff ∧
    srRead s 0x203 = s.core.ptroot ∧ srRead s 0x206 = s.core.pfqbase ∧ srRead s 0x208 = s.core.s2root ∧
    srRead s 0x209 = s.core.keysel ∧ srRead s 0x300 = s.feat0.setWidth 64 ∧ srRead s 0x304 = s.featack.setWidth 64 ∧
    srRead s 0x308 = BitVec.ofNat 64 s.core.part ∧ srRead s 0x309 = BitVec.ofNat 64 s.core.ptres ∧
    srRead s 0x30A = s.core.rgnsel

/-- WRSR of a plain register that the level may write, with no wait due and a value that the register's rule takes, completes:
the writable bits read back as written, and no byte of memory, no g, v or k register, no accumulator and no partition changes
but for a g63 source that is popped (R8, R90). Covers wrsr. -/
def Sys2Proof.Spec.WriteSpecial : Prop :=
  ∀ (d : GReg) (n : BitVec 12) (m w : Word) (s s1 : State),
    Spec.srBits n.toNat = some m → Spec.srPermits s n.toNat true → Spec.srNow s n.toNat true →
    Spec.reads d s = some (w, s1) → Spec.srTakes n.toNat w →
    ∃ t, exec (.wrsr d n) s = .next t ∧ t.core.mark = s.core.mark ∧ srRead t n.toNat &&& m = w &&& m ∧
      t.mem = s.mem ∧ t.parts = s.parts ∧ t.asids = s.asids ∧ t.others = s.others ∧ t.core.g = s.core.g ∧ t.core.v = s.core.v ∧
      t.core.k = s.core.k ∧ t.core.acc = s.core.acc ∧ t.core.spad = s.core.spad ∧ t.core.level = s.core.level ∧
      t.core.next = s.core.next ∧ t.core.sldq = s1.core.sldq

/-- The checks of a special-register access in the order of R90, each a precise trap with the register number in TVAL: a number
that is not defined is SR_UNDEFINED (0x008); a level that is too little privileged is PRIV_OPCODE (0x003); a WRSR where nothing is
writable at the level is SR_READONLY (0x009). -/
def Sys2Proof.Spec.SpecialChecks : Prop :=
  ∀ (d : GReg) (n : BitVec 12) (s : State),
    ((Spec.srRow n.toNat = none ∨ ¬ Spec.srHere s n.toNat) →
      exec (.rdsr d n) s = Spec.trapped s 0x008 (n.setWidth 64) 0 ∧ exec (.wrsr d n) s = Spec.trapped s 0x008 (n.setWidth 64) 0) ∧
    ∀ use wl, Spec.srRow n.toNat = some (use, wl) → Spec.srHere s n.toNat →
      (use < s.core.level.toNat →
        exec (.rdsr d n) s = Spec.trapped s 0x003 (n.setWidth 64) 0 ∧ exec (.wrsr d n) s = Spec.trapped s 0x003 (n.setWidth 64) 0) ∧
      (s.core.level.toNat ≤ use → (∀ l, wl = some l → l < s.core.level.toNat) →
        exec (.wrsr d n) s = Spec.trapped s 0x009 (n.setWidth 64) 0)

/-- O10. WRSR of a plain register that the level may write, with no wait due and a value that the register's rule takes, completes:
the writable bits read back as written, and no byte of memory, no g, v or k register, no accumulator and no partition changes
but for a g63 source that is popped (R8, R90). Covers wrsr. And: The checks of a special-register access in the order of R90, each a precise trap with the register number in TVAL: a number
that is not defined is SR_UNDEFINED (0x008); a level that is too little privileged is PRIV_OPCODE (0x003); a WRSR where nothing is
writable at the level is SR_READONLY (0x009). -/
def Obligations.WriteSpecial : Prop := Sys2Proof.Spec.WriteSpecial ∧ Sys2Proof.Spec.SpecialChecks

/-- O11. The special registers with rows of their own, written where R90 permits and nothing waits. FEATACK0 takes OFFER and the value,
once per package reset (R428); GENRAISE adds one to ASID.GEN modulo 2^32 and commits when every access translated before it has been
performed (R223, R365); that the generation rises at once and not with the commit is the model's reading (log 74). SGBASE takes an
aligned base and the core reads the table, whose tiles come in, once every earlier fence has taken effect (R176, R192, R206, R218).
FRQS and FRQH take base, size and LOST, and a new base or size restarts the writer at place 0 (R319); a bank format register takes an
allowed format word once no command and no earlier slot touches the bank (R211). Covers featack0, genraise, sgbase, frqs, frqh,
bankFormatRegister. -/
def Obligations.SpecialRows : Prop :=
  ∀ (d : GReg) (bank : BitVec 9) (w : Word) (marks : List (Nat × Nat)) (chunks : List Nat) (s s1 : State), Spec.reads d s = some (w, s1) →
    let marksNow := s1.raiseMarks fun c => decide (c.asid = s.core.asid)
    let chunksNow := s1.raiseChunks fun c => decide (c.asid = s.core.asid)
    let raised (t : State) : Prop :=
      (t.asidOf s.core.asid).gen = ((s.asidOf s.core.asid).gen + 1) % 2 ^ 32 ∧ t.mem = s.mem ∧ ∀ a, a ≠ s.core.asid → t.asidOf a = s.asidOf a
    let lo := bank.toNat * 1024
    (Spec.srPermits s 0x304 true → s.featSet = false →
      exec (.featack0 d) s = .next { s1 with featack := s.feat0 &&& w.setWidth 7, featSet := true }) ∧
    (Spec.srPermits s 0x205 true → Spec.srNow s 0x205 true → (∀ m ms, s.core.run ≠ .raising m ms) →
      (raiseDone s1 marksNow chunksNow = true → ∃ t, exec (.genraise d) s = .next t ∧ raised t ∧ t.core = s1.core) ∧
      (raiseDone s1 marksNow chunksNow = false → ∃ t, exec (.genraise d) s = .next t ∧ raised t ∧ t.core.mark = .wait ∧
        t.core.run = .raising marksNow chunksNow)) ∧
    (Spec.srPermits s 0x205 true → Spec.srNow s 0x205 true → s.core.run = .raising marks chunks → raiseDone s1 marks chunks = true →
      exec (.genraise d) s = .next { s1 with core := { s1.core with run := .running } }) ∧
    (Spec.srPermits s 0x185 true → w.toNat % 2 ^ 14 = 0 → (∀ f ∈ s1.core.fences, s1.core.fenceDone f = true) →
      let base := w &&& 0x1FFFFFFFFFFC000
      let s2 := s1.touchGroups base
      exec (.sgbase d) s = .next { s2 with core := { s2.core with sgbase := base, groups := readGroups s2 base } }) ∧
    (Spec.srPermits s 0x050 true →
      ∃ t, exec (.frqs d) s = .next t ∧ Spec.ringSet (s.asidOf s.core.asid).frqs w (t.asidOf s.core.asid).frqs ∧ t.core = s1.core ∧
        t.mem = s.mem ∧ t.parts = s.parts) ∧
    (Spec.srPermits s 0x051 true → s.core.part < 64 →
      ∃ t, exec (.frqh d) s = .next t ∧ Spec.ringSet (s.part s.core.part).frqh w (t.part s.core.part).frqh ∧ t.core = s1.core ∧
        t.mem = s.mem ∧ t.asids = s.asids) ∧
    (Spec.srPermits s (0x800 + bank.toNat) true → bankFormatOk w = true → s1.copiesTouch lo 1024 = false →
      s1.core.granuleBusy [{ off := 0, at' := lo, len := 1024 }] = false → (∀ q ∈ s1.core.meq, q.readsTiles s1.core lo 1024 = false) →
      (∀ x ∈ s1.core.ceq.flatten.zipIdx, x.1.touches s1 (s1.core.ceq.flatten.take x.2) lo 1024 = false) →
      s1.core.clearOf true [{ off := 0, at' := lo, len := 1024 }] = true →
      ∃ t, exec (.bankFormatRegister d bank) s = .next t ∧ srRead t (0x800 + bank.toNat) = w &&& 0xF03FF ∧ t.mem = s.mem ∧
        t.core.g = s.core.g ∧ t.core.spad = s.core.spad)

/-- The five kinds of XINJ where injection is allowed (R94, R95). ACC_FLIP inverts one bit of an accumulator bank that no engine
holds; SPAD_FLIP inverts one bit of a scratchpad byte whose granule is free; SECTOR_POISON poisons the sector of a scratchpad or
device address; TAG_BREAK makes the next fill of the tile fail; RAISE of a cause that is delivered by an entry leaves the cause
pending as a committed trap, with INJ set and TVAL and TVAL2 zero, and one that is recorded writes its record. Covers accFlip,
spadFlip, sectorPoison, tagBreak, raise. -/
def Sys2Proof.Spec.Injection : Prop :=
  ∀ (a b : GReg) (x y : Word) (pa : Nat) (s s2 : State),
    (Spec.injects 0 a b s s2 x y → y.toNat < 2 ^ 19 → y.toNat % 16 < s2.accCount →
      namesBank s2.core.meq (y.setWidth 4) = false → namesBank s2.core.veq.flatten (y.setWidth 4) = false →
      let flipped := s2.core.accOf (y.setWidth 4) ^^^ BitVec.ofNat 32768 (2 ^ (32 * (y.toNat / 16 % 1024) + y.toNat / 2 ^ 14 % 32))
      exec (.accFlip a b) s = .next { s2 with core := s2.core.setAcc (y.setWidth 4) flipped }) ∧
    (Spec.injects 1 a b s s2 x y → y.toNat < 2 ^ 22 → y.toNat % 2 ^ 19 < s2.spadSize →
      s2.core.granuleBusy [{ off := 0, at' := y.toNat % 2 ^ 19, len := 1 }] = false →
      let at' := y.toNat % 2 ^ 19
      let flipped := cellPut s2.core.spad.bytes at' (cellGet s2.core.spad.bytes at' ^^^ BitVec.ofNat 8 (2 ^ (y.toNat / 2 ^ 19)))
      exec (.spadFlip a b) s = .next { s2 with core := { s2.core with spad := { s2.core.spad with bytes := flipped } } }) ∧
    (Spec.injects 2 a b s s2 x y → x.toNat = 2 → y.toNat < s2.spadSize →
      exec (.sectorPoison a b) s = .next { s2 with core := { s2.core with spad := s2.core.spad.setPoison y.toNat true } }) ∧
    (Spec.injects 2 a b s s2 x y → x.toNat = 0x102 → y.toNat < 2 ^ 57 → s2.translate y.toNat true false false = .ok pa →
      inHost pa = false → exec (.sectorPoison a b) s = .next { s2 with mem := s2.mem.setPoison pa true }) ∧
    (Spec.injects 3 a b s s2 x y → y.toNat < 2 ^ 57 → s2.translate y.toNat true false false = .ok pa → inHost pa = false →
      exec (.tagBreak a b) s = .next (s2.putTile (pa / 4096) { s2.tileOf (pa / 4096) with inject := true })) ∧
    (Spec.injects 4 a b s s2 x y →
      (delivery y.toNat = some .entry →
        exec (.raise a b) s = .next (Spec.pending (Spec.committedTrap s2 y.toNat 0 0 true) s2)) ∧
      (∀ hv, delivery y.toNat = some (.record hv) →
        exec (.raise a b) s = .next (if hv then s2.recordHv (injected y.toNat s2) s2.core.asid s2.core.part
          else s2.recordSv (injected y.toNat s2) s2.core.asid s2.core.part)))

/-- The place of a ring that its writer stands at (R319, R320). -/
def Sys2Proof.Spec.ringPlace (r : FaultRing) : Nat :=
  r.reg.toNat / 2 ^ 12 % 2 ^ 45 * 2 ^ 12 + 64 * (r.pos % 2 ^ (r.reg.toNat % 16))

/-- A record was dropped: LOST rose by one, saturating at 255, and the position stayed (R319, R320). -/
def Sys2Proof.Spec.lostOne (r r' : FaultRing) : Prop :=
  r'.pos = r.pos ∧ r'.reg.toNat / 16 % 256 = min 255 (r.reg.toNat / 16 % 256 + 1) ∧ r'.reg.toNat % 16 = r.reg.toNat % 16 ∧
  r'.reg.toNat / 2 ^ 12 = r.reg.toNat / 2 ^ 12

/-- The eight words of a record stand at p: TCAUSE with ORIGIN, KIND and WALK alone, TPC, TVAL, TVAL2, TINFO, then TMASK, ASID and partition,
package time, and V (R320). -/
def Sys2Proof.Spec.recordAt (m : Store) (p : Nat) (t : Trap) (asid part time : Nat) : Prop :=
  m.word p = BitVec.ofNat 64 (t.code % 512 + 2 ^ 11 * t.walk.toNat) ∧ m.word (p + 8) = t.tpc ∧ m.word (p + 16) = t.tval ∧
  m.word (p + 24) = t.tval2 ∧ m.word (p + 32) = t.tinfo ∧
  m.word (p + 40) = BitVec.ofNat 64 (t.tmask.toNat % 256 + asid % 1024 * 2 ^ 16 + part % 64 * 2 ^ 32) ∧
  m.word (p + 48) = BitVec.ofNat 64 time ∧ m.word (p + 56) = BitVec.ofNat 64 (2 ^ 63)

/-- What a ring and memory hold after a record for the ring's next place, which lies at p where it can be reached: with no ring set, no place,
poison in word 7 or V still set the record is dropped; else it is written, the position advances by one in the ring, and no other byte
changes (R319, R320). -/
def Sys2Proof.Spec.recorded (r r' : FaultRing) (m m' : Store) (place : Option Nat) (t : Trap) (asid part time : Nat) : Prop :=
  (r.reg.toNat / 2 ^ 12 % 2 ^ 45 = 0 ∨ place = none → Spec.lostOne r r' ∧ m' = m) ∧
  ∀ p, place = some p → r.reg.toNat / 2 ^ 12 % 2 ^ 45 ≠ 0 →
    ((m.poisoned (p + 56) = true ∨ (m.word (p + 56)).getLsbD 63 = true) → Spec.lostOne r r' ∧ m' = m) ∧
    (m.poisoned (p + 56) = false → (m.word (p + 56)).getLsbD 63 = false → (m.dark = true → inHost p = false) →
      r'.reg = r.reg ∧ r'.pos = (r.pos + 1) % 2 ^ (r.reg.toNat % 16) ∧ Spec.recordAt m' p t asid part time ∧
      ∀ y, y < p ∨ p + 64 ≤ y → cellGet m'.bytes y = cellGet m.bytes y)

/-- Fault records (R319, R320): the hypervisor's ring of a partition lies at physical addresses, the supervisor's of an address space at
virtual ones of that space, which the vat die translates. Said where the tiles that the writer meets stand in the last-level cache; a tile
that does not is brought in first (R218). -/
def Sys2Proof.Spec.FaultRecords : Prop :=
  ∀ (t : Trap) (asid part : Nat) (s : State),
    let inside (n : Nat) : Prop := inDevice (n * 4096) = true → (s.tileOf n).inCache = true
    (part < 64 → inside (Spec.ringPlace (s.part part).frqh / 4096) →
      let place := if inHole (Spec.ringPlace (s.part part).frqh) = true then none else some (Spec.ringPlace (s.part part).frqh)
      let s' := s.recordHv t asid part
      Spec.recorded (s.part part).frqh (s'.part part).frqh s.mem s'.mem place t asid part s.pktime ∧ s'.core.g = s.core.g) ∧
    (let va := Spec.ringPlace (s.asidOf asid).frqs
     (∀ n ∈ s.vatTiles part asid va, inside n) → (∀ p, s.vatPlace part asid va true true = some p → inside (p / 4096)) →
      let s' := s.recordSv t asid part
      Spec.recorded (s.asidOf asid).frqs (s'.asidOf asid).frqs s.mem s'.mem (s.vatPlace part asid va true true) t asid part s.pktime ∧
        s'.core.g = s.core.g)

/-- Where a partition forbids injection, every XINJ traps with PRIV_OPCODE (R94). -/
def Sys2Proof.Spec.InjectionForbidden : Prop :=
  ∀ (a b : GReg) (s : State), (s.part s.core.part).inj = false →
    exec (.accFlip a b) s = Spec.trapped s 0x003 0 0 ∧ exec (.spadFlip a b) s = Spec.trapped s 0x003 0 0 ∧
    exec (.sectorPoison a b) s = Spec.trapped s 0x003 0 0 ∧ exec (.tagBreak a b) s = Spec.trapped s 0x003 0 0 ∧
    exec (.raise a b) s = Spec.trapped s 0x003 0 0

/-- O12. The five kinds of XINJ where injection is allowed (R94, R95). ACC_FLIP inverts one bit of an accumulator bank that no engine
holds; SPAD_FLIP inverts one bit of a scratchpad byte whose granule is free; SECTOR_POISON poisons the sector of a scratchpad or
device address; TAG_BREAK makes the next fill of the tile fail; RAISE of a cause that is delivered by an entry leaves the cause
pending as a committed trap, with INJ set and TVAL and TVAL2 zero, and one that is recorded writes its record. Covers accFlip,
spadFlip, sectorPoison, tagBreak, raise. And: where a partition forbids injection, every XINJ traps with PRIV_OPCODE (R94). And: a fault
record stands at the writer's place in the layout of R320 and the place advances, or the record is dropped and LOST rises (R319, R320). -/
def Obligations.Injection : Prop :=
  Sys2Proof.Spec.Injection ∧ Sys2Proof.Spec.InjectionForbidden ∧ Sys2Proof.Spec.FaultRecords

namespace Sys2Proof.Spec

open Sys2Proof Sys2Proof.Machine

/-- Where a synchronising access of a word goes, once it may be made (R116, R118): the base is read, the address is the base plus
eight times the offset; a scratchpad word lies in range, is aligned, its window grants it and its granule is free; a global word is
aligned and in range outside a compute step, translates, and lies in device memory, whose tile is brought in (R218); every earlier access
of the core to the word has been performed, with no fence holding the form back (R192); and the port serves a global request (R233). -/
def syncPlace (a : GReg) (imm : BitVec 9) (gl rd wr : Bool) (s : State) : Option (Nat × State) :=
  match reads a s with
  | none => none
  | some (x, s1) =>
    let ea := (x + 8 * imm.signExtend 64).toNat
    let bytes : List Piece := [{ off := 0, at' := ea, len := 8 }]
    if ea % 8 ≠ 0 then none
    else if gl then
      if s1.inCompute = true ∨ 2 ^ 57 < ea + 8 then none
      else match s1.translate ea rd wr false with
        | .error _ => none
        | .ok pa =>
          let s2 := s1.touchRange pa 8
          let word : List Piece := [{ off := 0, at' := pa, len := 8 }]
          if inHost pa = false ∧ s2.core.clearOf false word = true ∧ s2.core.fencesPassed s2.core.nextId true = true then
            (served s2 word).map fun s3 => (pa, s3)
          else none
    else if ea + 8 ≤ s1.spadSize ∧ (s1.core.wins = [] ∨ s1.core.needOf wr [ea] = .none) ∧ s1.core.granuleBusy bytes = false ∧
      s1.core.clearOf true bytes = true ∧ s1.core.fencesPassed s1.core.nextId true = true then some (ea, s1) else none

/-- The core is not inside the 64 clk between two attempts of a waiting form (R120). -/
def attemptNow (s : State) : Prop := ∀ n t, s.core.run = .feWait n t → t ≤ s.clk

/-- The core goes on running. -/
def awake (s : State) : State := { s with core := { s.core with run := .running } }

/-- Attempts made so far by the form that waits (R120). -/
def tries (s : State) : Nat := match s.core.run with | .feWait n _ => n | _ => 0

/-- An ACQ, a REL or both stand behind the core's earlier accesses, beside the earlier fences that have not taken effect; and whether a
promotion is open (R192, R202, R205). -/
def fenced (acq rel : Bool) (promo : Option (Nat × Scope)) (s : State) : State :=
  { s with core := { s.core with
      fences := (s.core.fences.filter fun f => !s.core.fenceDone f) ++ [{ at' := s.core.nextId, acq := acq, rel := rel }], promo := promo } }

/-- Every slot issued earlier to an engine of the mask has executed: CORE the vector engine, MAT the matrix engine, COPY, LINK and NET the
C slots of those engines (R294, R297). -/
def enginesDone (c : Core) (mask : BitVec 6) : Prop :=
  (mask.getLsbD 0 = true → c.veq = []) ∧ (mask.getLsbD 1 = true → c.meq = []) ∧
  ∀ q ∈ c.ceq.flatten,
    (mask.getLsbD 2 = true → isLink q.instr = true ∨ isNet q.instr = true) ∧ (mask.getLsbD 3 = true → isLink q.instr = false) ∧
    (mask.getLsbD 4 = true → isNet q.instr = false)

/-- Every earlier access of the core has been performed (R190, R297). -/
def allDone (s : State) : Prop := ∀ e ∈ s.core.laq, e.prefetch = true

end Sys2Proof.Spec

/-- The synchronising forms where their access may be made (R116, R118): LDW finds the bit full and writes the word to g[D]; LDC
does the same and leaves the bit empty; STF finds it empty, writes g[D] to the word and leaves it full; STS writes and leaves it full;
FEQ writes the bit to g[D]; FESET leaves it full and FECLR leaves it empty. A read of a scratchpad word observes the phases that completed
there (R296), a change of one marks its window tile (R381). Covers ldw, ldc, stf, sts, feq, feset, feclr. -/
def Sys2Proof.Spec.SyncForms : Prop :=
  ∀ (d a : GReg) (imm : BitVec 9) (gl : Bool) (p : Nat) (w : Word) (s s2 s3 t : State),
    let store (s : State) : Store := if gl then s.mem else s.core.spad
    let noticed (s : State) : State := if gl then s else s.winWrote p
    let observed (s : State) : State := if gl then s else s.observe p 8
    (Spec.syncPlace a imm gl true false s = some (p, s2) → (store s2).poisoned p = false → (store s2).fe p = true →
      Spec.attemptNow s2 → Spec.writes d ((store s2).word p) (observed (Spec.awake s2)) = some t → exec (.ldw d a imm gl) s = .next t) ∧
    (Spec.syncPlace a imm gl true true s = some (p, s2) → (store s2).poisoned p = false → (store s2).fe p = true →
      Spec.attemptNow s2 → Spec.writes d ((store s2).word p) ((noticed (observed (Spec.awake s2))).setFeAt (!gl) p false) = some t →
      exec (.ldc d a imm gl) s = .next t) ∧
    (Spec.syncPlace a imm gl true true s = some (p, s2) → Spec.reads d s2 = some (w, s3) → (store s3).fe p = false →
      Spec.attemptNow s3 →
      exec (.stf d a imm gl) s = .next (((Spec.awake s3).store (!gl) p (leBytes 8 w.toNat)).setFeAt (!gl) p true)) ∧
    (Spec.syncPlace a imm gl false true s = some (p, s2) → Spec.reads d s2 = some (w, s3) →
      exec (.sts d a imm gl) s = .next ((s3.store (!gl) p (leBytes 8 w.toNat)).setFeAt (!gl) p true)) ∧
    (Spec.syncPlace a imm gl true false s = some (p, s2) → Spec.writes d (Spec.flagOf ((store s2).fe p)) s2 = some t →
      exec (.feq d a imm gl) s = .next t) ∧
    (Spec.syncPlace a imm gl false true s = some (p, s2) →
      exec (.feset a imm gl) s = .next ((noticed s2).setFeAt (!gl) p true) ∧
      exec (.feclr a imm gl) s = .next ((noticed s2).setFeAt (!gl) p false))

/-- O13. LDW or LDC whose bit is empty, or STF whose bit is full, makes its next attempt 64 clk later, and nothing but the wait is noted; once
it has made one attempt and FEBUDGET.RETRIES further ones it traps with FE_BUDGET (0x012) at the address, with the attempts made in
TVAL2 (R120). The step that ends the interval lets the next attempt go, and one that belongs to an earlier attempt changes nothing
(R119). Covers waitingFormRetry. -/
def Obligations.WaitingForms : Prop :=
  ∀ (d a : GReg) (imm : BitVec 9) (gl : Bool) (p : Nat) (w : Word) (s s2 s3 : State),
    let store (s : State) : Store := if gl then s.mem else s.core.spad
    let again (i : Instr) (u : State) : Prop := Spec.attemptNow u →
      (Spec.tries u < u.core.febudget.toNat % 2 ^ 32 →
        ∃ t, exec i s = .next t ∧ t.core.mark = .wait ∧ t.core.run = .feWait (Spec.tries u + 1) (u.clk + 64) ∧
          { instr := .waitingFormRetry, core := u.core.id, args := { n := u.clk + 64 }, at' := u.clk + 64 } ∈ t.timers ∧
          t.core.g = s.core.g ∧ t.core.spad = u.core.spad ∧ t.mem = u.mem) ∧
      (u.core.febudget.toNat % 2 ^ 32 ≤ Spec.tries u → ∃ x, Spec.reads a s = some x ∧
        exec i s = Spec.trapped u 0x012 (x.1 + 8 * imm.signExtend 64) (BitVec.ofNat 64 (Spec.tries u + 1)))
    (Spec.syncPlace a imm gl true false s = some (p, s2) → (store s2).poisoned p = false → (store s2).fe p = false →
      again (.ldw d a imm gl) s2) ∧
    (Spec.syncPlace a imm gl true true s = some (p, s2) → (store s2).poisoned p = false → (store s2).fe p = false →
      again (.ldc d a imm gl) s2) ∧
    (Spec.syncPlace a imm gl true true s = some (p, s2) → Spec.reads d s2 = some (w, s3) → (store s3).fe p = true →
      again (.stf d a imm gl) s3) ∧
    (∀ n at', s.core.run = .feWait n at' →
      (at' = s.args.n → exec .waitingFormRetry s = .next { s with core := { s.core with run := .feWait n 0 } }) ∧
      (at' ≠ s.args.n → exec .waitingFormRetry s = .next s))

/-- What a store with a full/empty bit leaves in memory (R97, R105, R116): after STS to a device word the word reads as g[D], its bit
is full, every byte outside the word reads as before and every other word's bit is as before; before means once the word's tile has been
brought in, which changes no memory where the tile is in the cache. The address is that of the form itself. -/
def Sys2Proof.Spec.SyncStoreFrame : Prop :=
  ∀ (d a : GReg) (imm : BitVec 9) (p : Nat) (w : Word) (s s2 s3 : State),
    Memory.wf s.mem = true → Spec.syncPlace a imm true false true s = some (p, s2) → Spec.reads d s2 = some (w, s3) →
    ∃ t, exec (.sts d a imm true) s = .next t ∧ t.mem.word p = w ∧ t.mem.fe p = true ∧
      (∀ y, y < p ∨ p + 8 ≤ y → cellGet t.mem.bytes y = cellGet s2.mem.bytes y) ∧
      (∀ y, y / 8 ≠ p / 8 → t.mem.fe y = s2.mem.fe y) ∧ ((s.tileOf (p / 4096)).inCache = true → s2.mem = s.mem) ∧
      t.core.g = s.core.g ∧ t.core.v = s.core.v ∧ t.core.k = s.core.k ∧ t.core.acc = s.core.acc ∧ t.core.spad = s.core.spad

/-- O14. The synchronising forms where their access may be made (R116, R118): LDW finds the bit full and writes the word to g[D]; LDC
does the same and leaves the bit empty; STF finds it empty, writes g[D] to the word and leaves it full; STS writes and leaves it full;
FEQ writes the bit to g[D]; FESET leaves it full and FECLR leaves it empty. A read of a scratchpad word observes the phases that completed
there (R296), a change of one marks its window tile (R381). Covers ldw, ldc, stf, sts, feq, feset, feclr. And: What a store with a full/empty bit leaves in memory (R97, R105, R116): after STS to a device word the word reads as g[D], its bit
is full, every byte outside the word reads as before and every other word's bit is as before; before means once the word's tile has been
brought in, which changes no memory where the tile is in the cache. The address is that of the form itself. -/
def Obligations.SyncForms : Prop := Sys2Proof.Spec.SyncForms ∧ Sys2Proof.Spec.SyncStoreFrame

/-- O15. MON arms watch entry n on the word once every earlier access has been performed (R190); WAITM on a report writes the reporting
entries and a reason to g[D] and disarms them, with no masked entry armed and none reporting it writes 0 at once, and with a time of 0
it writes reason 2 (R191); that the reason is the lowest reporting entry's is the model's choice (log 66), which R191 leaves open; a report
of a scratchpad word observes the phases that completed there (R296). The timeout step lets a WAITM whose time has passed return. Covers mon, waitm,
waitmTimeout. -/
def Obligations.Watches : Prop :=
  ∀ (n : BitVec 4) (d a : GReg) (imm : BitVec 9) (gl : Bool) (p : Nat) (x : Word) (s s1 t : State), Spec.reads a s = some (x, s1) →
    (monPlace s1 (!gl) (x + 8 * imm.signExtend 64) = .ok p → Spec.allDone s1 → (gl = true ∨ s1.core.needOf false [p] = .none) →
      exec (.mon n a imm gl) s = .next { s1 with core := { s1.core with
        watches := s1.core.watches.set n.toNat { armed := true, sp := !gl, addr := p / 8, reason := 0 } n.isLt } }) ∧
    (let m : BitVec 16 := (x >>> 48).setWidth 16
     let hits := watchMask s1.core m fun w => decide (w.reason ≠ 0)
     (hits ≠ 0 → Spec.writes d (BitVec.ofNat 64 (reportReason s1.core hits * 2 ^ 16 + hits.toNat))
          { s1.observeWatches hits with core := { s1.core.disarm hits with run := .running } } = some t → exec (.waitm d a) s = .next t) ∧
     (hits = 0 → (watchMask s1.core m fun w => w.armed) = 0 →
        Spec.writes d 0 (Spec.awake s1) = some t → exec (.waitm d a) s = .next t) ∧
     (hits = 0 → (watchMask s1.core m fun w => w.armed) ≠ 0 → x.toNat % 2 ^ 48 = 0 →
        (∀ e u q, s1.core.run ≠ .waitm e u q) → Spec.writes d 0x20000 (Spec.awake s1) = some t → exec (.waitm d a) s = .next t)) ∧
    (∀ e u q, s.core.run = .waitm e u q → u ≤ s.clk →
      ∃ t, exec .waitmTimeout s = .next t ∧ t.core.run = .waitm e 0 q ∧ t.core.g = s.core.g ∧ t.mem = s.mem)

/-- ACQ, REL and FENCE complete at once and only order the core's later accesses behind its earlier ones, each beside the earlier
ones that have not taken effect; ACQ and FENCE close an open promotion; FENCE.X does so once the engines in its mask have executed what
was issued, what the core has observed complete of its copies, its link commands and its writes to host memory, as the mask names them,
is written, and, where the mask names CORE, every earlier access has been performed; PROMOTE opens a promotion of the word and acts as
ACQ (R192, R205, R294, R296 to R298). That the accesses are performed at every scope at once is the model's choice (log 6). Covers acq, rel, fence, fenceX, promote. -/
def Sys2Proof.Spec.ScopeInstructions : Prop :=
  ∀ (a : GReg) (mask : BitVec 6) (sc : Scope) (x : Word) (p : Nat) (s s1 : State),
    exec (.acq sc) s = .next (Spec.fenced true false none s) ∧ exec (.rel sc) s = .next (Spec.fenced false true s.core.promo s) ∧
    exec (.fence sc) s = .next (Spec.fenced true true none s) ∧
    (Spec.enginesDone s.core mask → (mask.getLsbD 0 = true → Spec.allDone s) →
      (∀ f ∈ s.flights, f.seen = true → f.sp = false → f.src = s.core.id →
        ¬ (mask.getLsbD 2 = true ∧ f.path = .copy) ∧ ¬ (mask.getLsbD 3 = true ∧ f.path = .link) ∧
        (mask.getLsbD 5 = true → ∀ w ∈ f.words, inHost (8 * w.no) = false)) →
      exec (.fenceX mask sc) s = .next (Spec.fenced true true none s)) ∧
    (Spec.reads a s = some (x, s1) → monPlace s1 false x = .ok p →
      exec (.promote a sc) s = .next (Spec.fenced true false (some (p, sc)) s1))

/-- Accesses that an ACQ, a REL or a FENCE separates (R192, R202, R203): after ACQ a later access of the core may not be performed while an
earlier load or atomic is queued; after REL a later store or atomic may not while any earlier access is; after FENCE no later access may
while any earlier one is; and a fence that already holds a later access back still does so after another one. -/
def Sys2Proof.Spec.FencesOrder : Prop :=
  ∀ (sc : Scope) (s t : State) (e x : LaEntry), x ∈ s.core.laq → x.id < s.core.nextId → s.core.nextId ≤ e.id → e.prefetch = false →
    (exec (.acq sc) s = .next t → x.reads = true → t.core.eligible e = false) ∧
    (exec (.rel sc) s = .next t → x.prefetch = false → e.writes = true → t.core.eligible e = false) ∧
    (exec (.fence sc) s = .next t → x.prefetch = false → t.core.eligible e = false) ∧
    (∀ f ∈ s.core.fences, f.between x e.id e.writes = true → exec (.acq sc) s = .next t ∨ exec (.rel sc) s = .next t ∨
      exec (.fence sc) s = .next t → t.core.eligible e = false)

/-- O16. ACQ, REL and FENCE complete at once and only order the core's later accesses behind its earlier ones, each beside the earlier
ones that have not taken effect; ACQ and FENCE close an open promotion; FENCE.X does so once the engines in its mask have executed what
was issued, what the core has observed complete of its copies, its link commands and its writes to host memory, as the mask names them,
is written, and, where the mask names CORE, every earlier access has been performed; PROMOTE opens a promotion of the word and acts as
ACQ (R192, R205, R294, R296 to R298). That the accesses are performed at every scope at once is the model's choice (log 6). Covers acq, rel, fence, fenceX, promote. And: Accesses that an ACQ, a REL or a FENCE separates (R192, R202, R203): after ACQ a later access of the core may not be performed while an
earlier load or atomic is queued; after REL a later store or atomic may not while any earlier access is; after FENCE no later access may
while any earlier one is; and a fence that already holds a later access back still does so after another one. -/
def Obligations.ScopeInstructions : Prop := Sys2Proof.Spec.ScopeInstructions ∧ Sys2Proof.Spec.FencesOrder

/-- A dependence counter takes a value, and its sorus's other counters stay; a zero makes every task of the sorus that waits on it ready, but
for those of a pre-empted region, and no other task changes (R187). -/
def Sys2Proof.Spec.counted (s : State) (idx n : Nat) (v : BitVec 32) (o : Host.Outcome State Fault Refusal) : Prop :=
  let waiting (t : Task) : Prop := t.die = s.core.die ∧ t.sorus = idx ∧ t.st = 4 ∧ t.waits = some n ∧ s.pausedTask t = false
  ∃ u, o = .next u ∧ (u.sorusOf s.core.die idx).counter n = v ∧
    (∀ m, m ≠ n → (u.sorusOf s.core.die idx).counter m = (s.sorusOf s.core.die idx).counter m) ∧
    (v ≠ 0 → u.tasks = s.tasks ∧ u.mem = s.mem) ∧
    (v = 0 → ∀ t ∈ s.tasks, (waiting t → ∃ q ∈ u.tasks, q.id = t.id ∧ q.st = 1 ∧ q.waits = none) ∧
      (¬ waiting t → (∀ q ∈ s.tasks, waiting q → q.id ≠ t.id) → t ∈ u.tasks))

/-- The task slots (R182 to R188). SSTEP in a scheduled region commits and the core arrives at the barrier; elsewhere it is STEP_CTX
(0x014). TDONE, YIELD and PARK commit and the core leaves its task once nothing it issued is outstanding; a PARK operand that passes its
checks is kept, and PARK's access is served by its port (R233). DCSET sets a counter of a sorus of the tree and DCDEC lowers it, or traps
with DC_UNDER (0x018) where it is zero. Covers sstep, tdone, yield, park, dcset, dcdec. -/
def Sys2Proof.Spec.TaskSlots : Prop :=
  ∀ (a b : GReg) (w v : Word) (idx n : Nat) (s s1 s2 : State),
    (s.inScheduled = true → exec .sstep s = .next { s with core := { s.core with run := .arriving s.core.pc } }) ∧
    (s.inScheduled = false → exec .sstep s = Spec.trapped s 0x014 0 0) ∧
    ((∀ h o, s.core.run ≠ .leaving h o) →
      exec .tdone s = .next { s with core := { s.core with run := .leaving 0 0 } } ∧
      exec .yield s = .next { s with core := { s.core with run := .leaving 1 0 } } ∧
      (Spec.reads a s = some (w, s1) → parkFault s1 w = none →
        exec (.park a) s = .next { s1 with core := { s1.core with run := .leaving 2 w } })) ∧
    (∀ h o, s.core.run = .leaving h o → s.mayLeave = true →
      exec .tdone s = .next (finishTask s) ∧ exec .yield s = .next (yieldTask s) ∧
      ∀ u, s.parkServed o = some u → exec (.park a) s = .next (parkTask o u)) ∧
    (Spec.readsAll [a, b] s = some ([w, v], s2) → counterOperand s2 w = some (idx, n) →
      Spec.counted s2 idx n (v.setWidth 32) (exec (.dcset a b) s)) ∧
    (Spec.reads a s = some (w, s1) → counterOperand s1 w = some (idx, n) →
      ((s1.sorusOf s1.core.die idx).counter n ≠ 0 →
        Spec.counted s1 idx n ((s1.sorusOf s1.core.die idx).counter n - 1) (exec (.dcdec a) s)) ∧
      ((s1.sorusOf s1.core.die idx).counter n = 0 → exec (.dcdec a) s = Spec.trapped s1 0x018 0 0))

/-- A task that finishes, in an unscheduled region, is taken from the scheduler and its core goes free; in a scheduled region the
core retires; either counts the region's work down by one (R185, R193). -/
def Sys2Proof.Spec.TaskEnds : Prop :=
  ∀ (r : Region) (s : State), s.myRegion = some r → s.mayLeave = true → (∀ q ∈ s.regions, q.id = r.id → q = r) →
    (∃ h o, s.core.run = .leaving h o) →
    ∃ t, exec .tdone s = .next t ∧
      (r.scheduled = true → t.core.run = .retired) ∧ (r.scheduled = false → t.core.run = .free ∧ t.core.taskid = 0) ∧
      (t.region? r.id).map (·.count) = some (r.count - 1)

/-- O17. The task slots (R182 to R188). SSTEP in a scheduled region commits and the core arrives at the barrier; elsewhere it is STEP_CTX
(0x014). TDONE, YIELD and PARK commit and the core leaves its task once nothing it issued is outstanding (what YIELD and PARK then leave is
stated beside the save area); a PARK operand that passes its checks is kept. DCSET sets a counter of a sorus of the tree and DCDEC lowers
it, or traps with DC_UNDER (0x018) where it is zero; a zero makes the tasks ready that wait on the counter. Covers sstep, tdone, yield,
park, dcset, dcdec. And: a task that finishes, in an unscheduled region, is taken from the scheduler and its core goes free; in a
scheduled region the core retires; either counts the region's work down by one (R185, R193). -/
def Obligations.TaskSlots : Prop := Sys2Proof.Spec.TaskSlots ∧ Sys2Proof.Spec.TaskEnds

/-- O18. SPAWN with a record that holds a usable ENTRY and SAVE and a control word without reserved bits, in a region with a core in the
named sorus that holds fewer than 4,096 tasks, makes a task of the record's ENTRY in that sorus, which starts at the level that the launch
names, and writes its identifier to g[D] (R37, R183, R184). It reads the record as an access of its core: behind the core's earlier accesses
to it and its fences, served by its port, its tile brought in (R118, R192, R218, R233). Which index the task takes is left free (log 32);
the order of the checks is the model's reading (log 76). Covers spawn. -/
def Obligations.SpawnMakesTask : Prop :=
  ∀ (d a b : GReg) (rec' ctl : Word) (pa pb : Nat) (r : Region) (s s2 s5 : State),
    Spec.readsAll [a, b] s = some ([rec', ctl], s2) → s2.myRegion = some r → ctl.toNat < 2 ^ 23 → rec'.toNat % 64 = 0 →
    let idx := sorusOperand s2.core (ctl.getLsbD 22) (ctl.toNat / 2 ^ 18 % 16)
    let words : List Piece := [{ off := 0, at' := pa, len := 64 }]
    r.inSorus s2 s2.core.die idx = true → s2.translate rec'.toNat false false false = .ok pa →
    s2.core.clearOf false words = true → s2.core.fencesPassed s2.core.nextId true = true → served s2 words = some s5 →
    let s3 := s5.touchRange pa 64
    recordOk (s3.mem.word pa) (s3.mem.word (pa + 8)) = true → s3.translate rec'.toNat true true false = .ok pb →
    (s2.tasks.filter fun t => decide (t.die = s2.core.die ∧ t.sorus = idx)).length < 4096 →
    ∃ s4 id, (∀ t, Spec.writes d (BitVec.ofNat 64 id) s4 = some t → exec (.spawn d a b) s = .next t) ∧
      s4.core.g = s.core.g ∧ s4.core.ssdq = s.core.ssdq ∧ s4.core.queued = s.core.queued ∧
      id / 2 ^ 12 = s2.core.die * 16 + idx ∧
      ∃ q ∈ s4.tasks, q.id = id ∧ q.record = rec'.toNat ∧ q.region = r.id ∧ q.entry = (s3.mem.word pa).toNat ∧
        q.die = s2.core.die ∧ q.sorus = idx ∧ q.level = r.level

namespace Sys2Proof.Spec

open Sys2Proof Sys2Proof.Machine

/-- The instruction answers with a code in PTRES and commits (R430, R432). -/
def answers (n : Nat) (s : State) : State := { s with core := { s.core with ptres := n } }

/-- Every earlier global access of the core has been performed (R220, R430). -/
def quiet (s : State) : Prop := ∀ e ∈ s.core.laq, e.sp = true

/-- A partition that PTBIND has changed: a FREE one is OPEN (R429). -/
def opened (p : Partition) : Partition := { p with st := if p.st = .free then .opened else p.st }

/-- PTBIND or PTQUOTA of a kind reaches its own checks (R430, R432): both operands are read, every earlier global access is performed,
g[A] names partition n, the kind and INDEX i with no reserved bit, and FEATACK0 has been written. -/
def selects (kind : Nat) (a b : GReg) (s s2 : State) (n i : Nat) (y : Word) : Prop :=
  ∃ x : Word, readsAll [a, b] s = some ([x, y], s2) ∧ quiet s2 ∧ x &&& 0xFFFFFFFFF800F0C0 = 0 ∧ x.toNat / 256 % 16 = kind ∧
    x.toNat % 64 = n ∧ x.toNat / 2 ^ 16 = i ∧ s2.featSet = true

/-- The partition may be bound (R429). -/
def mayBind (s : State) (n : Nat) : Prop := (s.part n).st = .free ∨ (s.part n).st = .opened ∨ (s.part n).st = .stopped

/-- PTSEAL reaches its own checks (R430, R434). -/
def seals (op : Nat) (a : GReg) (s s1 : State) (n : Nat) : Prop :=
  ∃ x : Word, reads a s = some (x, s1) ∧ quiet s1 ∧ x &&& 0xFFFFFFFFFFFFFCC0 = 0 ∧ x.toNat / 256 = op ∧ op < 3 ∧ x.toNat % 64 = n ∧
    s1.featSet = true

/-- The live region that RGNSEL and the ASID in w name (R436). -/
def names (s : State) (w : Word) (r : Region) : Prop := chosenRegion s w = some r

end Sys2Proof.Spec

/-- O19. WDECL with operands that keep the rules of R379, an image that translates and a scratchpad range that no earlier access or command touches declares the window at
its home and writes the identifier, participant and slot to g[D]; operands that break a rule of R379 write STATUS 1 and declare
nothing (R379, R380). WDROP of a slot without a declaration does nothing, and of a quiet one gives the declaration up (R389). RELT
writes the tile's marker once every earlier access is performed, ACQT obtains the tile and acts as ACQ (R386, R387). Covers wdecl,
wdrop, acqt, relt. -/
def Obligations.WindowInstructions : Prop :=
  ∀ (d a b : GReg) (sc : Scope) (x y : Word) (pas : List Nat) (wid who : Nat) (w : WinDecl) (k : Nat) (s s1 s2 s3 t : State),
    (Spec.readsAll [a, b] s = some ([x, y], s2) →
      let tl := y.toNat / 2 ^ 20 % 16 + 7
      let nt := y.toNat / 2 ^ 32 % 4096
      let lo := y.toNat % 2 ^ 19
      let slot := unusedFrom (s2.core.wins.map fun w => w.slot) 16 16 0
      s2.core.clearOf true [{ off := 0, at' := lo, len := nt * 2 ^ tl }] = true → s2.copiesTouch lo (nt * 2 ^ tl) = false →
      (declOk s2 x y = false → Spec.writes d (BitVec.ofNat 64 (2 ^ 56)) s2 = some t → exec (.wdecl d a b) s = .next t) ∧
      (declOk s2 x y = true →
        imagePages s2 (y.getLsbD 44) (pages (nt * 2 ^ tl / 4096 + 2) x.toNat (nt * 2 ^ tl)) = .ok pas →
        s2.core.wins.length < 16 →
        (∀ v ∈ s2.core.wins, (lo + nt * 2 ^ tl ≤ v.lbase ∨ v.lbase + v.nt * 2 ^ v.tl ≤ lo) ∧
          ∀ q, s2.win? v.wid = some q → q.image ≠ pas.headD 0) →
        homeDeclares s2 s2.core.id tl nt (y.getLsbD 44) pas = .ok (s3, wid, who) →
        Spec.writes d (BitVec.ofNat 64 (wid * 2 ^ 32 + who * 2 ^ 8 + slot)) { s3 with core := { s3.core with wins :=
          s3.core.wins ++ [{ slot := slot, wid := wid, who := who, lbase := lo, nt := nt, tl := tl, write := y.getLsbD 44, image := x,
                             tiles := List.replicate nt .i }] } } = some t →
        exec (.wdecl d a b) s = .next t)) ∧
    (Spec.reads a s = some (x, s1) →
      ((∀ v ∈ s1.core.wins, v.slot ≠ x.toNat % 16) → exec (.wdrop a) s = .next s1) ∧
      ((s1.core.wins.find? fun v => decide (v.slot = x.toNat % 16)) = some w → windowBusy s1 w.wid = false →
        s1.core.clearOf true [{ off := 0, at' := w.lbase, len := w.nt * 2 ^ w.tl }] = true →
        s1.copiesTouch w.lbase (w.nt * 2 ^ w.tl) = false → exec (.wdrop a) s = .next (dropDecl s1 w)) ∧
      (s1.core.windowAt x.toNat = some (w, k) → s1.core.needOf false [x.toNat] = .none →
        exec (.acqt a sc) s = .next (Spec.fenced true false none s1)) ∧
      (s1.core.windowAt x.toNat = some (w, k) → Spec.allDone s1 →
        ∃ t, exec (.relt a sc) s = .next t ∧ t.core = (Spec.fenced false true s1.core.promo s1).core ∧ t.core.g = s.core.g ∧ t.mem = s.mem ∧
          ∀ q, s1.win? w.wid = some q → (t.win? w.wid).map (fun v => (v.tile k).marker) =
            some (if k < q.tiles.length then (q.tile k).marker + 1 else (q.tile k).marker)))

/-- O20. PTBIND in a partition that is FREE, OPEN or STOPPED, with its INDEX, feature and value allowed, makes the binding, opens a FREE
partition, answers 0 in PTRES and leaves every other partition as it was (R429 to R432); the tiles of a table that it reads come in (R218).
KPORT binds a port down, switched, or circuit with its slot table (R409): the port takes the binding at once, unless it serves another
partition that is sealed or stopping, when the binding waits for the seal, which is the model's reading (log 43). Covers ptbindCores,
ptbindEngines, ptbindMemports, ptbindQueues, ptbindS2root, ptbindKey, ptbindDump, ptbindFaper, ptbindNaper, ptbindPeer, ptbindKport,
ptbindRwin, ptbindIntr, ptbindInj. -/
def Obligations.PartitionBindings : Prop :=
  ∀ (a b : GReg) (n i : Nat) (y : Word) (ws : List Word) (l : List Aper) (ps : List (Nat × Nat × Nat)) (f : Nat → Nat) (h : Word) (s s2 : State),
    let p := s2.part n
    let bound (q : Partition) : Host.Outcome State Fault Refusal := .next (Spec.answers 0 (s2.putPart n q))
    let read (k : Nat) : State := s2.touchTable y.toNat k
    let boundAt (u : State) (q : Partition) : Host.Outcome State Fault Refusal := .next (Spec.answers 0 (u.putPart n q))
    let kport (x : Port) (u : State) : Prop :=
      let t := bindKport n i x (Spec.opened p) u
      let serves := ∃ m, (u.port i).part = some m ∧ m ≠ n ∧ ((u.part m).st = .sealed ∨ (u.part m).st = .stopping)
      exec (.ptbindKport a b) s = .next (Spec.answers 0 t) ∧ (t.part n).kports = assocPut p.kports i x ∧
      (serves → t = u.putPart n { Spec.opened p with kports := assocPut p.kports i x }) ∧
      (¬ serves → t.port i = { x with isUp := decide (x.mode ≠ 0) && (u.port i).isUp, part := some n })
    Spec.mayBind s2 n →
    (Spec.selects 0 a b s s2 n 0 y → (read 16).tableWords y.toNat 16 = some ws →
      exec (.ptbindCores a b) s = boundAt (read 16) { Spec.opened p with
        cores := some ((List.range 1024).filter fun c => (ws.getD (c / 64) 0).getLsbD (c % 64)) }) ∧
    (Spec.selects 1 a b s s2 n 0 y → y.toNat < 32 →
      exec (.ptbindEngines a b) s = bound { Spec.opened p with engines := some (y.setWidth 5) }) ∧
    (Spec.selects 2 a b s s2 n 0 y → y.toNat < 2 ^ 16 →
      exec (.ptbindMemports a b) s = bound { Spec.opened p with memports := some (y.setWidth 16) }) ∧
    (Spec.selects 3 a b s s2 n 0 y → y.toNat < 2 ^ 33 → 1 ≤ y.toNat / 2 ^ 16 → y.toNat % 2 ^ 16 + y.toNat / 2 ^ 16 ≤ 65536 →
      exec (.ptbindQueues a b) s = bound { Spec.opened p with queues := some (y.toNat % 2 ^ 16, y.toNat / 2 ^ 16) }) ∧
    (Spec.selects 4 a b s s2 n 0 y → y.toNat < 2 ^ 52 → y.toNat % 4096 = 0 →
      exec (.ptbindS2root a b) s = bound { Spec.opened p with s2root := some y.toNat }) ∧
    (Spec.selects 5 a b s s2 n 0 y → y.toNat < 1024 →
      exec (.ptbindKey a b) s = bound { Spec.opened p with key := some y.toNat }) ∧
    (Spec.selects 6 a b s s2 n i y → 1 ≤ i → y.toNat % 4096 = 0 → y.toNat + i * 2 ^ 20 ≤ 2 ^ 57 →
      (∀ k, k < 256 * i → s2.translate (y.toNat + 4096 * k) true true false = .ok (f k)) →
      exec (.ptbindDump a b) s =
        bound { Spec.opened p with dump := some (y.toNat, (List.range (256 * i)).map (fun k => f k / 4096), i) }) ∧
    (Spec.selects 7 a b s s2 n i y → 1 ≤ i → i ≤ 64 → (s2.featack.getLsbD 1 || s2.featack.getLsbD 2) = true →
      (read (4 * i)).tableWords y.toNat (4 * i) = some ws → entriesOf 4 aperOf ws i = some l →
      exec (.ptbindFaper a b) s = boundAt (read (4 * i)) { Spec.opened p with faper := l }) ∧
    (Spec.selects 8 a b s s2 n i y → 1 ≤ i → i ≤ 64 → s2.featack.getLsbD 4 = true →
      (read (4 * i)).tableWords y.toNat (4 * i) = some ws → entriesOf 4 aperOf ws i = some l →
      exec (.ptbindNaper a b) s = boundAt (read (4 * i)) { Spec.opened p with naper := l }) ∧
    (Spec.selects 9 a b s s2 n i y → 1 ≤ i → s2.featack.getLsbD 4 = true →
      (read (2 * i)).tableWords y.toNat (2 * i) = some ws → entriesOf 2 peerOf ws i = some ps →
      exec (.ptbindPeer a b) s =
        .next (Spec.answers 0 (((read (2 * i)).putPart n { Spec.opened p with peers := some ps }).ethChanged (read (2 * i))))) ∧
    (Spec.selects 10 a b s s2 n i y → i < 96 →
      (y = 0 → kport {} s2) ∧ (y = 1 → s2.featack.getLsbD 1 = true → kport { mode := 1 } s2) ∧
      (2 ≤ y.toNat → s2.featack.getLsbD 2 = true →
        let k := h.toNat / 2 ^ 32 % 128
        let u := (read 1).touchTable y.toNat (2 + k)
        (read 1).tableWords y.toNat 1 = some [h] → u.tableWords y.toNat 1 = some [h] → u.tableWords y.toNat (2 + k) = some ws →
        h &&& 0x7FFFFF8000000000 = 0 → 1 ≤ k → k ≤ 64 →
        (∀ j, j < k → (ws.getD (2 + j) 0) &&& 0x1FFFFF00000000 = 0 ∧ h.toNat % 2 ^ 32 < (ws.getD (2 + j) 0).toNat % 2 ^ 32) →
        kport { mode := 2, en := h.getLsbD 63, guard := h.toNat % 2 ^ 32, t0 := (ws.getD 1 0).toNat,
                slots := (List.range k).map fun j => ((ws.getD (2 + j) 0).toNat / 2 ^ 53, (ws.getD (2 + j) 0).toNat % 2 ^ 32) } u)) ∧
    (Spec.selects 11 a b s s2 n i y → i < 256 → s2.featack.getLsbD 3 = true → (read 2).tableWords y.toNat 2 = some ws →
      (ws.getD 0 0).toNat < 2 ^ 57 → (ws.getD 1 0) &&& 0xF80000FFFFFFE000 = 0 →
      ((ws.getD 1 0).toNat / 2 ^ 40 % 256 = 0x08 ∨ (ws.getD 1 0).toNat / 2 ^ 40 % 256 = 0x06) →
      1 ≤ (ws.getD 1 0).toNat % 2 ^ 13 → (ws.getD 1 0).toNat % 2 ^ 13 ≤ 4096 →
      exec (.ptbindRwin a b) s = boundAt (read 2) { Spec.opened p with rwins := (p.rwins.filter fun x => decide (x.1 ≠ i)) ++
        [(i, (ws.getD 0 0).toNat, (ws.getD 1 0).toNat / 2 ^ 48 + 1, (ws.getD 1 0).toNat / 2 ^ 40 % 256, (ws.getD 1 0).toNat % 2 ^ 13)] }) ∧
    (Spec.selects 12 a b s s2 n i y → isSource i = true → y &&& 0x7FFFFFFFFFFFF000 = 0 → y.toNat / 1024 % 4 ≠ 3 →
      exec (.ptbindIntr a b) s = .next (Spec.answers 0
        (({ s2 with routes := assocPut s2.routes i (y, n) } : State).putPart n (Spec.opened p)))) ∧
    (Spec.selects 13 a b s s2 n 0 y → (y = 0 ∨ y = 1 ∧ s2.featack.getLsbD 6 = true) →
      exec (.ptbindInj a b) s = bound { Spec.opened p with inj := decide (y = 1) })

/-- PTQUOTA in a partition that is OPEN or STOPPED (SLICE and RATE in a SEALED one too) sets the quota and answers 0; a SLICE written
while SEALED waits for the next slice (R429, R433). Covers ptquotaSlice, ptquotaPrio, ptquotaRate, ptquotaActiveq. -/
def Sys2Proof.Spec.PartitionQuotas : Prop :=
  ∀ (a b : GReg) (n : Nat) (y : Word) (s s2 : State),
    let p := s2.part n
    let set (q : Partition) : Host.Outcome State Fault Refusal := .next (Spec.answers 0 (s2.putPart n q))
    ((p.st = .opened ∨ p.st = .stopped) →
      (Spec.selects 0 a b s s2 n 0 y → y.toNat < 2 ^ 32 → exec (.ptquotaSlice a b) s = set { p with slice := y.toNat, sliceDue := none }) ∧
      (Spec.selects 1 a b s s2 n 0 y → y.toNat < 16 → exec (.ptquotaPrio a b) s = set { p with prio := y.toNat }) ∧
      (Spec.selects 3 a b s s2 n 0 y → 1 ≤ y.toNat → y.toNat ≤ 2048 →
        exec (.ptquotaActiveq a b) s = set { p with activeq := y.toNat })) ∧
    ((p.st = .opened ∨ p.st = .stopped ∨ p.st = .sealed) → Spec.selects 2 a b s s2 n 0 y →
      (y.toNat % 2 ^ 32 = 0 ∨ y.toNat / 2 ^ 32 ≠ 0) →
      exec (.ptquotaRate a b) s = set { p with rate := y.toNat % 2 ^ 32, ceiling := y.toNat / 2 ^ 32 }) ∧
    (p.st = .sealed → Spec.selects 0 a b s s2 n 0 y → y.toNat < 2 ^ 32 →
      exec (.ptquotaSlice a b) s = set { p with sliceDue := some y.toNat })

/-- O21. PTSEAL: seal takes an OPEN or STOPPED partition whose bindings are complete and conflict with no other to SEALED; stop takes a
SEALED one to STOPPING, its regions being saved with no grace; free gives every binding and quota of an OPEN or STOPPED one back, its
fault ring and the second-stage generation apart, with the routing entries and the ports that it had bound, and is FREE then; it answers 0
for a FREE one (R434, R437). What stop and free do to the regions, which the rules do not name, is the model's reading (log 44). Covers
ptsealSeal, ptsealStop, ptsealFree. -/
def Obligations.PartitionSeals : Prop :=
  ∀ (a : GReg) (n : Nat) (s s1 : State),
    (Spec.seals 0 a s s1 n → ((s1.part n).st = .opened ∨ (s1.part n).st = .stopped) → sealable s1 n = true →
      exec (.ptsealSeal a) s = .next (Spec.answers 0 (sealPart n s1)) ∧ ((sealPart n s1).part n).st = .sealed) ∧
    (Spec.seals 1 a s s1 n → (s1.part n).st = .sealed →
      exec (.ptsealStop a) s = .next (Spec.answers 0 (stopRegions n (s1.putPart n { s1.part n with st := .stopping, stopDue := true })))) ∧
    (Spec.seals 2 a s s1 n →
      ((s1.part n).st = .free → exec (.ptsealFree a) s = .next (Spec.answers 0 s1)) ∧
      ((s1.part n).st = .opened ∨ (s1.part n).st = .stopped →
        let t := freePart n s1
        exec (.ptsealFree a) s = .next (Spec.answers 0 t) ∧
        t.part n = { frqh := (t.part n).frqh, s2gen := (s1.part n).s2gen } ∧ (∀ e ∈ t.routes, e.2.2 ≠ n) ∧
        (∀ e ∈ s1.routes, e.2.2 ≠ n → e ∈ t.routes) ∧ (∀ r ∈ t.regions, r.part ≠ n) ∧
        (∀ x ∈ (s1.part n).kports, (s1.port x.1).part = some n → t.port x.1 = {})))

/-- The answers of PTBIND, PTQUOTA and PTSEAL that turn a request away (R432): 1 for a reserved bit of g[A], 4 before FEATACK0 has been
written, 2 for a partition that is not in a state the instruction allows; nothing else of the machine changes. R432 gives no order among
them; that 1 comes before 4 and 4 before 2 is the model's reading (log 43). -/
def Sys2Proof.Spec.PartitionAnswers : Prop :=
  ∀ (a b : GReg) (x y : Word) (s s1 s2 : State),
    (Spec.readsAll [a, b] s = some ([x, y], s2) → Spec.quiet s2 →
      (x &&& 0xFFFFFFFFF800F0C0 ≠ 0 →
        exec (.ptbindKey a b) s = .next (Spec.answers 1 s2) ∧ exec (.ptquotaPrio a b) s = .next (Spec.answers 1 s2)) ∧
      (x &&& 0xFFFFFFFFF800F0C0 = 0 → s2.featSet = false →
        exec (.ptbindKey a b) s = .next (Spec.answers 4 s2) ∧ exec (.ptquotaPrio a b) s = .next (Spec.answers 4 s2)) ∧
      (x &&& 0xFFFFFFFFF800F0C0 = 0 → s2.featSet = true → x.toNat / 2 ^ 16 = 0 →
        (s2.part (x.toNat % 64)).st = .sealed ∨ (s2.part (x.toNat % 64)).st = .stopping →
        exec (.ptbindKey a b) s = .next (Spec.answers 2 s2) ∧ exec (.ptquotaPrio a b) s = .next (Spec.answers 2 s2))) ∧
    (Spec.reads a s = some (x, s1) → Spec.quiet s1 → x &&& 0xFFFFFFFFFFFFFCC0 = 0 → x.toNat / 256 < 3 → s1.featSet = true →
      (s1.part (x.toNat % 64)).st = .stopping →
      exec (.ptsealSeal a) s = .next (Spec.answers 2 s1) ∧ exec (.ptsealStop a) s = .next (Spec.answers 2 s1) ∧
      exec (.ptsealFree a) s = .next (Spec.answers 2 s1))

/-- O22. PTQUOTA in a partition that is OPEN or STOPPED (SLICE and RATE in a SEALED one too) sets the quota and answers 0; a SLICE written
while SEALED waits for the next slice (R429, R433). Covers ptquotaSlice, ptquotaPrio, ptquotaRate, ptquotaActiveq. And: the answers of
PTBIND, PTQUOTA and PTSEAL that turn a request away (R432): 1 for a reserved bit of g[A], 4 before FEATACK0 has been written, 2 for a
partition that is not in a state the instruction allows; nothing else of the machine changes. R432 gives no order among them; that 1 comes
before 4 and 4 before 2 is the model's reading (log 43). -/
def Obligations.PartitionQuotas : Prop := Sys2Proof.Spec.PartitionQuotas ∧ Sys2Proof.Spec.PartitionAnswers

/-- O23. WRSR of RGNCTL at HV or FW on a live region that RGNSEL and the ASID name (R436): query answers 6 for a saved region and 5 for one
being saved; pre-empt of one that is not saved asks its tree to give its cores up; resume of one that is saved, being saved or held back
before its start lets the regions of its tree go on that are saved, being saved or asked to stop, and answers 2 for any other. That query
answers 5 for a halted region and 0 for one that is asked to stop or held back is the model's reading (log 44). Covers rgnctlQuery,
rgnctlPreempt, rgnctlResume. -/
def Obligations.RegionControl : Prop :=
  ∀ (d : GReg) (w : Word) (r : Region) (s s1 : State),
    Spec.srPermits s 0x30B true → Spec.reads d s = some (w, s1) → w.toNat / 2 ^ 16 % 4 ≠ 3 → Spec.names s1 w r →
    (exec (.rgnctlQuery d) s = .next (Spec.answers
      (match r.state with | .saved _ => 6 | .saving => 5 | .halting => 5 | _ => 0) s1)) ∧
    ((∀ f, r.state ≠ .saved f) → exec (.rgnctlPreempt d) s = .next (Spec.answers 0 (requestTree r.root true graceClk s1))) ∧
    (let goes := (∃ f, r.state = .saved f) ∨ r.state = .saving ∨ r.hold = true;
     let due (q : Region) : Bool := match q.state with | .saved _ => true | .saving => true | .requested _ => true | _ => q.resumeDue;
     (goes → exec (.rgnctlResume d) s = .next (Spec.answers 0 { s1 with
        regions := s1.regions.map fun q => if q.root = r.root then { q with hold := false, resumeDue := due q } else q })) ∧
     (¬ goes → exec (.rgnctlResume d) s = .next (Spec.answers 2 s1)))

/-- O24. WRSR of LAUNCH in a running region, with a 256-byte aligned block inside the region's leases, hands the block's 32 words to the
launch engine, which makes a region of them under a new identifier (R173, R174, R194); the core goes on at once. WRSR of S2GENRAISE
adds one to the partition's generation, and once every access translated before it has been performed it commits and the leases that it
revokes are reported (R227, R365); that the generation rises at once and not with the commit is the model's reading (log 74). Covers
launch, s2genraise. -/
def Obligations.LaunchAndRaise : Prop :=
  ∀ (d : GReg) (w : Word) (q : Region) (f : Nat) (r : Bool × Bool × Bool) (marks : List (Nat × Nat)) (chunks : List Nat) (s s1 : State),
    Spec.reads d s = some (w, s1) →
    let part := w.toNat % 64
    let marksNow := s1.raiseMarks fun c => decide (c.part = part)
    let chunksNow := s1.raiseChunks fun c => decide (c.part = part)
    (Spec.srPermits s 0x187 true → s1.myRegion = some q →
      leasedPage q (w.toNat / 4096) = some (f, r.1, r.2.1, r.2.2) → w.toNat % 256 = 0 → w.toNat < 2 ^ 57 →
      ∃ t, exec (.launch d) s = .next t ∧
        (let s2 := s1.forSpace q.part q.asid fun s => s.touchRange (f * 4096 + w.toNat % 4096) 256
         t = s2.takeBlock ((List.range 32).map fun i => s2.mem.word (f * 4096 + w.toNat % 4096 + 8 * i)) w.toNat q.asid q.part
          s1.core.level (some q) none) ∧
        t.core = s1.core ∧ t.nextRgn = s.nextRgn + 1) ∧
    (Spec.srPermits s 0x20A true → Spec.quiet s →
      ((∀ m ms, s.core.run ≠ .raising m ms) →
        (raiseDone s1 marksNow chunksNow = true → exec (.s2genraise d) s = .next (revokeLeases part (raiseStage2 part s1))) ∧
        (raiseDone s1 marksNow chunksNow = false → ∃ t, exec (.s2genraise d) s = .next t ∧ t.core.mark = .wait ∧ t.core.run = .raising marksNow chunksNow ∧
          (t.part part).s2gen = ((s.part part).s2gen + 1) % 2 ^ 32)) ∧
      (s.core.run = .raising marks chunks → raiseDone s1 marks chunks = true →
        exec (.s2genraise d) s = .next (revokeLeases part { s1 with core := { s1.core with run := .running } })))

namespace Sys2Proof.Spec

open Sys2Proof Sys2Proof.Machine

/-- A vector index source as a front slot reads it at issue (R25, R110): v63 pops the vector load-data queue. -/
def readsV (r : VReg) (s : State) : Option (VWord × State) :=
  if r = 63 then
    match s.core.vldq with
    | [] => none
    | e :: rest =>
      match e.val with
      | none => none
      | some v => if e.poison = true ∨ s.core.vPops ≠ 0 then none else some (v, { s with core := { s.core with vldq := rest } })
  else some (s.core.v.get ⟨r.toNat, r.isLt⟩, s)

/-- Bytes of a size code (R69). -/
def bytesOf (sz : Nat) : Nat := [1, 2, 4, 8, 32, 64, 128, 256].getD sz 0
/-- Alignment of a contiguous access of a size code (R101). -/
def alignOf (sz : Nat) : Nat := [1, 2, 4, 8, 32, 32, 32, 32].getD sz 1

/-- The elements of an addressed form, each with its own address (R98, R99): where they go in physical memory or in the scratchpad,
once every check of R100, R101, R178, R209 and R219 has passed and the windows and granules allow it. -/
def placed (els : List Elem) (sp rd wr land : Bool) (align : Nat) (s : State) : Option (List Piece) :=
  if (els.all fun e => decide (e.ea.toNat % align = 0)) = false then none
  else if sp then
    if (els.all fun e => decide (e.ea.toNat + e.len ≤ s.spadSize)) = true ∧
      (s.core.wins = [] ∨ s.core.needOf wr (els.flatMap fun e => probes e.ea.toNat e.len) = .none) then
      let ps := els.map fun e => ({ off := e.off, at' := e.ea.toNat, len := e.len } : Piece)
      if wr = true ∧ s.core.granuleBusy ps = true then none else some ps
    else none
  else if (els.all fun e => decide (e.ea.toNat + e.len ≤ 2 ^ 57)) = true ∧ (land = true ∨ s.inCompute = false) then
    (translateElems s rd wr els).toOption
  else none

/-- A queue entry of a kind, before it takes its number (R102). -/
def entry (kind : LaKind) (sp vec : Bool) (ps : List Piece) (ea : Word) : LaEntry :=
  { id := 0, kind := kind, sp := sp, vec := vec, pieces := ps, ea := ea }

/-- What a load leaves at issue (R102): an entry of the load-address queue, noted as the bundle's own, and a reserved entry of the load-data
queue. -/
def loaded (e : LaEntry) (s : State) : State :=
  let c := s.core
  let e := { e with id := c.nextId, bundle := c.pc, slot := c.curSlot, seq := c.seq, born := s.free }
  let c := { c with laq := c.laq ++ [e], nextId := c.nextId + 1, mine := c.mine ++ [e.id] }
  { s with core := if e.vec then { c with vldq := c.vldq ++ [{ id := e.id, addr := e.ea }] }
                   else { c with sldq := c.sldq ++ [{ id := e.id, addr := e.ea }] } }

/-- Both queues have room for a load (R31, R49). -/
def loadRoom (vec : Bool) (s : State) : Prop :=
  s.core.laq.length < 48 ∧ (if vec then s.core.vldq.length < 16 else s.core.sldq.length < 32)

/-- What a store leaves at issue (R51, R102): an entry of the load-address queue, paired with the oldest data push that waits. -/
def stored (e : LaEntry) (s : State) : State :=
  let c := s.core
  let e := { e with id := c.nextId, bundle := c.pc, slot := c.curSlot, seq := c.seq, born := s.free }
  let c := { c with nextId := c.nextId + 1, mine := c.mine ++ [e.id] }
  { s with core :=
      if e.vec then
        (match c.vsdq with
          | [] => { c with laq := c.laq ++ [e] }
          | d :: r => { c with laq := c.laq ++ [{ e with data := some d }], vsdq := r })
      else
        (match c.ssdq with
          | [] => { c with laq := c.laq ++ [e] }
          | d :: r => { c with laq := c.laq ++ [{ e with data := some (d.map fun w => w.setWidth 2048) }], ssdq := r }) }

/-- The elements of an element form: 64 of 1, 2 or 4 bytes, 32 of 8; element i lies at its own address and in its own 4-byte lane, or
8-byte lane (R98, R99). -/
def lanes (es : BitVec 2) (ea : Nat → Word) : List Elem :=
  (List.range (if es = 3 then 32 else 64)).map fun i =>
    { no := i, ea := ea i, len := 2 ^ es.toNat, off := if es = 3 then 8 * i else 4 * i }

/-- A contiguous access (R99). -/
def one (ea : Word) (n : Nat) : List Elem := [{ no := 0, ea := ea, len := n, off := 0 }]

/-- A gather or scatter index (R98). -/
def indexOf (base : Word) (v : VWord) (es : BitVec 2) (i : Nat) : Word :=
  base + ((v >>> (32 * (if es = 3 then 2 * i else i))).setWidth 32).signExtend 64

/-- The addressed loads (R98, R99, R108 to R110), from the values of their sources: scalar sources, an index register, whether the
access is global, the elements, the alignment and the data queue. -/
def loadForm : Instr → Option (List GReg × Option VReg × Bool × (List Word → VWord → List Elem) × Nat × Bool)
  | .la a imm sz gl => some ([a], none, gl,
      fun w _ => one (w.getD 0 0 + BitVec.ofNat 64 (bytesOf sz.toNat) * imm.signExtend 64) (bytesOf sz.toNat), alignOf sz.toNat, false)
  | .lav a imm sz gl => some ([a], none, gl,
      fun w _ => one (w.getD 0 0 + BitVec.ofNat 64 (bytesOf (4 + sz.toNat)) * imm.signExtend 64) (bytesOf (4 + sz.toNat)),
      alignOf (4 + sz.toNat), true)
  | .laxIndex a b sz gl => some ([a, b], none, gl, fun w _ => one (w.getD 0 0 + w.getD 1 0) (bytesOf sz.toNat), alignOf sz.toNat,
      decide (4 ≤ sz.toNat))
  | .lavStrided a b es gl => some ([a, b], none, gl,
      fun w _ => lanes es fun i => w.getD 0 0 + BitVec.ofNat 64 i * w.getD 1 0, 2 ^ es.toNat, true)
  | .lagv a b es gl => some ([a], some b, gl, fun w v => lanes es (indexOf (w.getD 0 0) v es), 2 ^ es.toNat, true)
  | _ => none

/-- The addressed stores without a write-back (R98, R99, R108 to R110), in the same form. -/
def storeForm : Instr → Option (List GReg × Option VReg × Bool × (List Word → VWord → List Elem) × Nat × Bool)
  | .sa a imm sz gl => some ([a], none, gl,
      fun w _ => one (w.getD 0 0 + BitVec.ofNat 64 (bytesOf sz.toNat) * imm.signExtend 64) (bytesOf sz.toNat), alignOf sz.toNat, false)
  | .sav a imm sz gl => some ([a], none, gl,
      fun w _ => one (w.getD 0 0 + BitVec.ofNat 64 (bytesOf (4 + sz.toNat)) * imm.signExtend 64) (bytesOf (4 + sz.toNat)),
      alignOf (4 + sz.toNat), true)
  | .saxIndex a b sz gl => some ([a, b], none, gl, fun w _ => one (w.getD 0 0 + w.getD 1 0) (bytesOf sz.toNat), alignOf sz.toNat,
      decide (4 ≤ sz.toNat))
  | .savStrided a b es gl => some ([a, b], none, gl,
      fun w _ => lanes es fun i => w.getD 0 0 + BitVec.ofNat 64 i * w.getD 1 0, 2 ^ es.toNat, true)
  | .sasv a b es gl => some ([a], some b, gl, fun w v => lanes es (indexOf (w.getD 0 0) v es), 2 ^ es.toNat, true)
  | _ => none

/-- The sources of an addressed form read in order: the scalar ones, then the index. -/
def sources (rs : List GReg) (x : Option VReg) (s : State) : Option (List Word × VWord × State) :=
  match readsAll rs s with
  | none => none
  | some (ws, s1) =>
    match x with
    | none => some (ws, 0, s1)
    | some r => match readsV r s1 with
      | none => none
      | some (v, s2) => some (ws, v, s2)

/-- The AMO of an instruction: operation number, base and operand, whether it is 8 bytes, whether it is global (R112). -/
def amoForm : Instr → Option (Nat × GReg × GReg × Bool × Bool)
  | .amoAdd a b e gl => some (0, a, b, e, gl)
  | .amoAnd a b e gl => some (1, a, b, e, gl)
  | .amoOr a b e gl => some (2, a, b, e, gl)
  | .amoXor a b e gl => some (3, a, b, e, gl)
  | .amoSwap a b e gl => some (4, a, b, e, gl)
  | .amoSmin a b e gl => some (5, a, b, e, gl)
  | .amoSmax a b e gl => some (6, a, b, e, gl)
  | .amoUmin a b e gl => some (7, a, b, e, gl)
  | .amoUmax a b e gl => some (8, a, b, e, gl)
  | .amoFadd a b gl => some (9, a, b, false, gl)
  | _ => none

/-- The new word of an AMO over w bits (R112). -/
def amoValue (op w : Nat) (old b : Nat) : Nat :=
  let x := BitVec.ofNat w old
  let y := BitVec.ofNat w b
  match op with
  | 0 => (x + y).toNat
  | 1 => (x &&& y).toNat
  | 2 => (x ||| y).toNat
  | 3 => (x ^^^ y).toNat
  | 4 => b
  | 5 => if x.slt y then old else b
  | 6 => if x.slt y then b else old
  | 7 => if old < b then old else b
  | 8 => if old < b then b else old
  | _ => (addVal .f32 0 (decodeVal .f32 old) (decodeVal .f32 b)).1

end Sys2Proof.Spec

/-- Loads at issue: with sources read, every check passed and room in both queues, a load takes an entry of the load-address queue
for its bytes and reserves the next entry of its load-data queue; nothing else changes (R98 to R102, R108 to R110). A slot that MASPLIT
splits (R124) is stated below. Covers la, lav, laxIndex, lavStrided, lagv. -/
def Sys2Proof.Spec.LoadsIssue : Prop :=
  ∀ (i : Instr) (rs : List GReg) (x : Option VReg) (gl : Bool) (els : List Word → VWord → List Elem) (al : Nat) (vec : Bool)
    (ws : List Word) (v : VWord) (ps : List Piece) (s s2 : State),
    Spec.loadForm i = some (rs, x, gl, els, al, vec) → Spec.sources rs x s = some (ws, v, s2) → s.core.mark = .ok →
    s.core.splitNow ≠ some s.core.curSlot → Spec.placed (els ws v) (!gl) true false false al s2 = some ps → Spec.loadRoom vec s2 →
    exec i s = .next (Spec.loaded (Spec.entry .load (!gl) vec ps (((els ws v).head?.map fun e => e.ea).getD 0)) s2)

/-- Stores at issue: with sources read, every check passed and room in the load-address queue, a store takes an entry for its bytes that
pairs with the oldest data push that waits; memory does not change before the store is performed (R51, R98 to R102, R108 to R110). Covers
sa, sav, saxIndex, savStrided, sasv. -/
def Sys2Proof.Spec.StoresIssue : Prop :=
  ∀ (i : Instr) (rs : List GReg) (x : Option VReg) (gl : Bool) (els : List Word → VWord → List Elem) (al : Nat) (vec : Bool)
    (ws : List Word) (v : VWord) (ps : List Piece) (s s2 : State),
    Spec.storeForm i = some (rs, x, gl, els, al, vec) → Spec.sources rs x s = some (ws, v, s2) → s.core.mark = .ok →
    s.core.splitNow ≠ some s.core.curSlot → Spec.placed (els ws v) (!gl) false true false al s2 = some ps → s2.core.laq.length < 48 →
    exec i s = .next (Spec.stored (Spec.entry .store (!gl) vec ps (((els ws v).head?.map fun e => e.ea).getD 0)) s2)

/-- The forms with a write-back: the access is at the base, and the base register then takes base plus increment; the base and the
increment are both read first (R98, R109). Covers laxIncrement, saxIncrement. -/
def Sys2Proof.Spec.WriteBackForms : Prop :=
  ∀ (a b : GReg) (sz : BitVec 3) (gl : Bool) (x y : Word) (ps : List Piece) (s s2 t : State),
    Spec.readsAll [a, b] s = some ([x, y], s2) → s.core.mark = .ok → s.core.splitNow ≠ some s.core.curSlot →
    let vec := decide (4 ≤ sz.toNat)
    (Spec.placed (Spec.one x (Spec.bytesOf sz.toNat)) (!gl) true false false (Spec.alignOf sz.toNat) s2 = some ps →
      Spec.loadRoom vec s2 →
      Spec.writes a (x + y) (Spec.loaded (Spec.entry .load (!gl) vec ps x) s2) = some t →
      exec (.laxIncrement a b sz gl) s = .next t) ∧
    (Spec.placed (Spec.one x (Spec.bytesOf sz.toNat)) (!gl) false true false (Spec.alignOf sz.toNat) s2 = some ps →
      s2.core.laq.length < 48 →
      Spec.writes a (x + y) (Spec.stored (Spec.entry .store (!gl) vec ps x) s2) = some t →
      exec (.saxIncrement a b sz gl) s = .next t)

/-- O25. Stores at issue: with sources read, every check passed and room in the load-address queue, a store takes an entry for its bytes
that pairs with the oldest data push that waits; memory does not change before the store is performed (R51, R98 to R102, R108 to
R110). Covers sa, sav, saxIndex, savStrided, sasv. And: the forms with a write-back: the access is at the base, and the base register
then takes base plus increment; the base and the increment are both read first (R98, R109). Covers laxIncrement, saxIncrement. -/
def Obligations.StoresIssue : Prop := Sys2Proof.Spec.StoresIssue ∧ Sys2Proof.Spec.WriteBackForms

/-- The words of the first 2 KiB of a save area (R334): the header, the g registers without g0 and g63, the loops with their set-up order,
the k registers, the SV bank and its loop shadow, the status words and the context registers; the rest is 0. -/
def Sys2Proof.Spec.SaveLayout : Prop :=
  ∀ (c : Core) (kind : Nat) (pc : Word),
    let w (off : Nat) : Word := wordOf (saveBase c kind pc) (off / 8)
    (saveBase c kind pc).length = 0x800 ∧ w 0 = BitVec.ofNat 64 kind ∧ w 8 = pc ∧ w 16 = c.level.setWidth 64 ∧ w 24 = c.stepclk ∧
    w 32 = c.dlreg ∧ w 40 = c.stepno ∧ w 48 = c.taskid ∧
    (∀ n : Fin 64, w (0x100 + 8 * n.val) = if n.val = 0 ∨ n.val = 63 then 0 else c.g.get n) ∧
    (∀ n : Fin 4, w (0x300 + 8 * n.val) = c.loops.lc.get n ∧ w (0x320 + 8 * n.val) = c.loops.ls.get n ∧
      w (0x340 + 8 * n.val) = c.loops.le.get n) ∧
    (c.loops.order.length ≤ 4 → Spec.holdsOrder (w 0x360) c.loops.order) ∧
    (∀ n : Fin 16, n.val ≠ 0 → ∀ j : Fin 4, w (0x380 + 32 * n.val + 8 * j.val) = ((c.k.get n) >>> (64 * j.val)).setWidth 64) ∧
    (∀ i : Fin 10, w (0x580 + 8 * i.val) = (c.bank 2).get i.val) ∧ (∀ i : Fin 13, w (0x600 + 8 * i.val) = (c.bank 2).getShadow i.val) ∧
    w 0x680 = c.vstat ∧ w 0x688 = mxstatOf c c.meq ∧ w 0x690 = BitVec.ofNat 64 (c.accSat.toNat + 2 ^ 16 * c.accPois.toNat) ∧
    w 0x698 = c.febudget ∧ w 0x6A0 = c.masplit ∧ (∀ n : Fin 8, w (0x6A8 + 8 * n.val) = (c.rqhdr.get n).setWidth 64) ∧
    w 0x700 = c.pkbase ∧ w 0x708 = c.sgbase ∧ w 0x710 = c.heapbase ∧ w 0x718 = c.heaplim ∧ w 0x720 = c.heapoff ∧ w 0x728 = c.ptroot ∧
    w 0x730 = c.pfqbase ∧
    (saveVectors c).length = 0x4C00 ∧
    (∀ n : Fin 64, ∀ j : Fin 32, wordOf (saveVectors c) (32 * n.val + j.val) = if n.val = 63 then 0 else ((c.v.get n) >>> (64 * j.val)).setWidth 64) ∧
    (∀ n : Fin 384, wordOf (saveVectors c) (2048 + n.val) = c.bf.get n)

namespace Sys2Proof.Spec

open Sys2Proof Sys2Proof.Machine

/-- The couching engine's writes: the first 2 KiB of the area, the v registers and bank formats for extent 1 or 2, the accumulators for
extent 2, from the address that SAVE names on, in the context that the core holds (R183, R334, R337). -/
def couched (t : Task) (s : State) : State :=
  let ctx := s.core.context
  let at' (off : Nat) : Nat := t.save.toNat / 256 % 2 ^ 49 * 256 + off
  let s1 := s.writeVirt t.region ctx (at' 0) (saveBase s.core 0 s.core.pc)
  let s2 := if t.save.toNat % 4 = 0 then s1 else s1.writeVirt t.region ctx (at' 0x800) (saveVectors s.core)
  if t.save.toNat % 4 = 2 then s2.writeVirt t.region ctx (at' 0x10000) (saveAccs s.core) else s2

/-- The core has left its task, which now stands last in every list (R185, R188). -/
def leaves (t : Task) (s : State) : State :=
  { s with core := s.core.freed, tasks := (s.tasks.filter fun u => decide (u.id ≠ t.id)) ++ [t] }

/-- STATE of a task's record: state, base and present priority, identifier (R183). -/
def stateTo (t : Task) (s : State) : State :=
  s.wordTo t.region t.ctx (t.record + 0x20) (BitVec.ofNat 64 (t.st + 2 ^ 4 * t.base + 2 ^ 8 * t.cur + 2 ^ 32 * t.id))

/-- link_tail (R188, R342): the record goes behind the tail of the bucket of its word, which is then the tail. -/
def linked (asid : Nat) (t : Task) (s : State) : State :=
  let w := t.waitw.toNat % 2 ^ 57
  let b := (t.ctx.getD 0 0).toNat + 16 * ((w / 8 ^^^ w / 4096 ^^^ asid) % 256)
  let s1 := s.touchVirt t.region t.ctx b 16
  let tail := s1.wordFrom t.region t.ctx (b + 8)
  let s2 := s1.wordTo t.region t.ctx (t.record + 0x10) 0
  let s3 := s2.wordTo t.region t.ctx (if tail = 0 then b else tail.toNat + 0x10) (BitVec.ofNat 64 t.record)
  s3.wordTo t.region t.ctx (b + 8) (BitVec.ofNat 64 t.record)

end Sys2Proof.Spec

/-- YIELD and PARK once nothing of the task is outstanding (R185, R188, R330, R334, R337, R342). YIELD goes on where no task of its level or
above is ready and no stop is asked for; else the save area is written, the core goes free and the task is ready at the tail of its level.
PARK sets the has-parked flag of its word and goes on where the bit is as wanted; else the save area is written, the core goes free, the
task is parked with its operand in WAITW, and the record is linked at the tail of its bucket. -/
def Sys2Proof.Spec.TasksLeave : Prop :=
  ∀ (a : GReg) (h : Nat) (o : Word) (t : Task) (s u : State), s.core.run = .leaving h o → s.mayLeave = true →
    let goesOn (s : State) : State := { s with core := { s.core with run := .running } }
    let here (t : Task) (s : State) : Task := { t with ctx := s.core.context, level := s.core.level, fresh := none }
    let ready (t : Task) (s : State) : Task :=
      { here t s with st := 1, since := s.clk, waits := none, parkKey := none, woken := false }
    let mustGo (s : State) : Prop := otherReady t s = true ∨ s.stopsAtYield t = true
    let yields (s : State) : State := Spec.stateTo (ready t s) (Spec.leaves (ready t s) (Spec.couched t s))
    (s.myTask s.core = none → exec .yield s = .next (goesOn s)) ∧
    (s.myTask s.core = some t →
      (¬ mustGo s → exec .yield s = .next (goesOn s)) ∧ (mustGo s → exec .yield s = .next (yields s))) ∧
    (s.parkServed o = some u → u.myTask u.core = some t → ∀ (sp : Bool) (p : Nat), parkPlace u o = .ok (sp, p) →
      let f : State := if sp then { u with core := { u.core with spad := u.core.spad.setParked p true } }
        else { u.touchRange p 8 with mem := (u.touchRange p 8).mem.setParked p true }
      let parked : Task := { here t f with st := 3, waitw := o, parkKey := some (if sp then f.core.id + 1 else 0, p / 8) }
      let bit := if sp then f.core.spad.fe p else f.mem.fe p
      (bit = o.getLsbD 62 → f.stopsAtYield t = false → exec (.park a) s = .next (goesOn f)) ∧
      (bit = o.getLsbD 62 → f.stopsAtYield t = true → exec (.park a) s = .next (yields f)) ∧
      (bit ≠ o.getLsbD 62 → exec (.park a) s = .next (Spec.linked f.core.asid parked
        ((Spec.stateTo parked (Spec.leaves parked (Spec.couched t f))).wordTo t.region parked.ctx (t.record + 0x18) o))))

/-- O26. What YIELD and PARK leave once nothing of the task is outstanding (R185, R188, R330, R334, R337, R342): YIELD goes on where no task
of its level or above is ready and no stop is asked for; else the save area is written, the core goes free and the task is ready at the
tail of its level. PARK sets the has-parked flag of its word and goes on where the bit is as wanted; else the save area is written, the
core goes free, the task is parked with its operand in WAITW, and the record is linked at the tail of its bucket. And: the words of a save
area stand where R334 puts them. That the couching engine writes the area at once is the model's choice (log 28). -/
def Obligations.TasksLeave : Prop := Sys2Proof.Spec.TasksLeave ∧ Sys2Proof.Spec.SaveLayout

/-- O27. Atomics and landing loads at issue, and PREF: an atomic takes entries like a load with its operands (R112, R113); a landing load
in a scheduled region does so with its arrival cycle, also in a compute step, where the landing buffer has room (R115); PREF takes an
entry for the line of its address and is dropped where the address would fault (R111); that a dropped PREF takes no queue entry is the
model's reading (log 35). MASPLIT has no effect on any of them (R124). Covers amoAdd, amoAnd, amoOr, amoXor, amoSwap,
amoSmin, amoSmax, amoUmin, amoUmax, amoFadd, cas, laLand, lavLand, pref. -/
def Obligations.AtomicsIssue : Prop :=
  ∀ (i : Instr) (op : Nat) (a b : GReg) (eight gl : Bool) (imm : BitVec 9) (sz : BitVec 2) (x y z : Word) (ps : List Piece)
    (pa : Nat) (s s2 s3 s1 : State),
    s.core.mark = .ok →
    (Spec.readsAll [a, b] s = some ([x, y], s2) → Spec.amoForm i = some (op, a, b, eight, gl) →
      Spec.placed (Spec.one x (if eight then 8 else 4)) (!gl) true true false (if eight then 8 else 4) s2 = some ps →
      Spec.loadRoom false s2 →
      exec i s = .next (Spec.loaded { Spec.entry (.amo op) (!gl) false ps x with eight := eight, operand := y } s2)) ∧
    (Spec.readsAll [a, b, b + 1] s = some ([x, y, z], s3) →
      Spec.placed (Spec.one x (if eight then 8 else 4)) (!gl) true true false (if eight then 8 else 4) s3 = some ps →
      Spec.loadRoom false s3 →
      exec (.cas a b eight gl) s = .next (Spec.loaded { Spec.entry .cas (!gl) false ps x with eight := eight, operand := y, swapVal := z } s3)) ∧
    (Spec.readsAll [a, b] s = some ([x, y], s2) → s2.inScheduled = true →
      s2.core.landBuf.length + (s2.core.laq.filter fun e => e.arrival.isSome).length < 64 →
      (Spec.placed (Spec.one x (Spec.bytesOf sz.toNat)) (!gl) true false true (Spec.alignOf sz.toNat) s2 = some ps →
        Spec.loadRoom false s2 →
        exec (.laLand a b sz gl) s = .next (Spec.loaded { Spec.entry .load (!gl) false ps x with arrival := some y } s2)) ∧
      (Spec.placed (Spec.one x (Spec.bytesOf (4 + sz.toNat))) (!gl) true false true (Spec.alignOf (4 + sz.toNat)) s2 = some ps →
        Spec.loadRoom true s2 →
        exec (.lavLand a b sz gl) s = .next (Spec.loaded { Spec.entry .load (!gl) true ps x with arrival := some y } s2))) ∧
    (Spec.reads a s = some (x, s1) → s1.core.laq.length < 48 →
      let ea := x + imm.signExtend 64
      (ea.toNat < 2 ^ 57 → s1.translate (ea.toNat / 128 * 128) true false false = .ok pa →
        let e := { Spec.entry .fetchLine false false [{ off := 0, at' := pa, len := 128 }] ea with id := s1.core.nextId, born := s1.free }
        exec (.pref a imm) s = .next { s1 with core :=
          { s1.core with laq := s1.core.laq ++ [e], nextId := s1.core.nextId + 1, mine := s1.core.mine ++ [s1.core.nextId] } }) ∧
      (2 ^ 57 ≤ ea.toNat → exec (.pref a imm) s = .next s1) ∧
      (∀ c, s1.translate (ea.toNat / 128 * 128) true false false = .error c → exec (.pref a imm) s = .next s1))

/-- Where an addressed form traps at issue (R100, R101, R178): a scratchpad access past the region's limit is SPAD_RANGE (0x00F), a
global one past 2^57 BAD_ADDRESS (0x010), one that is in range and misaligned MISALIGNED (0x011), each with the address in TVAL; a
global one in a compute step UNTIMED_ACCESS (0x015). Said of LA, for all sizes; nothing is queued. The order of the checks is the model's
reading (logs 36 and 37). -/
def Sys2Proof.Spec.LoadTraps : Prop :=
  ∀ (a : GReg) (imm : BitVec 9) (sz : BitVec 2) (gl : Bool) (x : Word) (s s1 : State),
    Spec.reads a s = some (x, s1) → s.core.splitNow ≠ some s.core.curSlot →
    let n := Spec.bytesOf sz.toNat
    let ea := x + BitVec.ofNat 64 n * imm.signExtend 64
    (gl = true → s1.inCompute = true → exec (.la a imm sz gl) s = Spec.trapped s1 0x015 0 0) ∧
    (gl = false → s1.spadSize < ea.toNat + n → exec (.la a imm sz gl) s = Spec.trapped s1 0x00F ea 0) ∧
    (gl = true → s1.inCompute = false → 2 ^ 57 < ea.toNat + n → exec (.la a imm sz gl) s = Spec.trapped s1 0x010 ea 0) ∧
    ((gl = true → s1.inCompute = false ∧ ea.toNat + n ≤ 2 ^ 57) → (gl = false → ea.toNat + n ≤ s1.spadSize) → ea.toNat % n ≠ 0 →
      exec (.la a imm sz gl) s = Spec.trapped s1 0x011 ea 0)

/-- The bytes of an element, each its own access with its place in the entry (R124). -/
def Sys2Proof.Spec.byteElems (e : Elem) : List Elem :=
  (List.range e.len).map fun k => { no := e.no, ea := e.ea + BitVec.ofNat 64 k, len := 1, off := e.off + k }

/-- The slot that MASPLIT names, where the bundle issued with ARM set (R124): a load or store, contiguous, with a write-back or of elements,
skips the alignment check and is queued as one-byte accesses in increasing address order for its single data entry; a fault of a byte is
reported with that byte's address (said of LA). -/
def Sys2Proof.Spec.SplitAccesses : Prop :=
  ∀ (i : Instr) (rs : List GReg) (x : Option VReg) (gl : Bool) (els : List Word → VWord → List Elem) (al : Nat) (vec : Bool)
    (ws : List Word) (v : VWord) (ps : List Piece) (a b : GReg) (sz : BitVec 3) (y z : Word) (imm : BitVec 9) (code k : Nat)
    (s s1 s2 t : State),
    s.core.mark = .ok → s.core.splitNow = some s.core.curSlot →
    let head := ((els ws v).head?.map fun e => e.ea).getD 0
    let bytes := (els ws v).flatMap Spec.byteElems
    let ones (w : Word) (n : Nat) : List Elem := (Spec.one w n).flatMap Spec.byteElems
    (Spec.sources rs x s = some (ws, v, s2) →
      (Spec.loadForm i = some (rs, x, gl, els, al, vec) → Spec.placed bytes (!gl) true false false 1 s2 = some ps → Spec.loadRoom vec s2 →
        exec i s = .next (Spec.loaded (Spec.entry .load (!gl) vec ps head) s2)) ∧
      (Spec.storeForm i = some (rs, x, gl, els, al, vec) → Spec.placed bytes (!gl) false true false 1 s2 = some ps →
        s2.core.laq.length < 48 → exec i s = .next (Spec.stored (Spec.entry .store (!gl) vec ps head) s2))) ∧
    (Spec.readsAll [a, b] s = some ([y, z], s2) →
      let vec := decide (4 ≤ sz.toNat)
      (Spec.placed (ones y (Spec.bytesOf sz.toNat)) (!gl) true false false 1 s2 = some ps → Spec.loadRoom vec s2 →
        Spec.writes a (y + z) (Spec.loaded (Spec.entry .load (!gl) vec ps y) s2) = some t → exec (.laxIncrement a b sz gl) s = .next t) ∧
      (Spec.placed (ones y (Spec.bytesOf sz.toNat)) (!gl) false true false 1 s2 = some ps → s2.core.laq.length < 48 →
        Spec.writes a (y + z) (Spec.stored (Spec.entry .store (!gl) vec ps y) s2) = some t → exec (.saxIncrement a b sz gl) s = .next t)) ∧
    (Spec.reads a s = some (y, s1) →
      let n := Spec.bytesOf (sz.toNat % 4)
      let ea := y + BitVec.ofNat 64 n * imm.signExtend 64
      let byte (m : Nat) : Nat := (ea + BitVec.ofNat 64 m).toNat
      k < n →
      ((∀ m, m < k → byte m < s1.spadSize) → s1.spadSize ≤ byte k →
        exec (.la a imm (BitVec.ofNat 2 (sz.toNat % 4)) false) s = Spec.trapped s1 0x00F (ea + BitVec.ofNat 64 k) 0) ∧
      (s1.inCompute = false → (∀ m, m < n → byte m < 2 ^ 57) → (∀ m, m < k → (s1.translate (byte m) true false false).isOk = true) →
        s1.translate (byte k) true false false = .error code →
        exec (.la a imm (BitVec.ofNat 2 (sz.toNat % 4)) true) s = Spec.trapped s1 code (ea + BitVec.ofNat 64 k) 0))

/-- O28. Loads at issue: with sources read, every check passed and room in both queues, a load takes an entry of the load-address queue
for its bytes and reserves the next entry of its load-data queue; nothing else changes (R98 to R102, R108 to R110). Covers la, lav,
laxIndex, lavStrided, lagv. And: where an addressed form traps at issue (R100, R101, R178): a scratchpad access past the region's limit is
SPAD_RANGE (0x00F), a global one past 2^57 BAD_ADDRESS (0x010), one that is in range and misaligned MISALIGNED (0x011), each with the
address in TVAL; a global one in a compute step UNTIMED_ACCESS (0x015), said of LA, for all sizes; that the compute step comes first and
the range before the alignment is the model's reading (logs 36 and 37). And: the slot that MASPLIT names is queued byte by byte (R124). -/
def Obligations.LoadsIssue : Prop := Sys2Proof.Spec.LoadsIssue ∧ Sys2Proof.Spec.LoadTraps ∧ Sys2Proof.Spec.SplitAccesses

/-- Performing a queued access (R99, R102 to R106, R111 to R113), which the steps LOAD_DATA_ARRIVAL and STORE_PERFORMED do once no
earlier access of the core meets its bytes, no fence holds it back and the ports serve it (its tiles being in the cache, or ones that fill
without a failed tag check). A load's pieces, of a contiguous or an element form, enter its reserved entry each at its place, the rest of
the entry being zero, poisoned where one of them is; a store's data reaches its pieces in order and every other byte of its store reads as
before, as does all of the other store; an AMO writes the value of its operation and CAS the swap value where the word equals the compare
value, and both deliver the old word; a prefetch delivers nothing. Each frees its entry. The bytes are those of the entry, the addresses
that the form computed at issue. Covers loadDataArrival, storePerformed. -/
def Sys2Proof.Spec.AccessesPerform : Prop :=
  ∀ (e : LaEntry) (p : Piece) (v : VWord) (s s1 : State),
    (s.core.laq.find? fun x => decide (x.id = s.args.n)) = some e → s.core.eligible e = true → (e.sp = true → s.core.wins = []) →
    (e.sp = false → served s e.pieces = some s1 ∧ ∀ q ∈ e.pieces, inDevice q.at' = true ∧ q.at' % 4096 + q.len ≤ 4096 ∧
      (let tile := s.tileOf (q.at' / 4096)
       tile.inCache = true ∨ tile.broken = false ∧ tile.inject = false ∧ ∀ u ∈ tile.under, u = s.core.keysel.toNat % 1024)) →
    let m (s : State) : Store := if e.sp then s.core.spad else s.mem
    let other (s : State) : Store := if e.sp then s.mem else s.core.spad
    let left := s.core.laq.filter fun x => decide (x.id ≠ e.id)
    (e.kind = .load → e.arrival = none → (e.pieces.Pairwise fun x y => x.off + x.len ≤ y.off) → (∀ q ∈ e.pieces, q.off + q.len ≤ 256) →
      ∃ (t : State) (d : VWord), exec .loadDataArrival s = .next t ∧ t.core.laq = left ∧ t.core.spad = s.core.spad ∧ t.mem = s.mem ∧
        t.core.g = s.core.g ∧
        (∀ q ∈ e.pieces, ∀ k, k < q.len → (d >>> (8 * (q.off + k))).setWidth 8 = cellGet (m s).bytes (q.at' + k)) ∧
        (∀ k, k < 256 → (∀ q ∈ e.pieces, k < q.off ∨ q.off + q.len ≤ k) → (d >>> (8 * k)).setWidth 8 = 0#8) ∧
        (let bad := e.pieces.any fun q => (m s).anyPoison q.at' q.len
         if e.vec then t.core.vldq = fillEntry e.id d bad e.ea s.core.vldq
         else t.core.sldq = fillEntry e.id (d.setWidth 64) bad e.ea s.core.sldq)) ∧
    (e.kind = .fetchLine →
      ∃ t, exec .loadDataArrival s = .next t ∧ t.core.laq = left ∧ t.core.sldq = s.core.sldq ∧ t.core.vldq = s.core.vldq ∧
        t.core.spad = s.core.spad ∧ t.mem = s.mem ∧ t.core.g = s.core.g) ∧
    (e.kind = .store → e.data = some (some v) → Memory.wf (m s) = true →
      ∃ t, exec .storePerformed s = .next t ∧ t.core.laq = left ∧ other t = other s ∧ t.core.g = s.core.g ∧ t.core.v = s.core.v ∧
        t.core.k = s.core.k ∧ t.core.acc = s.core.acc ∧
        (∀ (i : Nat) (q : Piece), e.pieces[i]? = some q → ∀ k, k < q.len →
          (∀ (j : Nat) (r : Piece), i < j → e.pieces[j]? = some r → q.at' + k < r.at' ∨ r.at' + r.len ≤ q.at' + k) →
          cellGet (m t).bytes (q.at' + k) = (v >>> (8 * (q.off + k))).setWidth 8) ∧
        (∀ y, (∀ q ∈ e.pieces, y < q.at' ∨ q.at' + q.len ≤ y) → cellGet (m t).bytes y = cellGet (m s).bytes y) ∧
        (m t).full = (m s).full) ∧
    (e.pieces = [p] → p.len = (if e.eight then 8 else 4) → Memory.wf (m s) = true → (m s).anyPoison p.at' p.len = false →
      let w := 8 * p.len
      let old := leNat ((m s).read p.at' p.len)
      let leavesWord (new : Nat) : Prop :=
        ∃ t, exec .loadDataArrival s = .next t ∧ t.core.laq = left ∧ other t = other s ∧ leNat ((m t).read p.at' p.len) = new ∧
          t.core.sldq = fillEntry e.id (BitVec.ofNat 64 old) false e.ea s.core.sldq ∧
          ∀ y, y < p.at' ∨ p.at' + p.len ≤ y → cellGet (m t).bytes y = cellGet (m s).bytes y
      (∀ op, e.kind = .amo op → leavesWord (Spec.amoValue op w old (e.operand.toNat % 2 ^ w) % 2 ^ w)) ∧
      (e.kind = .cas → leavesWord (if old = e.operand.toNat % 2 ^ w then e.swapVal.toNat % 2 ^ w else old)))

/-- Landing data (R115, R180): data whose cycle STEPCLK has reached leaves the landing buffer for its load-data queue, what is not
due stays; a freeze of more than FEBUDGET.RETRIES * 64 clk halts the region with LANDING_LATE (0x01F). Covers landing, landingLate. -/
def Sys2Proof.Spec.LandingSteps : Prop :=
  ∀ (s : State) (l : LandEntry) (t0 r : Nat),
    (∃ t, exec .landing s = .next t ∧
      t.core.landBuf = (s.core.landBuf.filter fun l => decide (s.core.stepclk.toNat < l.cycle.toNat)) ∧ t.core.g = s.core.g ∧ t.mem = s.mem) ∧
    (s.core.landBuf = [l] → l.cycle.toNat ≤ s.core.stepclk.toNat → l.vec = false →
      ∃ t, exec .landing s = .next t ∧ t.core.sldq = fillEntry l.id (l.val.setWidth 64) l.poison l.addr s.core.sldq) ∧
    (s.core.freeze = some t0 → s.core.region = some r → s.core.febudget.toNat % 2 ^ 32 * 64 < s.clk - t0 →
      ∃ t, exec .landingLate s = .next t ∧ t.core.freeze = none ∧
        t.todo = s.todo ++ [{ instr := .regionHalt, args := { n := r, m := 0x01F } }])

/-- O29. Performing a queued access (R99, R102 to R106, R111 to R113), which the steps LOAD_DATA_ARRIVAL and STORE_PERFORMED do once no
earlier access of the core meets its bytes, no fence holds it back and the ports serve it (its tiles being in the cache, or ones that fill
without a failed tag check). A load's pieces, of a contiguous or an element form, enter its reserved entry each at its place, poisoned
where one of them is; a store's data reaches its pieces in order and every other byte of its store reads as before, as does all of the other
store; an AMO writes the value of its operation and CAS the swap value where the word equals the compare value, and both deliver the old
word; a prefetch delivers nothing. Each frees its entry. Covers loadDataArrival, storePerformed. And: landing data whose cycle STEPCLK has
reached leaves the landing buffer for its load-data queue, what is not due stays; a freeze of more than FEBUDGET.RETRIES * 64 clk halts the
region with LANDING_LATE (0x01F) (R115, R180). Covers landing, landingLate. -/
def Obligations.AccessesPerform : Prop := Sys2Proof.Spec.AccessesPerform ∧ Sys2Proof.Spec.LandingSteps

namespace Sys2Proof.Spec

open Sys2Proof Sys2Proof.Machine

/-- The value of a code that is finite (R128 to R133). -/
def valueOf (f : Fmt) (c : Nat) : Option ℚ :=
  match decodeVal f c with
  | .fin n m q => some ((if n then -1 else 1) * (m : ℚ) * (2 : ℚ) ^ q)
  | _ => none

/-- u is ulp(y): 2^(floor(log2 |y|) - 23), and never less than 2^-149 (R155). -/
def isUlp (y u : ℝ) : Prop := ∃ e : ℤ, (2 : ℝ) ^ e ≤ |y| ∧ |y| < (2 : ℝ) ^ (e + 1) ∧ u = (2 : ℝ) ^ max (e - 23) (-149)

/-- The exact result lies beyond the largest finite value: the code is that infinity, with OF (R155). -/
def beyond (f : Fmt) (y : ℝ) (r : Nat × Conds) : Prop :=
  decodeVal f r.1 = .inf (decide (y < 0)) ∧ r.2 &&& 0x020 = 0x020 ∧ ∀ c v, valueOf f c = some v → |((v : ℚ) : ℝ)| < |y|

/-- An element function on binary32: within k ulp of the exact result, or within an absolute bound on some inputs; equal to it where it is
representable (R155). -/
def closeFn (op : Nat) (F : ℝ → ℝ) (dom near : ℚ → Prop) (k : ℝ) : Prop :=
  ∀ (c : Nat) (x : ℚ), c < 2 ^ 32 → valueOf .f32 c = some x → dom x →
    let y := F ((x : ℚ) : ℝ)
    let r := elemFn op .f32 c
    (beyond .f32 y r ∨ ∃ v, valueOf .f32 r.1 = some v ∧
      (near x → |((v : ℚ) : ℝ) - y| ≤ (2 : ℝ) ^ (-23 : ℤ)) ∧ (¬ near x → ∀ u, isUlp y u → |((v : ℚ) : ℝ) - y| ≤ k * u)) ∧
    ∀ c' v, valueOf .f32 c' = some v → ((v : ℚ) : ℝ) = y → valueOf .f32 r.1 = some v

/-- An element function on binary16 or bfloat16: the exact result rounded to nearest even (R155). -/
def nearestFn (op : Nat) (F : ℝ → ℝ) (dom : ℚ → Prop) : Prop :=
  ∀ (f : Fmt) (c : Nat) (x : ℚ), f = .f16 ∨ f = .b16 → c < 2 ^ 16 → valueOf f c = some x → dom x →
    let y := F ((x : ℚ) : ℝ)
    let r := elemFn op f c
    beyond f y r ∨ ∃ v, valueOf f r.1 = some v ∧ ∀ c' v', valueOf f c' = some v' →
      |((v : ℚ) : ℝ) - y| ≤ |((v' : ℚ) : ℝ) - y| ∧ (|((v : ℚ) : ℝ) - y| = |((v' : ℚ) : ℝ) - y| → v ≠ v' → r.1 % 2 = 0)

/-- The special inputs of the element functions (R155), on every format that they have. -/
def ElementSpecials : Prop :=
  ∀ (f : Fmt) (c : Nat) (n : Bool) (m : Nat) (q : Int), f = .f32 ∨ f = .f16 ∨ f = .b16 → c < 2 ^ f.bits →
    let zero (x : Nat) (n : Bool) : Prop := ∃ q, decodeVal f x = .fin n 0 q
    (decodeVal f c = .nan → ∀ op, op < 4 → elemFn op f c = (f.layout.nanCode, 0)) ∧
    (decodeVal f c = .fin n 0 q →
      (decodeVal f (elemFn 0 f c).1 = .inf n ∧ (elemFn 0 f c).2 = condDZ) ∧ (decodeVal f (elemFn 1 f c).1 = .inf n ∧ (elemFn 1 f c).2 = condDZ) ∧
      (decodeVal f (elemFn 3 f c).1 = .inf true ∧ (elemFn 3 f c).2 = condDZ)) ∧
    (decodeVal f c = .inf n → (zero (elemFn 0 f c).1 n ∧ (elemFn 0 f c).2 = 0) ∧
      (n = false → (zero (elemFn 1 f c).1 false ∧ (elemFn 1 f c).2 = 0) ∧ (decodeVal f (elemFn 2 f c).1 = .inf false ∧ (elemFn 2 f c).2 = 0) ∧
        decodeVal f (elemFn 3 f c).1 = .inf false ∧ (elemFn 3 f c).2 = 0) ∧
      (n = true → zero (elemFn 2 f c).1 false ∧ (elemFn 2 f c).2 = 0)) ∧
    ((decodeVal f c = .inf true ∨ (decodeVal f c = .fin true m q ∧ m ≠ 0)) →
      elemFn 1 f c = (f.layout.nanCode, condNV) ∧ elemFn 3 f c = (f.layout.nanCode, condNV)) ∧
    (valueOf f c = some 1 → zero (elemFn 3 f c).1 false)

end Sys2Proof.Spec

/-- O30. VRCP, VRSQ, VEXP2 and VLOG2 keep the bounds of R155: on binary32 within 1, 1, 2 and 2 ulp of the exact result (VLOG2 within an
absolute 2^-23 from 0.5 to 2), and equal to it where it is representable; on binary16 and bfloat16 the exact result rounded to nearest even.
Which value inside the bound a binary32 result takes is free (log 17), so this holds of each. -/
def Obligations.ElementFunctions : Prop :=
  Sys2Proof.Spec.closeFn 0 (fun x => x⁻¹) (fun x => x ≠ 0) (fun _ => False) 1 ∧
  Sys2Proof.Spec.closeFn 1 (fun x => (Real.sqrt x)⁻¹) (fun x => 0 < x) (fun _ => False) 1 ∧
  Sys2Proof.Spec.closeFn 2 (fun x => (2 : ℝ) ^ x) (fun _ => True) (fun _ => False) 2 ∧
  Sys2Proof.Spec.closeFn 3 (fun x => Real.logb 2 x) (fun x => 0 < x) (fun x => 1 / 2 ≤ x ∧ x ≤ 2) 2 ∧
  Sys2Proof.Spec.nearestFn 0 (fun x => x⁻¹) (fun x => x ≠ 0) ∧ Sys2Proof.Spec.nearestFn 1 (fun x => (Real.sqrt x)⁻¹) (fun x => 0 < x) ∧
  Sys2Proof.Spec.nearestFn 2 (fun x => (2 : ℝ) ^ x) (fun _ => True) ∧ Sys2Proof.Spec.nearestFn 3 (fun x => Real.logb 2 x) (fun x => 0 < x)

namespace Sys2Proof.Spec

open Sys2Proof Sys2Proof.Machine

/-- The v sources of a back slot, in order: v63 pops the vector load-data queue, whose head must have arrived unpoisoned; any other
register is read (R25, R51, R143). -/
def vSources : List VReg → State → Option (List VWord × State)
  | [], s => some ([], s)
  | r :: l, s =>
    if r = 63 then
      match s.core.vldq with
      | [] => none
      | e :: q =>
        match e.val with
        | none => none
        | some v =>
          if e.poison then none
          else match vSources l { s with core := { s.core with vldq := q } } with
            | none => none
            | some (vs, t) => some (v :: vs, t)
    else match vSources l s with
      | none => none
      | some (vs, t) => some (s.core.vVal r :: vs, t)

/-- The g sources of a back slot (R48, R51): read at issue, but g63 without an issue value pops once no earlier queued slot pops. -/
def gSources : List GReg → State → Option (List Word × State)
  | [], s => some ([], s)
  | r :: l, s =>
    if r = 63 ∧ (overlay s.core.early 63).isNone = true then
      if s.core.queued.any (fun q => s.core.earlier q && decide (q.popsG ≠ 0)) = true then none
      else match s.core.sldq with
      | [] => none
      | e :: q =>
        match e.val with
        | none => none
        | some w =>
          if e.poison then none
          else match gSources l { s with core := { s.core with sldq := q } } with
            | none => none
            | some (ws, t) => some (w :: ws, t)
    else match gSources l s with
      | none => none
      | some (ws, t) => some (s.core.gVal r :: ws, t)

/-- A V slot can execute now: its destination has room and its sources can be read (R49, R51). -/
def vNow (i : Instr) (vr : List VReg) (gr : List GReg) (s : State) : Option (List VWord × List Word × State) :=
  if roomFor (use i) s.core = false then none
  else match vSources vr s with
    | none => none
    | some (vs, s1) => match gSources gr s1 with
      | none => none
      | some (ws, s2) => some (vs, ws, s2)

/-- n elements of w bits side by side from bit 0 (R140). -/
def pack (w n : Nat) (f : Nat → Nat) : Nat := ((List.range n).map fun j => f j % 2 ^ w * 2 ^ (w * j)).sum
/-- The conditions of n elements together (R145). -/
def conds (n : Nat) (f : Nat → Conds) : Conds := (List.range n).foldl (fun c j => c ||| f j) 0

/-- The state after a V slot has written v to register d with the conditions c: v63 pushes (R25), the sticky bits of VSTAT gather
the conditions (R145), and nothing else changes. -/
def vDone (d : VReg) (v : VWord) (c : Conds) (s : State) : State :=
  let core := { s.core with vstat := s.core.vstat ||| (c &&& 0x1F8) }
  { s with core := if d = 63 then core.pushV (some v)
      else { core with v := core.v.set d.toNat v d.isLt, earlyV := (d, s.core.vVal d) :: s.core.earlyV } }

/-- The state after a V slot has written every element of d (R140, R145). -/
def vDoneElems (d : VReg) (w : Nat) (f : Nat → Nat × Conds) (s : State) : State :=
  vDone d (BitVec.ofNat 2048 (pack w (2048 / w) fun j => (f j).1)) (conds (2048 / w) fun j => (f j).2) s

/-- Element j is active under a mask by the bit of its lowest byte (R141). -/
def isActive (m : MaskWord) (w j : Nat) : Bool := m.getLsbD (w * j / 8)

/-- The VSTAT that governs the slot: the one that its bundle issued under, when a WRSR of that bundle has changed it since (R89, R91). -/
def control (s : State) : Word :=
  match s.core.olds.find? fun e => decide (e.1 = 0x100) with
  | some e => e.2
  | none => s.core.vstat

/-- The rounding mode (R134, R144). -/
def rounding (s : State) : Nat := (control s).toNat % 4

/-- Element j of width w (R140). -/
def el (v : VWord) (w j : Nat) : Nat := v.toNat / 2 ^ (w * j) % 2 ^ w

/-- An element as the integer of its type. -/
def asInt (t : VTy) (c : Nat) : Int := if t.signed then (BitVec.ofNat t.width c).toInt else ((BitVec.ofNat t.width c).toNat : Int)

/-- An integer kept modulo 2^w. -/
def wrapTo (w : Nat) (x : Int) : Nat := (BitVec.ofInt w x).toNat

/-- Integer types wrap, floating types round once and record (R146, R148). -/
def arith (t : VTy) (onInt : Int → Int → Int) (onFloat : Fmt → Val → Val → Nat × Conds) (a b : Nat) : Nat × Conds :=
  match t.fmt with
  | none => (wrapTo t.width (onInt (asInt t a) (asInt t b)), 0)
  | some f => onFloat f (decodeVal f a) (decodeVal f b)

/-- VMIN and VMAX (R149): of two values the lesser or the greater, a NaN of a floating type giving the default NaN. -/
def choose (larger : Bool) (t : VTy) (a b : Nat) : Nat × Conds :=
  match t.fmt with
  | none => (if larger then (if asInt t a < asInt t b then b else a) else (if asInt t b < asInt t a then b else a), 0)
  | some f =>
    if decodeVal f a = .nan ∨ decodeVal f b = .nan then (f.layout.nanCode, 0)
    else (if larger then (if valLt true (decodeVal f a) (decodeVal f b) then b else a)
          else (if valLt true (decodeVal f b) (decodeVal f a) then b else a), 0)

/-- The element operations of the two-source forms (R148 to R150), by rounding mode. -/
def twoOp : Instr → Option (Nat × (Nat → Nat → Nat → Nat × Conds))
  | .vadd _ _ _ t | .vaddMasked _ _ _ t => some (t.width, fun m => arith t (· + ·) fun f x y => addVal f m x y)
  | .vsub _ _ _ t | .vsubMasked _ _ _ t => some (t.width, fun m => arith t (· - ·) fun f x y => addVal f m x y.neg)
  | .vmul _ _ _ t | .vmulMasked _ _ _ t => some (t.width, fun m => arith t (· * ·) fun f x y => mulVal f m x y)
  | .vmulh _ _ _ t | .vmulhMasked _ _ _ t =>
    some (t.width, fun _ a b => (wrapTo t.width (asInt t a * asInt t b / 2 ^ t.width), 0))
  | .vmin _ _ _ t | .vminMasked _ _ _ t => some (t.width, fun _ => choose false t)
  | .vmax _ _ _ t | .vmaxMasked _ _ _ t => some (t.width, fun _ => choose true t)
  | .vshl _ _ _ t | .vshlMasked _ _ _ t => some (t.width, fun _ a b => ((BitVec.ofNat t.width a <<< (b % t.width)).toNat, 0))
  | .vshr _ _ _ t | .vshrMasked _ _ _ t => some (t.width, fun _ a b => ((BitVec.ofNat t.width a >>> (b % t.width)).toNat, 0))
  | .vsha _ _ _ t | .vshaMasked _ _ _ t =>
    some (t.width, fun _ a b => (((BitVec.ofNat t.width a).sshiftRight (b % t.width)).toNat, 0))
  | .vandMasked _ _ _ => some (8, fun _ a b => (a &&& b, 0))
  | .vorMasked _ _ _ => some (8, fun _ a b => (a ||| b, 0))
  | .vxorMasked _ _ _ => some (8, fun _ a b => (a ^^^ b, 0))
  | _ => none

/-- Destination, mask and sources of the two-source forms: a masked form's first source is D (R66, R147). -/
def twoRegs : Instr → Option (VReg × Option KReg × VReg × VReg)
  | .vadd d a b _ | .vsub d a b _ | .vmul d a b _ | .vmulh d a b _ | .vmin d a b _ | .vmax d a b _ | .vshl d a b _ | .vshr d a b _
  | .vsha d a b _ => some (d, none, a, b)
  | .vaddMasked d k b _ | .vsubMasked d k b _ | .vmulMasked d k b _ | .vmulhMasked d k b _ | .vminMasked d k b _ | .vmaxMasked d k b _
  | .vshlMasked d k b _ | .vshrMasked d k b _ | .vshaMasked d k b _ | .vandMasked d k b | .vorMasked d k b | .vxorMasked d k b =>
    some (d, some k, d, b)
  | _ => none

/-- VABS and VNEG (R154): an integer's magnitude or negative modulo 2^w; a float's sign bit cleared or inverted, a NaN giving the
default NaN. -/
def magnitude (negate : Bool) (t : VTy) (c : Nat) : Nat :=
  match t.fmt with
  | none =>
    let a := (BitVec.ofNat t.width c).toInt
    wrapTo t.width (if negate ∨ a < 0 then -a else a)
  | some f =>
    let top := 2 ^ (t.width - 1)
    if decodeVal f c = .nan then f.layout.nanCode
    else if negate ∧ c < top then c + top
    else c % top

/-- The element operations of the one-source forms (R154, R155, R168, R169): destination, source, mask, width, and the value of
element j under a rounding mode. -/
def oneOp : Instr → Option (VReg × VReg × KReg × Nat × (VWord → Nat → Nat × Conds))
  | .vabs d a k t => some (d, a, k, t.width, fun v j => (magnitude false t (el v t.width j), 0))
  | .vneg d a k t => some (d, a, k, t.width, fun v j => (magnitude true t (el v t.width j), 0))
  | .vnot d a k => some (d, a, k, 8, fun v j => ((~~~BitVec.ofNat 8 (el v 8 j)).toNat, 0))
  | .vmov d a k => some (d, a, k, 8, fun v j => (el v 8 j, 0))
  | .vrcp d a k t => some (d, a, k, t.width, fun v j => elemFn 0 (t.fmt.getD .f32) (el v t.width j))
  | .vrsq d a k t => some (d, a, k, t.width, fun v j => elemFn 1 (t.fmt.getD .f32) (el v t.width j))
  | .vexp2 d a k t => some (d, a, k, t.width, fun v j => elemFn 2 (t.fmt.getD .f32) (el v t.width j))
  | .vlog2 d a k t => some (d, a, k, t.width, fun v j => elemFn 3 (t.fmt.getD .f32) (el v t.width j))
  | .vsat d a k t => some (d, a, k, 32, fun v j =>
      let x := (BitVec.ofNat 32 (el v 32 j)).toInt
      let y := max (intRange t.signed t.width).1 (min (intRange t.signed t.width).2 x)
      (wrapTo 32 y, if y = x then 0 else condSAT))
  | .vunpkLo d a k t => some (d, a, k, 2 * t.width, fun v j =>
      let e := BitVec.ofNat t.width (el v t.width j)
      (wrapTo (2 * t.width) (if t.signed then e.toInt else (e.toNat : Int)), 0))
  | .vunpkHi d a k t => some (d, a, k, 2 * t.width, fun v j =>
      let e := BitVec.ofNat t.width (el v t.width (2048 / t.width / 2 + j))
      (wrapTo (2 * t.width) (if t.signed then e.toInt else (e.toNat : Int)), 0))
  | _ => none

/-- The fused forms: format, the sign of the product and of the addend, registers and mask (R151). -/
def fusedOp : Instr → Option (Fmt × Bool × Bool × VReg × VReg × VReg × KReg)
  | .vfmaF32 d a b k => some (.f32, false, false, d, a, b, k)
  | .vfmaF16 d a b k => some (.f16, false, false, d, a, b, k)
  | .vfmaB16 d a b k => some (.b16, false, false, d, a, b, k)
  | .vfmsF32 d a b k => some (.f32, false, true, d, a, b, k)
  | .vfmsF16 d a b k => some (.f16, false, true, d, a, b, k)
  | .vfmsB16 d a b k => some (.b16, false, true, d, a, b, k)
  | .vfnmaF32 d a b k => some (.f32, true, false, d, a, b, k)
  | .vfnmaF16 d a b k => some (.f16, true, false, d, a, b, k)
  | .vfnmaB16 d a b k => some (.b16, true, false, d, a, b, k)
  | _ => none

/-- A value with its sign changed where asked. -/
def signed (change : Bool) (x : Val) : Val := if change then x.neg else x

/-- VCMP forms: relation, destination, sources, type (R156). -/
def compareOp : Instr → Option (Nat × KReg × VReg × VReg × VTy)
  | .vcmpEq d a b t => some (0, d, a, b, t)
  | .vcmpNe d a b t => some (1, d, a, b, t)
  | .vcmpLt d a b t => some (2, d, a, b, t)
  | .vcmpLe d a b t => some (3, d, a, b, t)
  | _ => none

/-- The relation of VCMP on two elements (R156): a NaN is unequal to everything and below nothing, and .lt and .le of one are invalid. -/
def related (op : Nat) (t : VTy) (a b : Nat) : Bool × Conds :=
  match t.fmt with
  | none =>
    let x := asInt t a
    let y := asInt t b
    ([decide (x = y), decide (x ≠ y), decide (x < y), decide (x ≤ y)].getD op false, 0)
  | some f =>
    let x := decodeVal f a
    let y := decodeVal f b
    if x = .nan ∨ y = .nan then (decide (op = 1), if 2 ≤ op then condNV else 0)
    else ([!valLt false x y && !valLt false y x, valLt false x y || valLt false y x, valLt false x y, !valLt false y x].getD op false, 0)

/-- A back slot writes a g register or pushes g63 (R25, R48). -/
def gDone (d : GReg) (w : Word) (s : State) : State :=
  { s with core := if d = 63 then s.core.pushG (some w)
      else if d = 0 then s.core
      else { s.core with g := s.core.g.set d.toNat w d.isLt, early := (d, s.core.gVal d) :: s.core.early } }

/-- A slot writes a k register; k0 discards (R30). -/
def kDone (d : KReg) (m : MaskWord) (s : State) : State :=
  { s with core := if d = 0 then s.core else { s.core with k := s.core.k.set d.toNat m d.isLt } }

end Sys2Proof.Spec

/-- The element-wise two-source vector forms (R142, R147 to R150): each active element of D takes the operation of the elements of
its sources, an inactive one keeps its value; a masked form's first source is D, read after B; the conditions gather in VSTAT. Integer
types wrap, floating types round once. Covers vadd, vsub, vmul, vmulh, vmin, vmax, vshl, vshr, vsha and their masked forms
vaddMasked, vsubMasked, vmulMasked, vmulhMasked, vminMasked, vmaxMasked, vshlMasked, vshrMasked, vshaMasked, and vandMasked, vorMasked,
vxorMasked by bytes. -/
def Sys2Proof.Spec.VectorTwoSource : Prop :=
  ∀ (i : Instr) (d a b : VReg) (k : Option KReg) (w : Nat) (f : Nat → Nat → Nat → Nat × Conds) (x y : VWord) (s s1 : State),
    Spec.twoRegs i = some (d, k, a, b) → Spec.twoOp i = some (w, f) →
    (if k.isSome then Spec.vNow i [b, a] [] s = some ([y, x], [], s1) else Spec.vNow i [a, b] [] s = some ([x, y], [], s1)) →
    exec i s = .next (Spec.vDoneElems d w (fun j =>
      if Spec.isActive ((k.map s1.core.kVal).getD (BitVec.allOnes 256)) w j then f (Spec.rounding s1) (Spec.el x w j) (Spec.el y w j)
      else (Spec.el x w j, 0)) s1)

/-- O31. VAND, VOR and VXOR on whole registers, VPERM and VPACK with and without a mask (R148, R163, R167): VPERM element j is the element
of the first source that element j of the second names, VPACK clamps the wider elements of both sources into the narrower type and
records SAT. Covers vand, vor, vxor, vperm, vpermMasked, vpack, vpackMasked. -/
def Obligations.VectorPermPack : Prop :=
  ∀ (d a b : VReg) (k : KReg) (t : VTy) (nt : NTy) (x y : VWord) (s s1 : State),
    let perm (j : Nat) : Nat := Spec.el x t.width (Spec.el y t.width j % (2048 / t.width))
    let packed (j : Nat) : Nat × Conds :=
      let half := 1024 / nt.width
      let e := BitVec.ofNat (2 * nt.width) (if j < half then Spec.el x (2 * nt.width) j else Spec.el y (2 * nt.width) (j - half))
      let v := max (intRange nt.signed nt.width).1 (min (intRange nt.signed nt.width).2 e.toInt)
      (Spec.wrapTo nt.width v, if v = e.toInt then 0 else condSAT)
    (Spec.vNow (.vand d a b) [a, b] [] s = some ([x, y], [], s1) → exec (.vand d a b) s = .next (Spec.vDone d (x &&& y) 0 s1)) ∧
    (Spec.vNow (.vor d a b) [a, b] [] s = some ([x, y], [], s1) → exec (.vor d a b) s = .next (Spec.vDone d (x ||| y) 0 s1)) ∧
    (Spec.vNow (.vxor d a b) [a, b] [] s = some ([x, y], [], s1) → exec (.vxor d a b) s = .next (Spec.vDone d (x ^^^ y) 0 s1)) ∧
    (Spec.vNow (.vperm d a b t) [a, b] [] s = some ([x, y], [], s1) →
      exec (.vperm d a b t) s = .next (Spec.vDoneElems d t.width (fun j => (perm j, 0)) s1)) ∧
    (Spec.vNow (.vpermMasked d k b t) [b, d] [] s = some ([y, x], [], s1) →
      exec (.vpermMasked d k b t) s = .next (Spec.vDoneElems d t.width
        (fun j => (if Spec.isActive (s1.core.kVal k) t.width j then perm j else Spec.el x t.width j, 0)) s1)) ∧
    (Spec.vNow (.vpack d a b nt) [a, b] [] s = some ([x, y], [], s1) →
      exec (.vpack d a b nt) s = .next (Spec.vDoneElems d nt.width packed s1)) ∧
    (Spec.vNow (.vpackMasked d k b nt) [b, d] [] s = some ([y, x], [], s1) →
      exec (.vpackMasked d k b nt) s = .next (Spec.vDoneElems d nt.width
        (fun j => if Spec.isActive (s1.core.kVal k) nt.width j then packed j else (Spec.el x nt.width j, 0)) s1))

/-- The element-wise one-source vector forms and VBCAST (R142, R153 to R155, R165, R168, R169): each active element of D takes the
operation of its source, an inactive one becomes zero. Covers vabs, vneg, vnot, vmov, vrcp, vrsq, vexp2, vlog2, vsat, vunpkLo,
vunpkHi, vbcast. -/
def Sys2Proof.Spec.VectorOneSource : Prop :=
  ∀ (i : Instr) (d a : VReg) (k : KReg) (w : Nat) (f : VWord → Nat → Nat × Conds) (g : GReg) (t : VTy) (x : VWord) (u : Word)
    (s s1 : State),
    (Spec.oneOp i = some (d, a, k, w, f) → Spec.vNow i [a] [] s = some ([x], [], s1) →
      exec i s = .next (Spec.vDoneElems d w (fun j => if Spec.isActive (s1.core.kVal k) w j then f x j else (0, 0)) s1)) ∧
    (Spec.vNow (.vbcast d g k t) [] [g] s = some ([], [u], s1) →
      exec (.vbcast d g k t) s = .next (Spec.vDoneElems d t.width
        (fun j => (if Spec.isActive (s1.core.kVal k) t.width j then u.toNat % 2 ^ t.width else 0, 0)) s1))

/-- O32. The element-wise one-source vector forms and VBCAST (R142, R153 to R155, R165, R168, R169): each active element of D takes the
operation of its source, an inactive one becomes zero. For VRCP, VRSQ, VEXP2 and VLOG2 the value is the model's own function of the
element, which the statement on the bounds of R155 holds to them; inside the bound a binary32 result is free (log 17). Covers vabs, vneg,
vnot, vmov, vrcp, vrsq, vexp2, vlog2, vsat, vunpkLo, vunpkHi, vbcast. And: the special inputs of the four functions give the results and the
conditions that R155 lists. -/
def Obligations.VectorOneSource : Prop := Sys2Proof.Spec.VectorOneSource ∧ Sys2Proof.Spec.ElementSpecials

/-- O33. The fused and dot forms (R142, R151, R152): each active element of D takes the product plus or minus D with one rounding, or D
plus the four byte products of its lane wrapped to 32 bits; an inactive one keeps its value. Covers vfmaF32, vfmaF16, vfmaB16,
vfmsF32, vfmsF16, vfmsB16, vfnmaF32, vfnmaF16, vfnmaB16, vdot4I8, vdot4W8. -/
def Obligations.VectorFused : Prop :=
  ∀ (i : Instr) (f : Fmt) (np na : Bool) (d a b : VReg) (k : KReg) (x y z : VWord) (s s1 : State),
    (Spec.fusedOp i = some (f, np, na, d, a, b, k) → Spec.vNow i [a, b, d] [] s = some ([x, y, z], [], s1) →
      exec i s = .next (Spec.vDoneElems d f.bits (fun j =>
        if Spec.isActive (s1.core.kVal k) f.bits j then
          fmaVal f (Spec.rounding s1) (Spec.signed np (decodeVal f (Spec.el x f.bits j))) (decodeVal f (Spec.el y f.bits j))
            (Spec.signed na (decodeVal f (Spec.el z f.bits j)))
        else (Spec.el z f.bits j, 0)) s1)) ∧
    (let i8 (v : VWord) (n : Nat) : Int := (BitVec.ofNat 8 (Spec.el v 8 n)).toInt
     let u8 (v : VWord) (n : Nat) : Int := (Spec.el v 8 n : Int)
     let lane (e : VWord → Nat → Int) (j : Nat) : Nat × Conds :=
       if Spec.isActive (s1.core.kVal k) 32 j then
         (Spec.wrapTo 32 (Spec.el z 32 j + e x (4 * j) * e y (4 * j) + e x (4 * j + 1) * e y (4 * j + 1)
           + e x (4 * j + 2) * e y (4 * j + 2) + e x (4 * j + 3) * e y (4 * j + 3)), 0)
       else (Spec.el z 32 j, 0)
     (Spec.vNow (.vdot4I8 d a b k) [a, b, d] [] s = some ([x, y, z], [], s1) →
       exec (.vdot4I8 d a b k) s = .next (Spec.vDoneElems d 32 (lane i8) s1)) ∧
     (Spec.vNow (.vdot4W8 d a b k) [a, b, d] [] s = some ([x, y, z], [], s1) →
       exec (.vdot4W8 d a b k) s = .next (Spec.vDoneElems d 32 (lane u8) s1)))

/-- O34. VSEL takes each byte from A or B by the mask; VCMP sets the mask bits of the bytes of every element for which the relation holds
and clears the others, and records NV for .lt and .le of a NaN; KAND, KOR, KNOT combine masks and KPOP counts the 1 bits (R156, R157,
R170). Covers vsel, vcmpEq, vcmpNe, vcmpLt, vcmpLe, kand, kor, knot, kpop. -/
def Obligations.MaskForms : Prop :=
  ∀ (i : Instr) (op : Nat) (d ka kb : KReg) (v a b : VReg) (g : GReg) (t : VTy) (x y : VWord) (s s1 : State),
    (Spec.vNow (.vsel v a b ka) [a, b] [] s = some ([x, y], [], s1) →
      exec (.vsel v a b ka) s = .next (Spec.vDoneElems v 8
        (fun j => (if (s1.core.kVal ka).getLsbD j then Spec.el x 8 j else Spec.el y 8 j, 0)) s1)) ∧
    (Spec.compareOp i = some (op, d, a, b, t) → Spec.vNow i [a, b] [] s = some ([x, y], [], s1) →
      let e (j : Nat) : Bool × Conds := Spec.related op t (Spec.el x t.width j) (Spec.el y t.width j)
      ∃ m : MaskWord, (∀ n : Nat, n < 256 → m.getLsbD n = (e (8 * n / t.width)).1) ∧
        exec i s = .next (Spec.kDone d m { s1 with core := { s1.core with
          vstat := s1.core.vstat ||| (Spec.conds (2048 / t.width) (fun j => (e j).2) &&& 0x1F8) } })) ∧
    exec (.kand d ka kb) s = .next (Spec.kDone d (s.core.kVal ka &&& s.core.kVal kb) s) ∧
    exec (.kor d ka kb) s = .next (Spec.kDone d (s.core.kVal ka ||| s.core.kVal kb) s) ∧
    exec (.knot d ka) s = .next (Spec.kDone d (~~~s.core.kVal ka) s) ∧
    (Spec.vNow (.kpop g ka) [] [] s = some ([], [], s1) →
      exec (.kpop g ka) s = .next (Spec.gDone g (BitVec.ofNat 64 ((List.range 256).filter fun n => (s.core.kVal ka).getLsbD n).length) s))

/-- The first input of a reduction as it stands; a NaN of a floating type gives the default NaN (R161). -/
def Sys2Proof.Spec.firstInput (t : Sys2Proof.VTy) (x : Nat) : Nat :=
  match t.fmt with
  | none => x
  | some f => if decodeVal f x = .nan then f.layout.nanCode else x

/-- The sum of the inputs in their order, each partial sum kept modulo 2^w or rounded once (R161); 0 or +0 without inputs. -/
def Sys2Proof.Spec.sumOf (mode : Nat) (t : Sys2Proof.VTy) : List Nat → Nat × Conds
  | [] => (0, 0)
  | x :: r => r.foldl (fun acc z =>
      let e := Sys2Proof.Spec.arith t (· + ·) (fun f u v => addVal f mode u v) acc.1 z
      (e.1, acc.2 ||| e.2)) (Sys2Proof.Spec.firstInput t x, 0)

/-- The largest or smallest input under the order of R149; without inputs the least or the greatest value of the type (R161). -/
def Sys2Proof.Spec.bestOf (larger : Bool) (t : Sys2Proof.VTy) : List Nat → Nat
  | [] =>
    match t.fmt with
    | some f => f.layout.infinity larger
    | none =>
      if larger then (if t.signed then 2 ^ (t.width - 1) else 0)
      else (if t.signed then 2 ^ (t.width - 1) - 1 else 2 ^ t.width - 1)
  | x :: r => r.foldl (fun acc z => (Sys2Proof.Spec.choose larger t acc z).1) (Sys2Proof.Spec.firstInput t x)

/-- O35. Reductions and the scan (R161, R162), for every type: element 0 of D takes the sum, the greatest or the least of the active
elements taken in increasing order, every other element is zero; with no active element the sum is zero and the greatest and least the
extremes of the type. VSCAN gives each active element the sum of the active elements up to it, formed in the same order and with the
same roundings, and every inactive one zero; its last active element is the sum of the reduction. Covers vredSum, vredMax, vredMin,
vscan. -/
def Obligations.VectorReductions : Prop :=
  ∀ (d a : VReg) (k : KReg) (t : VTy) (x : VWord) (s s1 : State),
    let n := 2048 / t.width
    let on (j : Nat) : Bool := Spec.isActive (s1.core.kVal k) t.width j
    let upTo (j : Nat) : List Nat := ((List.range j).filter on).map (Spec.el x t.width)
    let sum (j : Nat) : Nat × Conds := Spec.sumOf (Spec.rounding s1) t (upTo j)
    (Spec.vNow (.vredSum d a k t) [a] [] s = some ([x], [], s1) →
      exec (.vredSum d a k t) s = .next (Spec.vDone d (BitVec.ofNat 2048 (sum n).1) (sum n).2 s1)) ∧
    (t.fmt = none → (sum n).1 = (upTo n).sum % 2 ^ t.width) ∧
    (Spec.vNow (.vredMax d a k t) [a] [] s = some ([x], [], s1) →
      exec (.vredMax d a k t) s = .next (Spec.vDone d (BitVec.ofNat 2048 (Spec.bestOf true t (upTo n))) 0 s1)) ∧
    (Spec.vNow (.vredMin d a k t) [a] [] s = some ([x], [], s1) →
      exec (.vredMin d a k t) s = .next (Spec.vDone d (BitVec.ofNat 2048 (Spec.bestOf false t (upTo n))) 0 s1)) ∧
    (t.fmt = none → ∀ e ∈ upTo n, Spec.asInt t e ≤ Spec.asInt t (Spec.bestOf true t (upTo n)) ∧
      Spec.asInt t (Spec.bestOf false t (upTo n)) ≤ Spec.asInt t e) ∧
    (Spec.vNow (.vscan d a k t) [a] [] s = some ([x], [], s1) →
      exec (.vscan d a k t) s = .next (Spec.vDone d
        (BitVec.ofNat 2048 (Spec.pack t.width n fun j => if on j then (sum (j + 1)).1 else 0)) (sum n).2 s1)) ∧
    (∀ j, j < n → on j = true → (∀ i, j < i → i < n → on i = false) → (sum (j + 1)).1 = (sum n).1)

/-- O36. Conversion, rearrangement and movement (R158 to R160, R164 to R166): VCVT converts the first elements between the formats of its
two classes with the rounding it names and zeroes the rest; VSHUF rearranges elements by its kind; VINS replaces the element that g[B]
names by g[A] and VEXT reads it into g[D] extended as the type is; VMOVI writes its constant to every lane. Covers vcvt, vshuf, vins,
vext, vmovi. -/
def Obligations.VectorMoves : Prop :=
  ∀ (d a : VReg) (g h : GReg) (sel : BitVec 6) (r : CvtRound) (kind : BitVec 3) (p : BitVec 6) (t : VTy) (imm : BitVec 15)
    (x : VWord) (u n : Word) (s s1 : State),
    (Spec.vNow (.vcvt d a sel r) [a] [] s = some ([x], [], s1) →
      let sf := classFmt s1.core (sel.toNat / 8)
      let df := classFmt s1.core (sel.toNat % 8)
      let mode := match r with | .status => Spec.rounding s1 | .nearest => 0 | .zero => 1 | .up => 2 | .down => 3
      let count := 2048 / max sf.bits df.bits
      let sat := (Spec.control s1).getLsbD 9
      let e (j : Nat) : Nat × Conds := convert sf df mode sat sat (Spec.el x sf.bits j)
      exec (.vcvt d a sel r) s = .next (Spec.vDone d (BitVec.ofNat 2048 (Spec.pack df.bits count fun j => (e j).1))
        (Spec.conds count fun j => (e j).2) s1)) ∧
    (Spec.vNow (.vshuf d a kind p) [a] [] s = some ([x], [], s1) → ∃ y, exec (.vshuf d a kind p) s = .next (Spec.vDone d y 0 s1) ∧
      (kind = 0 → ∀ j, j < 64 → Spec.el y 32 j = Spec.el x 32 ((j + p.toNat) % 64)) ∧
      (kind = 1 → ∀ j, j < 128 → Spec.el y 16 j = Spec.el x 16 ((j + p.toNat) % 128)) ∧
      (p.toNat < 4 → let w := 8 * 2 ^ p.toNat
        let m := 2048 / w
        (kind = 2 → ∀ j, j < m / 2 → Spec.el y w (2 * j) = Spec.el x w j ∧ Spec.el y w (2 * j + 1) = Spec.el x w (m / 2 + j)) ∧
        (kind = 3 → ∀ j, j < m / 2 → Spec.el y w j = Spec.el x w (2 * j) ∧ Spec.el y w (m / 2 + j) = Spec.el x w (2 * j + 1)) ∧
        (kind = 4 → ∀ j, j < m → Spec.el y w j = Spec.el x w (m - 1 - j))) ∧
      (kind = 5 → ∀ j, j < 64 → Spec.el y 32 j = Spec.el x 32 p.toNat)) ∧
    (Spec.vNow (.vins d g h t) [d] [g, h] s = some ([x], [u, n], s1) →
      exec (.vins d g h t) s = .next (Spec.vDoneElems d t.width
        (fun j => (if j = n.toNat % (2048 / t.width) then u.toNat % 2 ^ t.width else Spec.el x t.width j, 0)) s1)) ∧
    (Spec.vNow (.vext g a h t) [a] [h] s = some ([x], [n], s1) →
      exec (.vext g a h t) s = .next (Spec.gDone g
        (BitVec.ofInt 64 (Spec.asInt t (Spec.el x t.width (n.toNat % (2048 / t.width))))) s1)) ∧
    (Spec.vNow (.vmovi d imm) [] [] s = some ([], [], s1) →
      exec (.vmovi d imm) s = .next (Spec.vDoneElems d 32 (fun _ => ((imm.signExtend 32).toNat, 0)) s1))

/-- A V slot whose source is a poisoned entry pops its sources and takes POISON_READ (0x047) as an imprecise trap with the entry's
address in TVAL: it is held for delivery, writes no v register, and a destination v63 takes an empty push (R54, R346). Said of VMOV. -/
def Sys2Proof.Spec.VectorPoison : Prop :=
  ∀ (d : VReg) (k : KReg) (v : VWord) (e : DataEntry 2048) (q : List (DataEntry 2048)) (s : State),
    s.core.vldq = e :: q → e.val = some v → e.poison = true → roomFor (use (.vmov d 63 k)) s.core = true →
    ∃ t, exec (.vmov d 63 k) s = .next t ∧ t.core.v = s.core.v ∧ t.core.g = s.core.g ∧ t.core.vldq = q ∧
      t.core.vstat = s.core.vstat ∧ (d ≠ 63 → t.core.vsdq = s.core.vsdq) ∧
      (d = 63 → s.core.unpairedStores true = 0 → t.core.vsdq = s.core.vsdq ++ [none]) ∧
      ∃ tr, t.core.held = s.core.held ++ [tr] ∧ tr.code = 0x047 ∧ tr.impr = true ∧ tr.prec = false ∧ tr.tval = e.addr ∧
        tr.tpc = s.core.curBundle ∧ tr.tmask = BitVec.ofNat 64 (2 ^ s.core.curSlot)

/-- O37. The element-wise two-source vector forms (R142, R147 to R150): each active element of D takes the operation of the elements of
its sources, an inactive one keeps its value; a masked form's first source is D, read after B; the conditions gather in VSTAT. Integer
types wrap, floating types round once. Covers vadd, vsub, vmul, vmulh, vmin, vmax, vshl, vshr, vsha and their masked forms
vaddMasked, vsubMasked, vmulMasked, vmulhMasked, vminMasked, vmaxMasked, vshlMasked, vshrMasked, vshaMasked, and vandMasked, vorMasked,
vxorMasked by bytes. And: A V slot whose source is a poisoned entry pops its sources and takes POISON_READ (0x047) as an imprecise trap with the entry's
address in TVAL: it is held for delivery, writes no v register, and a destination v63 takes an empty push (R54, R346). Said of VMOV. -/
def Obligations.VectorTwoSource : Prop := Sys2Proof.Spec.VectorTwoSource ∧ Sys2Proof.Spec.VectorPoison

namespace Sys2Proof.Spec

open Sys2Proof Sys2Proof.Machine

/-- Element (i, j) of an accumulator bank (R235). -/
def accAt (a : AccWord) (i j : Nat) : Nat := a.toNat / 2 ^ (32 * (32 * i + j)) % 2 ^ 32

/-- Header byte r of the tile at x (R214). -/
def hdr (m : Store) (x r : Nat) : Byte := cellGet m.bytes (x + r)

/-- Element (r, k) of the tile at x read through its first n planes, a number of n bits whose sign is plane 0 (R214, R240). -/
def planeElem (m : Store) (x n r k : Nat) : Int :=
  (BitVec.ofNat n ((List.range n).map fun j =>
    if (cellGet m.bytes (x + 32 + 128 * j + 4 * k + r / 8)).getLsbD (r % 8) then 2 ^ (n - 1 - j) else 0).sum).toInt

/-- The clamped block sum of A block i and B block j (R241, R242). -/
def clamped (m : Store) (pa pb x y i j : Nat) : Int :=
  max (-2 ^ 31) (min (2 ^ 31 - 1) ((List.range 32).map fun k => planeElem m x pa i k * planeElem m y pb j k).sum)

/-- The exponent that scales it (R243). -/
def scale (m : Store) (pa pb x y i j : Nat) : Int := (hdr m x i).toInt + (hdr m y j).toInt - pa - pb + 4

/-- A block that stands for no number (R237). -/
def special (m : Store) (x r : Nat) : Bool := decide (hdr m x r = 0x80)

/-- Add n * 2^q to a binary32 element with one rounding to nearest even; a special block gives the default NaN, and an element that is
not finite keeps its value, as it does where n is zero (R243). -/
def promoted (acc : Nat) (bad : Bool) (n q : Int) : Nat :=
  if bad then 0x7FC00000
  else if n = 0 then acc
  else match decodeVal .f32 acc with
    | .fin _ _ _ => (addVal .f32 0 (decodeVal .f32 acc) (.fin (decide (n < 0)) n.natAbs q)).1
    | _ => acc

/-- What K blocks add to element (i, j) of a bank (R254): `tiles` are the A and B tiles, block by block. -/
def product (m : Store) (pa pb i j : Nat) (tiles : List (Nat × Nat)) (acc : Nat) : Nat :=
  tiles.foldl (fun acc x => promoted acc (special m x.1 i || special m x.2 j) (clamped m pa pb x.1 x.2 i j) (scale m pa pb x.1 x.2 i j)) acc

/-- The row checksum i of K blocks (R256): the exact sum over the columns, rounded once a block. -/
def rowCheck (m : Store) (pa pb i : Nat) (tiles : List (Nat × Nat)) (acc : Nat) : Nat :=
  tiles.foldl (fun acc x =>
    let d := sumDyadic ((List.range 32).map fun j => (clamped m pa pb x.1 x.2 i j, scale m pa pb x.1 x.2 i j))
    promoted acc (special m x.1 i || (List.range 32).any (special m x.2)) d.1 d.2) acc

/-- The column checksum j of K blocks (R256). -/
def colCheck (m : Store) (pa pb j : Nat) (tiles : List (Nat × Nat)) (acc : Nat) : Nat :=
  tiles.foldl (fun acc x =>
    let d := sumDyadic ((List.range 32).map fun i => (clamped m pa pb x.1 x.2 i j, scale m pa pb x.1 x.2 i j))
    promoted acc (special m x.2 j || (List.range 32).any (special m x.1)) d.1 d.2) acc

/-- The tiles that MMA and MCHK read (R251, R252): g[A], the count word g[A + 1] and g[B] as read at issue; a stride of 0 is the size
of a tile of the bank that holds the first one. -/
def tiles (c : Core) (a b : GReg) : List (Nat × Nat) :=
  let w := (c.gVal (a + 1)).toNat
  let x := c.gVal a
  let y := c.gSecond (a + 1) b
  let st (s : Nat) (x : Word) := if s = 0 then 32 + 128 * (c.planesAt x.toNat) else s
  (List.range (w % 2 ^ 10)).map fun t => ((x + BitVec.ofNat 64 (t * st (w / 2 ^ 32 % 2 ^ 16) x)).toNat,
    (y + BitVec.ofNat 64 (t * st (w / 2 ^ 48) y)).toNat)

/-- Planes of A and of B that a count word names (R252). -/
def planesOf (w : Word) : Nat × Nat := (w.toNat / 2 ^ 16 % 32, w.toNat / 2 ^ 24 % 32)

/-- Every earlier store of the core to the bytes that the tiles take has been performed (R255). -/
def settled (c : Core) (pa pb : Nat) (l : List (Nat × Nat)) : Prop :=
  c.storesDone c.curSeq true ((l.map fun x => { off := 0, at' := x.1, len := 32 + 128 * pa }) ++
    l.map fun x => { off := 0, at' := x.2, len := 32 + 128 * pb }) = true

/-- What a slot that changes one bank and the queues leaves alone. -/
def bankFrame (s t : State) (d : AccReg) : Prop :=
  (∀ e : AccReg, e ≠ d → t.core.accOf e = s.core.accOf e) ∧ t.core.g = s.core.g ∧ t.core.v = s.core.v ∧ t.core.k = s.core.k ∧
  t.core.spad = s.core.spad ∧ t.mem = s.mem ∧ t.core.mark = s.core.mark

/-- The 16 entries that draining a bank pushes: rows 2u and 2u + 1, and a header with PAIR, BANK, LAST, SAT and POISON (R246). -/
def drains (c : Core) (b : AccReg) : List (VWord × BitVec 16) :=
  (List.range 16).map fun u =>
    ((c.accOf b).extractLsb' (2048 * u) 2048,
     BitVec.ofNat 16 (u + 16 * b.toNat + (if u = 15 then 256 else 0) + (if c.accSat.getLsbD b.toNat then 512 else 0)
       + (if c.accPois.getLsbD b.toNat then 1024 else 0)))

/-- The entries a ring holds from its consumer position on: entry x lies at BASE + (x mod COUNT) * ESIZE (R287). -/
def ringTiles (r q : Ring) (n : Nat) : List (Nat × Nat) :=
  (List.range n).map fun t => (r.base + (r.cons + t) % r.count * r.esize, q.base + (q.cons + t) % q.count * q.esize)

/-- MMAS can fire (R258): both rings suit it and hold its blocks, the queue that it drains into has room and is no other slot's, the
stores before it are performed, and no window lies over the scratchpad. -/
def mayFire (c : Core) (rw cw : Word) : Prop :=
  let n := cw.toNat % 2 ^ 10
  let ra := c.ring (rw.toNat % 16)
  let rb := c.ring (rw.toNat / 2 ^ 8 % 16)
  let q := BitVec.ofNat 3 (rw.toNat / 2 ^ 16)
  ringUnfit c ra (planesOf cw).1 n = false ∧ ringUnfit c rb (planesOf cw).2 n = false ∧
  ra.cons + n ≤ ra.prod ∧ rb.cons + n ≤ rb.prod ∧
  (rw.getLsbD 19 = true → c.queueAhead q = false ∧ (c.rqOf q).length + 16 ≤ 32) ∧
  settled c (planesOf cw).1 (planesOf cw).2 (ringTiles ra rb n) ∧ c.wins = []

/-- What firing leaves (R257, R258): the bank, zeroed first with ZERO, takes the blocks; the rings' consumers pass them; DRAIN drains
the bank. -/
def fired (d : AccReg) (rw cw : Word) (s t : State) : Prop :=
  let n := cw.toNat % 2 ^ 10
  let ra := s.core.ring (rw.toNat % 16)
  let rb := s.core.ring (rw.toNat / 2 ^ 8 % 16)
  let q := BitVec.ofNat 3 (rw.toNat / 2 ^ 16)
  (∀ i j, i < 32 → j < 32 → accAt (t.core.accOf d) i j =
    product s.core.spad (planesOf cw).1 (planesOf cw).2 i j (ringTiles ra rb n)
      (if rw.getLsbD 20 then 0 else accAt (s.core.accOf d) i j)) ∧
  (t.core.ring (rw.toNat % 16)).cons = ra.cons + n ∧ (t.core.ring (rw.toNat / 2 ^ 8 % 16)).cons = rb.cons + n ∧
  t.core.rqOf q = s.core.rqOf q ++ (if rw.getLsbD 19 then drains t.core d else [])

/-- OP of an M slot in a queue (R259, R260). -/
def headOp (l : List QSlot) : Nat :=
  match l with
  | [] => 15
  | q :: _ => match q.instr with
    | .mma _ _ _ => 0 | .mmas _ _ _ => 1 | .mzero _ => 2 | .mdrn _ _ => 3 | .mchk _ _ _ => 4 | .mwait => 5 | _ => 6

end Sys2Proof.Spec

/-- O38. VACR reads a pair of rows, or one row with zeros above, of a bank whose POISON flag is clear; VACW replaces them and leaves the
other elements, the flags and the other banks alone; VQPOP pops the oldest entry of a queue, writes its data and puts its header into
RQHDR (R235, R261, R263, R264). Covers vacr, vacrRow, vacw, vacwRow, vqpop. -/
def Obligations.AccumulatorPorts : Prop :=
  ∀ (d a : VReg) (b : AccReg) (u : BitVec 4) (row : BitVec 5) (r : RqReg) (x : VWord) (e : VWord × BitVec 16)
    (rest : List (VWord × BitVec 16)) (s s1 : State),
    (roomFor (use (.vacr d b u)) s.core = true → s.core.accPois.getLsbD b.toNat = false →
      exec (.vacr d b u) s = .next (Spec.vDone d ((s.core.accOf b).extractLsb' (2048 * u.toNat) 2048) 0 s)) ∧
    (roomFor (use (.vacrRow d b row)) s.core = true → s.core.accPois.getLsbD b.toNat = false →
      exec (.vacrRow d b row) s = .next (Spec.vDone d (((s.core.accOf b).extractLsb' (1024 * row.toNat) 1024).setWidth 2048) 0 s)) ∧
    (Spec.vNow (.vacw b a u) [a] [] s = some ([x], [], s1) → ∃ y : AccWord,
      exec (.vacw b a u) s = .next { s1 with core := s1.core.setAcc b y } ∧
      ∀ i j, i < 32 → j < 32 → Spec.accAt y i j =
        if i / 2 = u.toNat then Spec.el x 32 (32 * (i % 2) + j) else Spec.accAt (s.core.accOf b) i j) ∧
    (Spec.vNow (.vacwRow b a row) [a] [] s = some ([x], [], s1) → ∃ y : AccWord,
      exec (.vacwRow b a row) s = .next { s1 with core := s1.core.setAcc b y } ∧
      ∀ i j, i < 32 → j < 32 → Spec.accAt y i j = if i = row.toNat then Spec.el x 32 j else Spec.accAt (s.core.accOf b) i j) ∧
    (roomFor (use (.vqpop d r)) s.core = true → s.core.queueAhead r = false → s.core.rqOf r = e :: rest → e.2.getLsbD 10 = false →
      exec (.vqpop d r) s = .next (Spec.vDone d e.1 0
        { s with core := { s.core.setRq r rest with rqhdr := s.core.rqhdr.set r.toNat e.2 r.isLt } }))

/-- The matrix unit (R240 to R244, R246, R254 to R256, R259 to R262). MMA adds the product of its K blocks to bank D, each clamped
block sum with one rounding to nearest even; MCHK adds the row and column checksums to rows 0 and 1 and leaves the others; either
leaves the other banks, the registers and the memory alone. MZERO zeroes the bank and its flags, MDRN pushes its 16 entries where the
queue has room, MWAIT does nothing when it is reached, MSTAT writes MXSTAT with the OP of the slot that follows it; a WRSR of MXSTAT in
its own bundle does not reach it (R89, R91). Covers mma, mchk,
mzero, mdrn, mwait, mstat. -/
def Sys2Proof.Spec.MatrixUnit : Prop :=
  ∀ (d : AccReg) (a b g : GReg) (r : RqReg) (s : State),
    let ts := Spec.tiles s.core a b
    let p := Spec.planesOf (s.core.gVal (a + 1))
    let m := s.core.spad
    (Spec.settled s.core p.1 p.2 ts →
      (∃ t, exec (.mma d a b) s = .next t ∧ Spec.bankFrame s t d ∧ t.core.rq = s.core.rq ∧
        ∀ i j, i < 32 → j < 32 →
          Spec.accAt (t.core.accOf d) i j = Spec.product m p.1 p.2 i j ts (Spec.accAt (s.core.accOf d) i j)) ∧
      (∃ t, exec (.mchk d a b) s = .next t ∧ Spec.bankFrame s t d ∧ t.core.rq = s.core.rq ∧
        ∀ i j, i < 32 → j < 32 → Spec.accAt (t.core.accOf d) i j =
          if i = 0 then Spec.rowCheck m p.1 p.2 j ts (Spec.accAt (s.core.accOf d) 0 j)
          else if i = 1 then Spec.colCheck m p.1 p.2 j ts (Spec.accAt (s.core.accOf d) 1 j)
          else Spec.accAt (s.core.accOf d) i j)) ∧
    (∀ l : List (Int × Int), ((sumDyadic l).1 : ℚ) * 2 ^ (sumDyadic l).2 = (l.map fun x => (x.1 : ℚ) * 2 ^ x.2).sum) ∧
    (∃ t, exec (.mzero d) s = .next t ∧ Spec.bankFrame s t d ∧ t.core.accOf d = 0 ∧
      ∀ n : Nat, t.core.accSat.getLsbD n = (s.core.accSat.getLsbD n && decide (n ≠ d.toNat)) ∧
        t.core.accPois.getLsbD n = (s.core.accPois.getLsbD n && decide (n ≠ d.toNat))) ∧
    (s.core.queueAhead r = false → (s.core.rqOf r).length + 16 ≤ 32 →
      exec (.mdrn r d) s = .next { s with core := s.core.setRq r (s.core.rqOf r ++ Spec.drains s.core d) }) ∧
    exec .mwait s = .next s ∧
    (roomFor (use (.mstat g)) s.core = true → exec (.mstat g) s = .next (Spec.gDone g
      (BitVec.ofNat 64 ((((s.core.olds.find? fun e => decide (e.1 = 0x110)).map fun e => e.2).getD s.core.mxstat).toNat % 16
        + 2 ^ 16 * Spec.headOp s.core.meq.tail)) s))

/-- MMAS whose rings suit it and hold its blocks fires: the bank takes the blocks of the entries from each consumer position, the
consumers pass them, and DRAIN pushes the bank (R257, R258); the step MMAS_FIRE does so for one that waits at the head of the matrix
queue, and takes it off the queue. Covers mmas, mmasFire. -/
def Sys2Proof.Spec.StreamedProduct : Prop :=
  ∀ (d : AccReg) (a b : GReg) (q : QSlot) (rest : List QSlot) (s : State),
    (Spec.mayFire s.core (s.core.gVal a) (s.core.gSecond a b) →
      ∃ t, exec (.mmas d a b) s = .next t ∧ Spec.bankFrame s t d ∧ Spec.fired d (s.core.gVal a) (s.core.gSecond a b) s t) ∧
    (s.core.meq = q :: rest → q.instr = .mmas d a b →
      let s' : State := { s with core := s.core.enter q }
      Spec.mayFire s'.core (s'.core.gVal a) (s'.core.gSecond a b) →
      ∃ t, exec .mmasFire s = .next t ∧ t.core.meq = rest ∧ t.core.g = s.core.g ∧ t.core.spad = s.core.spad ∧ t.mem = s.mem ∧
        Spec.fired d (s'.core.gVal a) (s'.core.gSecond a b) s t)

/-- O39. The matrix unit (R240 to R244, R246, R254 to R256, R259 to R262). MMA adds the product of its K blocks to bank D, each clamped
block sum with one rounding to nearest even; MCHK adds the row and column checksums to rows 0 and 1 and leaves the others; either
leaves the other banks, the registers and the memory alone. MZERO zeroes the bank and its flags, MDRN pushes its 16 entries where the
queue has room, MWAIT does nothing when it is reached, MSTAT writes MXSTAT with the OP of the slot that follows it; a WRSR of MXSTAT in
its own bundle does not reach it (R89, R91). Covers mma, mchk,
mzero, mdrn, mwait, mstat. And: MMAS whose rings suit it and hold its blocks fires: the bank takes the blocks of the entries from each consumer position, the
consumers pass them, and DRAIN pushes the bank (R257, R258); the step MMAS_FIRE does so for one that waits at the head of the matrix
queue, and takes it off the queue. Covers mmas, mmasFire. -/
def Obligations.MatrixUnit : Prop := Sys2Proof.Spec.MatrixUnit ∧ Sys2Proof.Spec.StreamedProduct

namespace Sys2Proof.Spec

open Sys2Proof Sys2Proof.Machine

/-- The scratchpad and the registers of a core stay. -/
def quietFrame (s t : State) : Prop :=
  t.core.g = s.core.g ∧ t.core.v = s.core.v ∧ t.core.k = s.core.k ∧ t.core.acc = s.core.acc ∧ t.mem = s.mem ∧ t.core.rq = s.core.rq

/-- Word 0 of a barrier: PHASE, ERR and PEND (R282). -/
def barrier (w : Word) (phase : Bool) (err pend : Nat) : Prop :=
  w.getLsbD 63 = phase ∧ w.toNat / 2 ^ 48 % 256 = err ∧ w.toNat % 2 ^ 40 = pend

/-- The operands name a barrier of the core and a count (R283, R284). -/
def barrierAt (s : State) (x y : Word) : Prop := x.toNat % 16 = 0 ∧ x.toNat + 16 ≤ s.spadSize ∧ y.toNat < 2 ^ 40

/-- The kind, the operands and the full/empty mode of a copy slot that takes a descriptor and a target (R270). -/
def copyForm : Instr → Option (CopyKind × GReg × GReg × FeMode)
  | .cpy a b m => some (.cpy, a, b, m)
  | .cpyn a b m => some (.cpyn, a, b, m)
  | .cpyp a b m => some (.cpyp, a, b, m)
  | .cpym a b m => some (.cpym, a, b, m)
  | .cpyg a b m => some (.cpyg, a, b, m)
  | _ => none

/-- The command that a copy slot makes of n descriptor words, of the core's context and of the task that issues it (R270, R271, R279). -/
def command (s : State) (kind : CopyKind) (m : FeMode) (a target : Word) (words : List Word) : CopyCmd :=
  { id := s.core.nextId, kind := kind, mode := m, desc := words, target := target, descAddr := a, region := s.core.region,
    ctx := [s.core.pkbase, s.core.sgbase, s.core.heapbase, s.core.heaplim, s.core.heapoff, s.core.ptroot, s.core.pfqbase],
    task := s.core.taskid.toNat, asid := s.core.asid, bundle := s.core.curBundle, slot := s.core.curSlot, seq := s.core.curSeq,
    olds := s.core.olds }

/-- n words of the scratchpad from a on. -/
def wordsAt (s : State) (a : Word) (n : Nat) : List Word := (List.range n).map fun i => s.core.spad.word (a.toNat + 8 * i)

/-- The engine has room for a command, and its descriptor can be read (R266, R268, R270). -/
def engineReady (s : State) (a : Word) (n : Nat) : Prop :=
  s.core.copies.length < 8 ∧ a.toNat % 64 = 0 ∧ a.toNat + 128 ≤ s.spadSize ∧
  s.core.storesDone s.core.curSeq true [{ off := 0, at' := a.toNat, len := 8 * n }] = true

/-- There is something to move (R272). -/
def moves (x : CopyCmd) (s : State) : Prop :=
  x.iters ≠ 0 ∧ (x.len ≠ 0 ∨ x.kind = .cpyp) ∧ (x.kind = .cpym → x.receivers s ≠ [])

/-- A byte after a word's bits under a mask have been written into it (R299). -/
def merged (old val mask : Byte) : Byte := (old &&& ~~~mask) ||| (val &&& mask)

/-- The engine takes a command over. -/
def accepted (x : CopyCmd) (s : State) : State :=
  { s with core := { s.core with nextId := s.core.nextId + 1, copies := s.core.copies ++ [x] } }

/-- The address that byte o of innermost copy `it` of a command comes from: a gather adds its signed index (R272, R273). -/
def fetchedAt (c : CopyCmd) (s : State) (it o : Nat) : Nat :=
  let index : Word := if c.kind = .cpyg then ((BitVec.ofNat 32 (leNat (s.core.spad.read (c.indexAt it) 4))).signExtend 64) else 0
  (c.srcAt s.core it + index).toNat + o

/-- Where byte k of runs of addresses lies. -/
def runAt (ps : List Piece) (k : Nat) : Nat := ((ps.flatMap fun (p : Piece) => (List.range p.len).map fun i => p.at' + i)[k]?).getD 0

/-- The tiles that the runs meet are in the cache. -/
def present (s : State) (ps : List Piece) : Prop :=
  ∀ p ∈ ps, ∀ n, p.at' / 4096 ≤ n → 4096 * n < p.at' + p.len → (s.tileOf n).inCache = true

/-- Bytes o to o + n - 1 of innermost copy `it` can be read now, and are `src`, each with its word's full/empty bit and its sector's poison:
bytes of the scratchpad, of the global space in the command's context, or of a popped entry (R267, R268, R271, R273, R279). -/
def sourced (c : CopyCmd) (s : State) (it o n : Nat) (src : Nat → Byte × Bool × Bool) : Prop :=
  let a := fetchedAt c s it o
  (c.kind = .cpyg → c.indexAt it + 4 ≤ s.spadSize ∧ s.core.storesDone c.seq true [{ off := 0, at' := c.indexAt it, len := 4 }] = true) ∧
  if c.kind = .cpyq then
    ∀ k, k < n → src k = ((c.entries.getD it (0, false)).1.extractLsb' (8 * (o + k)) 8, false, (c.entries.getD it (0, false)).2)
  else if c.srcGlobal then
    ∃ ps, reach (s.asCopy c) true false c.carries (pages (n / 4096 + 2) a n) = .ok ps ∧ s.core.storesDone c.seq false ps = true ∧
      s.unmade ps = false ∧ present s ps ∧
      ∀ k, k < n → src k = (cellGet s.mem.bytes (runAt ps k), s.mem.fe (runAt ps k), s.mem.poisoned (runAt ps k))
  else
    a + n ≤ min 0x60000 s.spadSize ∧ s.core.storesDone c.seq true [{ off := 0, at' := a, len := n }] = true ∧
      ∀ k, k < n → src k = (cellGet s.core.spad.bytes (a + k), s.core.spad.fe (a + k), s.core.spad.poisoned (a + k))

/-- The n bytes at `a` of a command's destination can be written now, and lie at D: in the scratchpad, or in memory in the command's context
(R248, R268, R271, R279). -/
def reached (c : CopyCmd) (s : State) (a n D : Nat) : Prop :=
  if c.dstGlobal then
    reach (s.asCopy c) false true (!c.keeps) [(a, n)] = .ok [{ off := 0, at' := D, len := n }] ∧ D % 4096 = a % 4096 ∧
      s.unmade [{ off := 0, at' := D, len := n }] = false ∧ present s [{ off := 0, at' := D, len := n }]
  else D = a ∧ a + n ≤ min 0x60000 s.spadSize ∧ (s.asCopy c).core.granuleBusy [{ off := 0, at' := a, len := n }] = false

/-- Bytes o to o + n - 1 of innermost copy `it` are the last of word v that the command writes: it has written the others (R278). -/
def wholeWord (c : CopyCmd) (s : State) (it o n v : Nat) : Prop :=
  ∀ z, 8 * v ≤ z → z < 8 * v + 8 → ∃ j, j ≤ it ∧ (c.dstAt s.core j).toNat ≤ z ∧
    z < (c.dstAt s.core j).toNat + if j = it then o + n else c.len

/-- The full/empty bit that word v of the destination takes with a chunk whose first byte goes to `a` (R278). -/
def bitTaken (c : CopyCmd) (s : State) (it o n a : Nat) (src : Nat → Byte × Bool × Bool) (v : Nat) (bit : Option Bool) : Prop :=
  (c.mode = .fekeep ∨ (c.mode = .fesrc ∧ c.kind = .cpyq) ∨ ¬ wholeWord c s it o n v → bit = none) ∧
  (wholeWord c s it o n v → (c.mode = .fefull → bit = some true) ∧ (c.mode = .feempty → bit = some false) ∧
    (c.mode = .fesrc → c.kind ≠ .cpyq → bit = if a ≤ 8 * v then some (src (8 * v - a)).2.1 else c.bits.lookup (s.core.id, v)))

/-- The next chunk of active command `args.n` leaves: its turn has come, and it has something to move (R267). -/
def nextChunk (c c0 : CopyCmd) (s : State) : Prop :=
  s.args.flag = false ∧ (s.core.copies.find? fun (z : CopyCmd) => decide (z.id = s.args.n)) = some c0 ∧
  (∀ z ∈ s.core.copies.takeWhile fun (z : CopyCmd) => decide (z.id ≠ s.args.n), copyReady z s = false) ∧ c0.doom = none ∧
  (c0.sre = true → c0.ringS = none → (s.core.ring c0.sring).cons < (s.core.ring c0.sring).prod) ∧
  c = { c0 with ringS := if c0.sre = true ∧ c0.ringS = none then some (s.core.ring c0.sring).cons else c0.ringS } ∧
  c.cursor / 2 ^ 40 < c.iters ∧ s.core.wins = [] ∧ s.buckets = []

/-- A chunk of n bytes of a command has left, the last of them in place `o + n` of an innermost copy of `len` bytes: flight f takes it, the
cursor and the count pass it; a chunk for global memory is counted as it leaves (R267, R275, R285, R295; logs 7, 47). -/
def chunkLeft (c : CopyCmd) (s t : State) (f : Flight) (len n : Nat) : Prop :=
  let it := c.cursor / 2 ^ 40
  let o := c.cursor % 2 ^ 40
  let bars := (barOf c.target).toList ++ (c.ringD.toList.map fun e =>
    (s.core.ring c.dring).bars + 16 * (e % (s.core.ring c.dring).count))
  quietFrame s t ∧ f.core = s.core.id ∧ f.src = s.core.id ∧ f.cmd = c.id ∧ f.sp = !c.dstGlobal ∧ (f.words.map (·.no)).Nodup ∧
  (∃ g ∈ t.flights, g.no = f.no) ∧
  ((t.core.copies.find? fun (z : CopyCmd) => decide (z.id = c.id)).map fun z => (z.cursor, z.counted, z.ringS)) =
    some (if o + n = len then (it + 1) * 2 ^ 40 else c.cursor + n, c.counted + n, c.ringS) ∧
  (c.dstGlobal = false → t.flights = s.flights ++ [f] ∧ t.core.spad = s.core.spad ∧ f.bytes = n ∧ f.counts = bars.map fun b => (s.core.id, b)) ∧
  (c.dstGlobal = true → f.counts = [] ∧ f.early = bars ∧ (bars = [] → t.flights = s.flights ++ [f] ∧ t.core.spad = s.core.spad) ∧
    ∀ b, bars = [b] → Memory.wf s.core.spad = true →
      let w := s.core.spad.word b
      (n < w.toNat % 2 ^ 40 → barrier (t.core.spad.word b) (w.getLsbD 63) (w.toNat / 2 ^ 48 % 256) (w.toNat % 2 ^ 40 - n)) ∧
      (n = w.toNat % 2 ^ 40 → barrier (t.core.spad.word b) (!w.getLsbD 63) (w.toNat / 2 ^ 48 % 256) ((s.core.spad.word (b + 8)).toNat % 2 ^ 40)))

/-- COPY_CHUNK of a command that converts nothing: the next bytes, up to the end of their block of 256 at the destination, are on their way
from any side to any side, with the poison of their sectors and with the bits that the full/empty mode gives to the words that are whole then
(R267, R271, R273, R278 to R280). -/
def ChunksLeave : Prop :=
  ∀ (c c0 : CopyCmd) (src : Nat → Byte × Bool × Bool) (D : Nat) (s : State), nextChunk c c0 s → c.cnv = false →
    c.kind = .cpy ∨ c.kind = .cpyn ∨ c.kind = .cpyg ∨ c.kind = .cpyq →
    let it := c.cursor / 2 ^ 40
    let o := c.cursor % 2 ^ 40
    let d := (c.dstAt s.core it).toNat
    let a := d + o
    let n := min (c.len - o) (256 - a % 256)
    o < c.len → sourced c s it o n src → reached c s a n D →
    ∃ (t : State) (f : Flight), exec .copyChunk s = .next t ∧ chunkLeft c s t f c.len n ∧
      (∀ k, k < n → ∃ w ∈ f.words, w.no = (D + k) / 8 ∧
        w.val.extractLsb' (8 * ((D + k) % 8)) 8 = (src k).1 ∧ w.mask.extractLsb' (8 * ((D + k) % 8)) 8 = 0xFF#8) ∧
      (∀ w ∈ f.words, (∀ k, k < 8 → w.mask.extractLsb' (8 * k) 8 ≠ 0#8 → D ≤ 8 * w.no + k ∧ 8 * w.no + k < D + n) ∧
        bitTaken c s it o n a src (w.no - D / 8 + a / 8) w.bit) ∧
      ∀ q, q ∈ f.bad ↔ ∃ k, k < n ∧ (D + k) / 32 = q ∧ (src k).2.2 = true

/-- COPY_CHUNK of a command that converts between packed banks of the scratchpad: each element of the chunk becomes the conversion of its
source element to the destination's format, rounded to nearest even, an integer saturated and a float not (R133, R139, R213, R271). -/
def ChunksConvert : Prop :=
  ∀ (c c0 : CopyCmd) (f g : Fmt) (s : State), nextChunk c c0 s → c.cnv = true → c.kind = .cpy ∨ c.kind = .cpyn →
    c.srcGlobal = false → c.dstGlobal = false →
    let it := c.cursor / 2 ^ 40
    let o := c.cursor % 2 ^ 40
    let from' := (c.srcAt s.core it).toNat
    let into := (c.dstAt s.core it).toNat
    let packed (f : Fmt) (a : Nat) : Prop :=
      let w := ((s.asCopy c).core.bankOf a).toNat
      fmtOf (w % 256) = some f ∧ w / 256 % 4 = 0
    let elements := 8 * c.len / f.bits
    let dlen := elements * g.bits / 8
    let n := min (dlen - o) (256 - (into + o) % 256)
    let j0 := 8 * o / g.bits
    let j1 := (8 * (o + n) + g.bits - 1) / g.bits
    let b := (8 * from' + f.bits * j0) / 8
    let code (j : Nat) : Nat :=
      (convertVal f.isInt (decodeVal f (leNat (s.core.spad.read ((8 * from' + f.bits * j) / 8) (max 1 (f.bits / 8)))
        / 2 ^ (f.bits * j % 8) % 2 ^ f.bits)) g 0 false true).1
    packed f (c.srcBase s.core).toNat → packed f from' → packed g (c.dstBase s.core).toNat → packed g into →
    8 * c.len % f.bits = 0 → elements * g.bits % 8 = 0 → o < dlen →
    from' + c.len ≤ min 0x60000 s.spadSize → into + o + n ≤ min 0x60000 s.spadSize →
    s.core.storesDone c.seq true [{ off := 0, at' := b, len := (8 * from' + f.bits * j1 + 7) / 8 - b }] = true →
    (s.asCopy c).core.granuleBusy [{ off := 0, at' := into + o, len := n }] = false →
    ∃ (t : State) (fl : Flight), exec .copyChunk s = .next t ∧ chunkLeft c s t fl dlen n ∧
      (8 ≤ g.bits → ∀ j, 8 * o ≤ g.bits * j → g.bits * (j + 1) ≤ 8 * (o + n) → ∀ i, i < g.bits → ∃ w ∈ fl.words,
        let p := 8 * into + g.bits * j + i
        w.no = p / 64 ∧ w.val.getLsbD (p % 64) = (code j).testBit i ∧ w.mask.getLsbD (p % 64) = true) ∧
      (g.bits < 8 → ∀ k, k < n → ∃ w ∈ fl.words, w.no = (into + o + k) / 8 ∧ w.mask.extractLsb' (8 * ((into + o + k) % 8)) 8 = 0xFF#8 ∧
        w.val.extractLsb' (8 * ((into + o + k) % 8)) 8 = BitVec.ofNat 8 (((List.range (8 / g.bits)).map fun u =>
          2 ^ (g.bits * u) * code (8 / g.bits * (o + k) + u)).sum))

end Sys2Proof.Spec

/-- O40. Barriers and rings (R282 to R290). BARINIT leaves PHASE 0, ERR 0, PEND and TOTAL as given and every byte outside the barrier as it
was; BAREXP adds to PEND; BARWT holds the bundle while a queued BARINIT or BAREXP has not acted or the phase is the one waited for, and
goes on when it differs, having observed it (R296); RNGSET sets the ring up empty, with every entry's
barrier expecting ESIZE bytes; RNGADV.release moves the consumer, RNGADV.commit the producer, completing each passed entry's phase. Covers
barinit, barexp, barwt, rngset, rngadvRelease, rngadvCommit. -/
def Obligations.RingsAndBarriers : Prop :=
  ∀ (a b : GReg) (x y : Word) (s s1 s2 : State), Memory.wf s.core.spad = true →
    (Spec.gSources [a, b] s = some ([x, y], s1) → Spec.barrierAt s1 x y →
      let at' := x.toNat
      let w := s1.core.spad.word at'
      (s1.countsInto at' = false → ∃ t, exec (.barinit a b) s = .next t ∧ Spec.quietFrame s t ∧
        Spec.barrier (t.core.spad.word at') false 0 y.toNat ∧ (t.core.spad.word (at' + 8)).toNat = y.toNat ∧
        ∀ z, z < at' ∨ at' + 16 ≤ z → cellGet t.core.spad.bytes z = cellGet s.core.spad.bytes z) ∧
      (s1.countsInto at' = false → w.toNat % 2 ^ 40 + y.toNat < 2 ^ 40 → ∃ t, exec (.barexp a b) s = .next t ∧ Spec.quietFrame s t ∧
        Spec.barrier (t.core.spad.word at') (w.getLsbD 63) (w.toNat / 2 ^ 48 % 256) (w.toNat % 2 ^ 40 + y.toNat) ∧
        ∀ z, z < at' ∨ at' + 8 ≤ z → cellGet t.core.spad.bytes z = cellGet s.core.spad.bytes z)) ∧
    (Spec.readsAll [a, b] s = some ([x, y], s2) → x.toNat % 16 = 0 → x.toNat + 16 ≤ s2.spadSize → y.toNat < 2 →
      (s2.core.ceq.flatten.any isBarSlot = false → (s2.core.spad.word x.toNat).getLsbD 63 ≠ y.getLsbD 0 →
        exec (.barwt a b) s = .next { s2.observe x.toNat 8 with core := { s2.core with run := .running } }) ∧
      (s2.core.ceq.flatten.any isBarSlot = true ∨ (s2.core.spad.word x.toNat).getLsbD 63 = y.getLsbD 0 → s2.core.run ≠ .barwt →
        exec (.barwt a b) s = .next { s2 with core := { s2.core with run := .barwt, mark := .wait } }) ∧
      (s2.core.ceq.flatten.any isBarSlot = true ∨ (s2.core.spad.word x.toNat).getLsbD 63 = y.getLsbD 0 → s2.core.run = .barwt →
        exec (.barwt a b) s = .next { s2 with core := { s2.core with mark := .stall } })) ∧
    (Spec.gSources [a, b] s = some ([x, y], s1) → ringSetOk s1 x y = true →
      let n := x.toNat / 2 ^ 36 % 16
      let r : Ring := { isSet := true, base := x.toNat % 2 ^ 19, esize := x.toNat / 2 ^ 20 % 2 ^ 16, count := y.toNat / 2 ^ 32 % 512, bars := y.toNat % 2 ^ 19 }
      s1.holdsRing n = false → (∀ i, i < r.count → s1.countsInto (r.bars + 16 * i) = false) →
      ∃ t, exec (.rngset a b) s = .next t ∧ Spec.quietFrame s t ∧ t.core.ring n = r ∧
        ∀ i, i < r.count → Spec.barrier (t.core.spad.word (r.bars + 16 * i)) false 0 r.esize ∧
          (t.core.spad.word (r.bars + 16 * i + 8)).toNat = r.esize) ∧
    (Spec.gSources [a, b] s = some ([x, y], s1) →
      let r := s1.core.ring x.toNat
      r.isSet = true → 0 < y.toNat → y.toNat ≤ r.count → y.toNat < 512 → x.toNat < 16 → r.cons + y.toNat ≤ r.prod →
      s1.fillsRing x.toNat = false → s1.core.drainsRing x.toNat = false →
      exec (.rngadvRelease a b) s = .next { s1 with core := s1.core.putRing x.toNat { r with cons := r.cons + y.toNat } }) ∧
    (Spec.gSources [a, b] s = some ([x, y], s1) →
      let r := s1.core.ring (x.toNat - 16)
      r.isSet = true → 0 < y.toNat → y.toNat ≤ r.count → y.toNat < 512 → 16 ≤ x.toNat → x.toNat < 32 →
      (∀ e ∈ s1.core.laq, e.writes = true → s1.core.curSeq < e.seq) → s1.fillsRing (x.toNat - 16) = false → r.rsv = r.prod → r.rsv + y.toNat ≤ r.cons + r.count →
      ∃ t, exec (.rngadvCommit a b) s = .next t ∧ Spec.quietFrame s t ∧
        t.core.ring (x.toNat - 16) = { r with rsv := r.rsv + y.toNat, prod := r.prod + y.toNat } ∧
        ∀ i, i < y.toNat → (t.core.spad.word (r.bars + 16 * ((r.prod + i) % r.count))).getLsbD 63 =
          !(s.core.spad.word (r.bars + 16 * ((r.prod + i) % r.count))).getLsbD 63)

/-- Copy commands. A copy slot whose target and descriptor keep the rules is accepted: the engine
holds a command made of its descriptor, and one whose destination is a ring reserves the ring's next entry; CPYQ pops its entries first;
TFETCH is accepted as a command of one word. With `flag` COPY_CHUNK writes some words of a chunk on its way,
whole words of the chunk's own bits, and no other byte (R299; which words is open, log 7), and an element that is added
becomes the sum, with the answer behind the last word (R405); a chunk behind an earlier one of its command keeps a word to write (R267);
MULTICAST_ARRIVAL takes the oldest chunk for the
core, reserves the ring entry that a first chunk opens, and writes the chunk there when it was made for that entry. -/
def Sys2Proof.Spec.CopyCommands : Prop :=
  ∀ (i : Instr) (kind : CopyKind) (a b : GReg) (q : RqReg) (fm : FeMode) (x y : Word) (d : WinDecl) (first : Nat)
    (fl : Flight) (fw : FlightWord) (fmt : Nat) (mc : Mcast) (s s1 : State),
    (Spec.copyForm i = some (kind, a, b, fm) → Spec.gSources [a, b] s = some ([x, y], s1) →
      let n := if kind = .cpy then 4 else 16
      let c := Spec.command s1 kind fm x y (Spec.wordsAt s1 x n)
      let r := s1.core.ring c.dring
      Spec.engineReady s1 x n → targetOk s1 y = true → acceptFault s1 c = none → Spec.moves c s1 →
      (c.dre = false ∨ kind = .cpym → exec i s = .next (Spec.accepted c s1)) ∧
      (c.dre = true → kind ≠ .cpym → r.rsv < r.cons + r.count →
        exec i s = .next (Spec.accepted { c with ringD := some r.rsv }
          { s1 with core := s1.core.putRing c.dring { r with rsv := r.rsv + 1 } }))) ∧
    (Spec.gSources [b] s = some ([x], s1) →
      let ws := Spec.wordsAt s1 x 16
      let c := Spec.command s1 .cpyq fm x (ws.getD 3 0) ws
      Spec.engineReady s1 x 16 → targetOk s1 (ws.getD 3 0) = true → acceptFault s1 c = none → c.dre = false →
      Spec.moves c s1 → s1.core.queueAhead q = false → c.count 0 ≤ (s1.core.rqOf q).length →
      ∃ t, exec (.cpyq q b fm) s = .next t ∧ t.core.rqOf q = (s1.core.rqOf q).drop (c.count 0) ∧ t.mem = s.mem ∧
        t.core.spad = s.core.spad ∧ t.core.g = s.core.g ∧ t.core.copies = s.core.copies ++
          [{ c with entries := ((s1.core.rqOf q).take (c.count 0)).map fun (e : VWord × BitVec 16) => (e.1, e.2.getLsbD 10) }]) ∧
    (Spec.gSources [a, b] s = some ([x, y], s1) → s1.core.copies.length < 8 → targetOk s1 y = true →
      s1.core.windowAt (x.toNat % 2 ^ 19) = some (d, first) → x &&& 0xFFFFFFFE00080000 = 0 →
      1 ≤ x.toNat / 2 ^ 20 % 2 ^ 12 → x.toNat / 2 ^ 20 % 2 ^ 12 ≤ 3072 → (x.toNat % 2 ^ 19 - d.lbase) % 2 ^ d.tl = 0 →
      first + x.toNat / 2 ^ 20 % 2 ^ 12 ≤ d.nt → (x.getLsbD 32 = true → d.write = true) → s1.inCompute = false →
      exec (.tfetch a b) s = .next (Spec.accepted (Spec.command s1 .tfetch .fekeep x y [x]) s1)) ∧
    (s.args.flag = true → Memory.wf s.core.spad = true →
      (s.flights.find? fun (f : Flight) => decide (f.no = s.args.n) && decide (f.core = s.core.id)) = some fl →
      fl.sp = true → fl.words ≠ [] → (fl.words.map (·.no)).Nodup → (∀ w ∈ fl.words, w.sum = none) → fl.bad = [] → fl.counts = [] → fl.recv = none →
      fl.src = s.core.id → s.core.wins = [] → s.ahead fl = [] →
      (∀ z ∈ s.core.copies, z.id = fl.cmd → z.doom = none) →
      ∃ (t : State) (now : List FlightWord), exec .copyChunk s = .next t ∧ t.core.g = s.core.g ∧ t.core.v = s.core.v ∧
        now.Sublist fl.words ∧ now.head? = fl.words.head? ∧
        (∀ z, cellGet t.core.spad.bytes z = match now.find? fun (w : FlightWord) => decide (w.no = z / 8) with
          | some w => Spec.merged (cellGet s.core.spad.bytes z) (w.val.extractLsb' (8 * (z % 8)) 8) (w.mask.extractLsb' (8 * (z % 8)) 8)
          | none => cellGet s.core.spad.bytes z) ∧
        (now = fl.words → ∀ f ∈ t.flights, f.no ≠ fl.no) ∧
        (now ≠ fl.words → ∃ f ∈ t.flights, f.no = fl.no ∧ f.words.length + now.length = fl.words.length)) ∧
    (s.args.flag = true → (s.flights.find? fun (f : Flight) => decide (f.no = s.args.n) && decide (f.core = s.core.id)) = some fl →
      fl.words ≠ [] → (fl.words.map (·.no)).Nodup → s.ahead fl ≠ [] →
      ∃ t, exec .copyChunk s = .next t ∧ ∃ f ∈ t.flights, f.no = fl.no ∧ f.words ≠ []) ∧
    (s.args.flag = true → Memory.wf s.core.spad = true →
      (s.flights.find? fun (f : Flight) => decide (f.no = s.args.n) && decide (f.core = s.core.id)) = some fl →
      fl.sp = true → fl.words = [fw] → fw.sum = some fmt → fl.bad = [] → fl.counts = [] → fl.recv = none → fl.path = .away → fl.fill = none →
      s.core.wins = [] → s.ahead fl = [] →
      ∃ t, exec .copyChunk s = .next t ∧ t.core.g = s.core.g ∧ t.ackOut = s.ackOut ++ fl.acks ∧
        ∀ h, h < 2 → t.core.spad.read (8 * fw.no + 4 * h) 4 =
          (let old := s.core.spad.read (8 * fw.no + 4 * h) 4
           if fw.mask.extractLsb' (32 * h) 32 = 0#32 then old else leBytes 4 (redSum fmt (leNat old) (fw.val.extractLsb' (32 * h) 32).toNat))) ∧
    ((s.mcasts.find? fun (m : Mcast) => decide (m.core = s.core.id)) = some mc →
      let r := s.core.ring mc.ring
      let e := if mc.first then r.rsv else mc.entry
      r.isSet = true → r.esize = mc.total → (mc.first = true → r.rsv < r.cons + r.count) → mc.at' + mc.bytes ≤ s.spadSize → s.core.wins = [] →
      s.core.granuleBusy [{ off := 0, at' := mc.at', len := mc.bytes }] = false →
      (mc.last = true → ∀ f ∈ s.flights, ¬ (f.path = .copy ∧ f.core = mc.core ∧ f.src = mc.src ∧ f.cmd = mc.cmd)) → mc.ring < 16 →
      ∃ t, exec .multicastArrival s = .next t ∧ t.mcasts = s.mcasts.erase mc ∧ t.mem = s.mem ∧
        (mc.src = s.core.id → t.core.g = s.core.g ∧ t.core.spad = s.core.spad ∧
          (t.core.ring mc.ring).rsv = r.rsv + if mc.first then 1 else 0) ∧
        (e = mc.entry → ∃ f, t.flights = s.flights ++ [f] ∧ f.words = mc.words ∧ f.core = mc.core ∧ f.src = mc.src ∧ f.cmd = mc.cmd ∧
          f.bytes = mc.bytes ∧ (mc.src = s.core.id → (mc.core, r.bars + 16 * (e % r.count)) ∈ f.counts)))

/-- O41. Copy commands (R266 to R273, R276, R278 to R280, R289, R388). A copy slot whose target and descriptor keep the rules is accepted: the
engine holds a command made of its descriptor, and one whose destination is a ring reserves the ring's next entry; CPYQ pops its entries first;
TFETCH is accepted as a command of one word. The step COPY_CHUNK takes the next bytes of a command on their way, up to the end of their block
of 256 at the destination, when no command before it in turn can move: between the scratchpad, ring entries, the global space and popped
entries, with the bit that its full/empty mode gives each word written whole, and converted between packed banks where CNV says so. With
`flag` it writes some words of a chunk on its way, whole words of the chunk's own bits, and no other byte (R299; which words is open, log 7);
an element that is added becomes the sum, with the answer behind the last word (R405); a chunk behind an earlier one of its command keeps a
word to write. MULTICAST_ARRIVAL takes the oldest chunk for the core, reserves the ring entry that a first chunk opens, and writes the chunk
there when it was made for that entry. Covers cpy, cpyn, cpyp, cpym, cpyg, cpyq, tfetch, copyChunk, multicastArrival. -/
def Obligations.CopyCommands : Prop :=
  Sys2Proof.Spec.CopyCommands ∧ Sys2Proof.Spec.ChunksLeave ∧ Sys2Proof.Spec.ChunksConvert

namespace Sys2Proof.Spec

open Sys2Proof Sys2Proof.Machine

/-- The operation of a link slot that hands a command to a port's engine (R403, R405). -/
def linkForm : Instr → Option (FabKind × GReg × GReg)
  | .lnkSendPut a b => some (.put, a, b)
  | .lnkSendGet a b => some (.get, a, b)
  | .lnkSendAtomic a b => some (.atomic, a, b)
  | .lnkSendMessage a b => some (.message, a, b)
  | .lnkRadd a b => some (.radd, a, b)
  | .lnkRed a b => some (.red, a, b)
  | _ => none

/-- The command that a link slot makes of its descriptor's eight words (R404). -/
def linkCommand (s : State) (op : FabKind) (x target : Word) : LinkCmd :=
  linkOf s op (wordsAt s x 8) x target s.core.curBundle s.core.curSlot s.core.curSeq false

/-- The engine of the port takes the command now (R398, R403 to R406, R410). -/
def portTakes (s : State) (l : LinkCmd) : Prop :=
  let port := s.port l.port
  let same := s.links.filter fun x => decide (x.port = l.port)
  ((s.part s.core.part).kports.any fun e => decide (e.1 = l.port)) = true ∧ port.works = true ∧ linkDescOk (s.part s.core.part) l = true ∧
  (l.w 3).toNat / 2 ^ 56 % 8 < 4 ∧
  (port.mode = 2 → l.op ≠ .red ∧ (port.slots.any fun d => decide (d.1 = l.pkg)) = true ∧
    (same.filter fun x => decide (x.pkg = l.pkg) && decide (x.sent < x.len)).length < 16) ∧
  (l.op = .atomic → (same.filter fun x => decide (x.op = .atomic)).length < 64) ∧
  (l.qen = true → s.core.queueAhead (BitVec.ofNat 3 ((l.w 3).toNat / 2 ^ 59)) = false ∧
    l.len / 256 ≤ (s.core.rqOf (BitVec.ofNat 3 ((l.w 3).toNat / 2 ^ 59))).length)

end Sys2Proof.Spec

/-- O42. Link and network slots whose operands keep the rules (R403 to R407, R415 to R421). A link slot whose port takes the command
hands it over with the next number of the port, an atomic with one of its own count (R406), the runs of its local side, which are fixed here
(the model's choice, log 47), and, with QEN, the entries it pops; LNK.RECV posts a receive, where no message waits. NET.POST makes the packets of its request with the next sequence numbers of the peer; NET.ARM binds a counter of the
address space and clears its error ring; NET.CQR pops the oldest error entry, or gives 0. Covers lnkSendPut, lnkSendGet,
lnkSendAtomic, lnkSendMessage, lnkRadd, lnkRed, lnkRecv, netPost, netArm, netCqr. -/
def Obligations.LinkAndNetSlots : Prop :=
  ∀ (i : Instr) (op : FabKind) (d a b : GReg) (x y e : Word) (rest : List Word) (ps : List Piece) (pa : Nat) (s s1 : State),
    (Spec.linkForm i = some (op, a, b) → Spec.gSources [a, b] s = some ([x, y], s1) →
      let l := Spec.linkCommand s1 op x y
      let key := if op = .atomic then 96 + l.port else l.port
      let n := (assocGet s1.linkSeq key).getD 0
      linkOperandOk s1 x y = true → Spec.portTakes s1 l →
      localSide s1 l (decide (op = .get) || decide (op = .atomic)) = .ok ps →
      let popped := s1.core.popRq (BitVec.ofNat 3 ((l.w 3).toNat / 2 ^ 59)) (l.len / 256)
      let es := if l.qen then popped.2.map (fun (e : VWord × BitVec 16) => (e.1, e.2.getLsbD 10)) else []
      exec i s = .next { s1 with
        core := if l.qen then popped.1 else s1.core, nextLink := s1.nextLink + 1,
        links := s1.links ++ [{ l with id := s1.nextLink, pieces := ps, seqNo := n, entries := es }],
        linkSeq := assocPut s1.linkSeq key ((n + 1) % 2 ^ 16) }) ∧
    (Spec.gSources [a, b] s = some ([x, y], s1) →
      let l := Spec.linkCommand s1 .put x y
      linkOperandOk s1 x y = true → (l.w 0).toNat / 2 ^ 57 % 64 = 0 → (l.w 1).toNat / 2 ^ 57 % 64 = 0 → (l.w 2).toNat / 2 ^ 39 % 16 = 0 →
      l.w 3 &&& 0x7FFFFFFFFFFFFFFF = 0 → (∀ k, k < 4 → l.w (4 + k) = 0) → 1 ≤ l.len → l.len ≤ 2 ^ 24 →
      (l.rsp = true ∨ l.raddr < 0x60000) → localSide s1 l true = .ok ps → s1.core.recvs.length < 16 → s1.core.msgs = [] →
      (∀ v ∈ s1.core.recvs, v.doom = false) →
      exec (.lnkRecv a b) s = .next { s1 with core := { s1.core with recvs := s1.core.recvs ++
        [{ lsp := l.lsp, pieces := ps, len := l.len, target := y, desc := x, task := s1.core.taskid.toNat, asid := s1.core.asid,
           bundle := s1.core.curBundle, slot := s1.core.curSlot, seq := s1.core.curSeq, region := s1.core.region }] } }) ∧
    (Spec.gSources [a, b] s = some ([x, y], s1) →
      let r : NetReq := {
        id := s1.nextNet, core := s1.core.id, region := s1.core.region, asid := s1.core.asid, part := s1.core.part, words := Spec.wordsAt s1 x 8, pieces := ps, pkts := [],
        bundle := s1.core.curBundle, slot := s1.core.curSlot, seq := s1.core.curSeq, task := s1.core.taskid.toNat }
      let key := 2 ^ 16 * r.part + r.peer
      let first := (assocGet s1.peerSeq key).getD 0
      (s1.nets.filter fun y => decide (y.core = s1.core.id)).length < 64 → x.toNat % 64 = 0 → x.toNat + 64 ≤ s1.spadSize → y = 0 →
      s1.core.storesDone s1.core.curSeq true [{ off := 0, at' := x.toNat, len := 64 }] = true → r.wellFormed = true →
      r.peer < (((s1.part s1.core.part).peers.map List.length).getD 0) →
      (r.lce = true → (assocGet (s1.asidOf s1.core.asid).ctrs r.lctr).isSome = true) →
      (if r.lsp then sourceRuns s1 (pages (r.len / 4096 + 2) r.laddr r.len) = .ok ps else ps = [] ∧ r.laddr + r.len ≤ s1.spadSize) →
      exec (.netPost a b) s = .next { s1 with
        nextNet := s1.nextNet + 1, peerSeq := assocPut s1.peerSeq key (first + r.count),
        nets := s1.nets ++ [{ r with pkts := (List.range r.count).map fun k => { idx := k, seq := first + k } }] }) ∧
    (Spec.gSources [a, b] s = some ([x, y], s1) → x.toNat < 256 →
      let z := s1.asidOf s1.core.asid
      (∀ r ∈ s1.nets, r.asid = s1.core.asid → r.lctr ≠ x.toNat) →
      (y = 0 → exec (.netArm a b) s = .next (s1.putAsid s1.core.asid
        { z with ctrs := assocDel z.ctrs x.toNat, cqs := assocDel z.cqs x.toNat })) ∧
      (y ≠ 0 → y.toNat % 8 = 0 → y.toNat < 2 ^ 57 → s1.translate y.toNat true true false = .ok pa → inHost pa = false →
        exec (.netArm a b) s = .next (s1.putAsid s1.core.asid
          { z with ctrs := assocPut z.ctrs x.toNat pa, cqs := assocDel z.cqs x.toNat }))) ∧
    (roomFor (use (.netCqr d a)) s.core = true → Spec.gSources [a] s = some ([x], s1) → x.toNat < 256 →
      let z := s1.asidOf s1.core.asid
      ((assocGet z.cqs x.toNat).getD [] = [] → exec (.netCqr d a) s = .next (Spec.gDone d 0 s1)) ∧
      ((assocGet z.cqs x.toNat).getD [] = e :: rest →
        exec (.netCqr d a) s = .next ((Spec.gDone d e s1).putAsid s1.core.asid { z with cqs := assocPut z.cqs x.toNat rest })))

namespace Sys2Proof.Spec

open Sys2Proof Sys2Proof.Machine

/-- Every listed core stands under its own physical identifier. -/
def coherent (s : State) : Prop := ∀ e ∈ s.others, e.2.id = e.1

/-- An interrupt of a level may enter at a core (R316). -/
def mayEnter (c : Core) (t : Trap) : Prop :=
  let l := (t.level.map BitVec.toNat).getD (handlingLevel t.code)
  l < c.level.toNat ∨ l = c.level.toNat ∧ (c.bank l).tstate.getLsbD 1 = true

/-- An interrupt becomes pending at a core, and ends IDLE, whose bundle is over then (R88, R316). -/
def posted (t : Trap) (c : Core) : Core :=
  { c with irqs := c.irqs ++ [t], run := match c.run with | .idle _ => .running | r => r }

/-- TINFO of what the vat die raises: SRC 3, REMOTE 1 (R309, R377). -/
def fromVat (s : State) : Word := tinfoImage 0 false true 3 (if s.inPod then s.pkg else 0) 0 0x7F

end Sys2Proof.Spec

/-- O43. Traps and interrupts at a bundle boundary (R53, R54, R316, R317, R377), once the back engines have drained. A held imprecise trap
enters first, with TNPC at the first bundle that has not issued, and TPC there too where it ends a wait: of a synchronising access, of WAITM, of
BARWT or of IDLE (R88, R122; log 70); with none held a pending trap enters; then an interrupt that the
level lets in, with both addresses at the next bundle. INT_EXT raises the interrupt of its routing entry at the entry's core and level,
and without a valid entry is discarded; PREEMPT becomes pending at its core. Covers trapEntry, intExt, preempt. -/
def Obligations.BoundaryEntries : Prop :=
  ∀ (t : Trap) (s : State),
    (s.core.run.active = true → s.core.run.raises = false → s.core.drained = true →
      (s.core.held = [t] → s.core.pend = none → t.committed = false →
        exec .trapEntry s = .next (enterTrap
          (match s.core.run with
            | .feWait _ _ | .waitm _ _ _ | .barwt | .idle _ => { t with tpc := s.core.pc, tnpc := s.core.pc }
            | _ => { t with tnpc := s.core.pc })
          { s with core := { s.core with held := [] } })) ∧
      (s.core.held = [] → s.core.pend = some t →
        exec .trapEntry s = .next (enterTrap t { s with core := { s.core with pend := none } })) ∧
      (s.core.held = [] → s.core.pend = none → s.core.irqs = [t] → t.tinfo.toNat / 2 ^ 35 % 8 = 3 → Spec.mayEnter s.core t →
        exec .trapEntry s = .next (enterTrap { t with tpc := s.core.pc, tnpc := s.core.pc }
          { s with core := { s.core with irqs := [] } }))) ∧
    (s.args.n < 0x460 →
      let e : Word := ((s.routes.find? fun r => decide (r.1 = s.args.n)).map fun r => r.2.1).getD 0
      (e.getLsbD 63 = false → exec .intExt s = .next s) ∧
      (e.getLsbD 63 = true → e.toNat / 1024 % 4 ≠ 3 →
        exec .intExt s = .next (s.onCore (s.byNumber (e.toNat % 1024)) (Spec.posted
          { code := 0x01C, tval := BitVec.ofNat 64 s.args.n, level := some (BitVec.ofNat 2 (e.toNat / 1024)), tinfo := Spec.fromVat s })))) ∧
    exec .preempt s = .next { s with core := Spec.posted { code := 0x01D, tval := s.args.w, tinfo := Spec.fromVat s } s.core }

/-- O44. The scheduler's steps (R175, R183, R186, R189, R337). A free core takes its sorus's next task: the core runs it under the
task's level with the task's number in TASKID, and a task that starts begins at ENTRY with g1 to g3. A ready task that has waited 2^20
clk rises by one level, unless its region is pre-empted. A posted wake makes every task ready that is parked on one of its words and waits for
the bit that the word changed to; the tasks of a pre-empted region keep the wake until it resumes (log 77). Covers
taskDispatch, taskAgeing, parkWake. -/
def Obligations.SchedulerSteps : Prop :=
  ∀ (k : Task) (r : Region) (x y : Word) (w : Wake) (l : List Wake) (s : State),
    (s.core.run = .free → nextTask s s.core = some k → s.region? k.region = some r →
      ∃ t, exec .taskDispatch s = .next t ∧ t.core.run = .running ∧ t.core.taskid = BitVec.ofNat 64 k.id ∧ t.core.region = some r.id ∧
        t.core.asid = r.asid ∧ t.core.part = r.part ∧
        (k.fresh = some (x, y) → t.core.pc = BitVec.ofNat 64 k.entry ∧ t.core.level = k.level ∧
          t.core.gVal 1 = BitVec.ofNat 64 r.block ∧ t.core.gVal 2 = x ∧ t.core.gVal 3 = y ∧ t.core.spad = s.core.spad)) ∧
    (s.task? s.args.n = some k → k.st = 1 → k.cur < 15 → k.since + 2 ^ 20 ≤ s.clk → s.pausedTask k = false →
      ∃ t, exec .taskAgeing s = .next t ∧ t.core.g = s.core.g ∧
        (t.task? s.args.n).map (fun u => (u.cur, u.since, u.st)) = some (k.cur + 1, k.since + 2 ^ 20, 1)) ∧
    (s.wakes = w :: l →
      let found (u : Task) : Prop := u.st = 3 ∧ ∃ n, u.parkKey = some ((w.core.map (· + 1)).getD 0, n) ∧ (n, u.waitw.getLsbD 62) ∈ w.words
      ∃ t, exec .parkWake s = .next t ∧ t.wakes = l ∧
        ((∀ u ∈ s.tasks, found u → s.pausedTask u = false) → ∀ u ∈ s.tasks, found u → ∃ v ∈ t.tasks, v.id = u.id ∧ v.st = 1) ∧
        ((∀ u ∈ s.tasks, found u → s.pausedTask u = true) → ∀ u ∈ s.tasks, found u →
          ∃ v ∈ t.tasks, v.id = u.id ∧ v.st = 3 ∧ v.woken = true))

/-- O45. The superstep of a scheduled region (R177, R179, R181, R329, R330). When every core that has not retired has arrived, the barrier
releases: STEPCLK is 0 and STEPNO one more at each, and the communication step begins. The conductor reads its next long word, whose tile
comes in: its slots then wait for their time, and an end word fixes the end of the step. At that end the compute step begins where no stop is due
and every transfer that ends in no scratchpad is complete, and the waiting cores run. A tasked region at its boundary is saved. A deadline that has run out halts its region. Covers
barrierRelease, conductorSlotSend, computeStepStart, taskedBoundary, deadlineOver. -/
def Obligations.SuperstepSteps : Prop :=
  ∀ (r : Region) (ws : List Word) (pa tEnd : Nat) (s s1 : State), Spec.coherent s → s.region? s.args.n = some r →
    (barrierReady s r = true →
      ∃ t, exec .barrierRelease s = .next t ∧ (t.region? r.id).map (fun q => (q.inComm, q.time, q.endT)) = some (true, 0, none) ∧
        (r.asked = false ∨ r.level.toNat < 2 → t.mem = s.mem) ∧ (s.core.id ∈ s.crew r → t.core.stepclk = 0 ∧ t.core.run = .atBarrier ∧ t.core.g = s.core.g ∧
          ((∀ id ∈ s.crew r, (s.coreAt id).stepno = s.core.stepno) → t.core.stepno.toNat = (s.core.stepno.toNat + 1) % 2 ^ 16))) ∧
    (r.scheduled = true → r.live = true → r.inComm = true → r.endT = none → r.restart = none → s.args.m = 0 →
      let s2 := s.touchRegion r (r.sched + 128 * r.streamPos) 128
      s2.regionWords r (r.sched + 128 * r.streamPos) 16 = some ws →
      let h := ws.getD 0 0
      let n := h.toNat % 16
      let time := h.toNat / 2 ^ 16 % 2 ^ 32
      let slots := (List.range n).map fun i => (ws.getD (2 + 2 * i) 0, ws.getD (3 + 2 * i) 0, time)
      h &&& 0xFFFF00000000FFF0 = 0 → ws.getD 1 0 = 0 → n < 8 → (∀ a, r.lastT = some a → a < time) →
      (∀ x ∈ slots, slotOk x.1 x.2.1 = true) →
      exec .conductorSlotSend s = .next (s2.putRegion
        { r with streamPos := r.streamPos + 1, lastT := some time, unsent := r.unsent ++ slots, endT := if n = 0 then some time else none })) ∧
    (r.inComm = true → r.live = true → r.endT = some tEnd → tEnd ≤ r.time → r.boundary = none → outwardPending s r = false →
      ∃ t, exec .computeStepStart s = .next t ∧ (t.region? r.id).map (fun q => (q.inComm, q.endT)) = some (false, none) ∧ t.mem = s.mem ∧
        (s.core.id ∈ s.held r → s.core.run = .atBarrier → t.core.run = .running)) ∧
    (atBoundary' s r = true →
      (r.level.toNat < 2 → ∃ t, exec .taskedBoundary s = .next t ∧ (t.region? r.id).map (fun q => q.state) = some (.saved false)) ∧
      (2 ≤ r.level.toNat → (s.dropWindows r).takeArea r.part 4 none = (s1, some pa) →
        ∃ t, exec .taskedBoundary s = .next t ∧ (t.region? r.id).map (fun q => (q.state, q.dump)) = some (.saved false, pa))) ∧
    exec .deadlineOver s = .next { s with todo := s.todo ++ [{ instr := .regionHalt, args := { n := s.args.n, m := 0x020 } }] }

namespace Sys2Proof.Spec

open Sys2Proof Sys2Proof.Machine

/-- Word 0 of an entry names a block, word 1 a level and the interrupt bit, words 3 to 7 are zero (R374). -/
def entryOk (w : WorkQueue) (e : List Word) : Prop :=
  e.getD 0 0 &&& 0xFE000000000000FF = 0 ∧ e.getD 1 0 &&& 0xFFFFFFFFFFFFFEFC = 0 ∧ (∀ i, i < 5 → e.getD (3 + i) 0 = 0) ∧
  max 1 w.minlvl ≤ (e.getD 1 0).toNat % 4

/-- n words of physical memory. -/
def physWords (s : State) (pa n : Nat) : List Word := (List.range n).map fun i => s.mem.word (pa + 8 * i)

end Sys2Proof.Spec

/-- O46. The launch engine (R175, R193, R194, R225, R226, R352, R353, R355). It pins the next page of a lease list that has been read; it
starts the region on the lowest-numbered free cores once there are enough; an answered page fault goes on or abandons the launch. The
completion record of a region whose work, children and commands have ended is written, and the region is gone; one that a core which has failed
its scan ran gets its verdict at once; a verdict sets CONFIRMED or SUSPECT and clears PENDING. Covers leaseAcquisition, pageFaultResponse, completionRecord, verdict. -/
def Obligations.LaunchSteps : Prop :=
  ∀ (r : Region) (e p pa a b : Nat) (l : Lease) (pr pw px dp : Bool) (x : Await) (s s1 : State),
    (s.region? s.args.n = some r → r.state = .acquiring e p → ((s.tree r.root).filter fun q => decide (q.id < r.id)).length < 256 →
      r.leases.length = r.nleases → r.leases[e]? = some l →
      (∀ q, r.parent.bind s.region? = some q → ∀ m ∈ r.leases, ∃ k ∈ q.leases, m.inside k = true) →
      let s2 := s.touchWalk r ((l.start + p) * 4096)
      s2.walk r.part r.asid ((l.start + p) * 4096) false false = .ok pa pr pw px dp → inHost pa = false →
      exec .leaseAcquisition s = .next (s2.putRegion { r with
        leases := r.leases.set e { l with frames := l.frames ++ [pa / 4096], perms := l.perms ++ [(pr, pw, px)] },
        state := if p + 1 < l.pages then .acquiring e (p + 1) else .acquiring (e + 1) 0 })) ∧
    (s.region? s.args.n = some r → r.state = .waitingCores → r.hold = false → queueAheadOf s r = false → (s.part r.part).st = .sealed →
      (s.part r.part).holds = true → (s.part r.part).ending = false →
      let s2 := s.touchPlan r
      planOk s2 r = true → imageFits r (s2.program r) = true → r.ncores ≤ (freeCores s2 r).length →
      ∃ t, exec .leaseAcquisition s = .next t ∧ (t.region? r.id).map (fun q => (q.state, q.budget, q.count)) =
        some (.running, (freeCores s2 r).take r.ncores, if r.scheduled then ((freeCores s2 r).take r.ncores).length else r.roots)) ∧
    (s.region? s.args.n = some r → r.state = .pageFault e p pa →
      let s2 := s.forSpace r.part r.asid fun s => s.touchRange (pa + 24) 8
      (s2.mem.word (pa + 24) = 1 → exec .pageFaultResponse s =
        .next (s2.putRegion { r with state := if r.leases.length < r.nleases then .acquiring 0 0 else .acquiring e p })) ∧
      (s2.mem.word (pa + 24) = 2 → exec .pageFaultResponse s = .next (s2.failLaunch r.id 0x146))) ∧
    (s.region? s.args.n = some r → r.count = 0 → s.recordWaits r = false → r.has.getLsbD 14 = true → r.compl % 8 = 0 →
      s.writeFor r r.compl ((completionWords s r).flatMap fun w => leBytes 8 w.toNat) = some s1 →
      s.regionPlace r r.compl false true = some a → s.regionPlace r (r.compl + 232) false true = some b →
      (∀ c ∈ s1.allCores, c.wins = []) →
      ∃ t, exec .completionRecord s = .next t ∧ t.region? r.id = none ∧ t.mem = s1.mem ∧
        t.awaits.map (fun y => (y.no, y.compl, y.word29, y.cores)) =
          s1.awaits.map (fun y => (y.no, y.compl, y.word29, y.cores)) ++ [(r.id, a, b, r.usedCores)] ∧
        (s1.failedCore r = true → ∃ d ∈ t.todo, d.instr = .verdict ∧ d.args.n = r.id ∧ d.args.flag = true)) ∧
    (Memory.wf s.mem = true → (s.awaits.find? fun y => decide (y.no = s.args.n)) = some x →
      inHost x.compl = false → inHost x.word29 = false → x.compl % 8 = 0 → x.word29 % 8 = 0 → x.compl ≠ x.word29 →
      ∃ t, exec .verdict s = .next t ∧ (∀ y ∈ t.awaits, y.no ≠ s.args.n) ∧
        (t.mem.word x.compl).getLsbD 16 = false ∧ (t.mem.word x.compl).getLsbD (if s.args.flag then 18 else 17) = true ∧
        ((s.tileOf (x.compl / 4096)).inCache = true → (t.mem.word x.word29).toNat = 2 ^ 63 + (if s.args.flag then 2 else 1)) ∧
        t.core.g = s.core.g)

namespace Sys2Proof.Spec

open Sys2Proof Sys2Proof.Machine

/-- A queue that has come to have no entry: it becomes inactive in 10 us unless it has one by then (R376). -/
def idles (s : State) (q : Nat) (w : WorkQueue) : State :=
  { s with wqs := assocPut s.wqs q { w with idle := s.clk },
           timers := s.timers ++ [{ instr := .queueInactive, args := { n := q, m := s.clk }, at' := s.pktime + 22500 }] }

/-- The host reads word v over CXL.io. -/
def toHost (s : State) (v : Word) : State :=
  { s with hostOut := s.hostOut ++ [{ iface := 0, write := false, bytes := leBytes 8 v.toNat, poison := false, error := false }] }

end Sys2Proof.Spec

/-- O47. Host work queues (R301, R372 to R376). Queue q has its registers at 64 q in BAR 2 and its doorbell at 4096 q in BAR 4. WQBASE and
WQCFG take a write while EN is 0, and setting EN starts the queue empty and without error; a queue that goes to another partition leaves the
lists of the old one (log 42); the host reads them, WQSTAT and TAIL. DBTAIL
publishes entries, or stops the queue with 0x06 where they would not fit; a queue with an entry becomes active where the launch engine
has a place. A queue with no entry for 10 us gives its place up, to the oldest pending queue of its partition. The entry whose turn it is
launches its block under the queue's address space and partition, and HEAD rises; the tiles read come in (R218). Covers wqcfg, dbtail, queueInactive, wqEntryLaunch. -/
def Obligations.WorkQueues : Prop :=
  ∀ (q pa va p : Nat) (ws : List Word) (s : State), q < 2 ^ 16 →
    let w := s.queue q
    let t := s.args.m % 2 ^ 16
    (s.args.flag = false → w.cfg.getLsbD 63 = false →
      (s.args.n = 64 * q → exec .wqcfg s = .next { s with wqs := assocPut s.wqs q { w with base := s.args.w &&& 0x1FFFFFFFFFFF001 } }) ∧
      (s.args.n = 64 * q + 8 → s.args.w.getLsbD 63 = true →
        let new : WorkQueue := { w with cfg := s.args.w &&& 0x801F03FF33FF003F, err := false, code := 0, head := 0, tail := 0 }
        (new.part = w.part → exec .wqcfg s = .next { s with wqs := assocPut s.wqs q new }) ∧
        (new.part ≠ w.part → s.active.contains q = false →
          exec .wqcfg s = .next { s with wqs := assocPut s.wqs q new, pendingQ := s.pendingQ.erase q }) ∧
        (new.part ≠ w.part → ∃ u, exec .wqcfg s = .next u ∧ (u.queue q).cfg = new.cfg ∧ u.active.length ≤ s.active.length))) ∧
    (s.args.flag = true →
      (s.args.n = 64 * q → exec .wqcfg s = .next (Spec.toHost s w.base)) ∧
      (s.args.n = 64 * q + 8 → exec .wqcfg s = .next (Spec.toHost s w.cfg)) ∧
      (s.args.n = 64 * q + 16 → w.code < 2 ^ 8 → w.head < 2 ^ 16 → ∃ v : Word, exec .wqcfg s = .next (Spec.toHost s v) ∧
        v.getLsbD 63 = w.err ∧ v.getLsbD 62 = s.active.contains q ∧ v.toNat % 2 ^ 62 = w.code * 2 ^ 32 + w.head) ∧
      (s.args.n = 64 * q + 24 → exec .wqcfg s = .next (Spec.toHost s (BitVec.ofNat 64 w.tail)))) ∧
    (s.args.n = 4096 * q → s.args.flag = false →
      ({ instr := .queueInactive, args := { n := q, m := s.clk }, at' := s.pktime + 22500 } : Due) ∉ s.timers →
      (2 ^ w.log2n < (t + 2 ^ 16 - w.head) % 2 ^ 16 →
        let w' := { w with err := true, code := 0x06 }
        let s' : State := { s with wqs := assocPut s.wqs q w' }
        exec .dbtail s = .next (if w.hasEntry && s.active.contains q then Spec.idles s' q w' else s')) ∧
      ((t + 2 ^ 16 - w.head) % 2 ^ 16 ≤ 2 ^ w.log2n →
        let w' := { w with tail := t }
        let s' : State := { s with wqs := assocPut s.wqs q w' }
        (s.active.contains q = true → exec .dbtail s =
          .next (if w.hasEntry && decide ((t + 2 ^ 16 - w.head) % 2 ^ 16 = 0) then Spec.idles s' q w' else s')) ∧
        (s.active.contains q = false → w.cfg.getLsbD 63 = true → w.err = false → (t + 2 ^ 16 - w.head) % 2 ^ 16 ≠ 0 →
          roomFor' s w.part = true → exec .dbtail s = .next { s' with active := s.active ++ [q], pendingQ := s.pendingQ.erase q }))) ∧
    (s.args.n = q → s.active.contains q = true → w.hasEntry = false → w.idle = s.args.m →
      let s' : State := { s with active := s.active.erase q }
      ((∀ x ∈ s.pendingQ, (s.queue x).part ≠ w.part ∧ roomFor' s' (s.queue x).part = false) → exec .queueInactive s = .next s') ∧
      ((s.pendingQ.find? fun x => decide ((s.queue x).part = w.part)) = some p → (s.queue p).hasEntry = true →
        exec .queueInactive s = .next { s' with active := s'.active ++ [p], pendingQ := s.pendingQ.erase p })) ∧
    (s.args.n = q → (s.active.find? fun x => (s.queue x).hasEntry && decide ((s.part (s.queue x).part).st ≠ .stopping)) = some q →
      let rva := w.base.toNat / 2 ^ 12 % 2 ^ 45 * 4096 + 64 * (w.head % 2 ^ w.log2n)
      let s1 : State := { s with active := s.active.erase q ++ [q] }
      let s2 := if w.base.getLsbD 0 then s1.touchRead w.part w.asid rva 64 else s1
      queueOwned s1 q = true → ringPlace s2 w rva = some pa → s2.mem.anyPoison pa 64 = false → Spec.entryOk w (Spec.physWords s2 pa 8) →
      let block := (s2.mem.word pa).toNat % 2 ^ 57
      let s3 : State := { s2 with wqs := assocPut s2.wqs q { w with head := (w.head + 1) % 2 ^ 16 } }
      let s4 := s3.touchRead w.part w.asid block 256
      s4.vatPlace w.part w.asid block true false = some va → s4.mem.anyPoison va 256 = false → ws = Spec.physWords s4 va 32 →
      ∃ t, exec .wqEntryLaunch s = .next t ∧ (t.queue q).head = (w.head + 1) % 2 ^ 16 ∧ t.active = s1.active ∧
        t.nextRgn = s.nextRgn + 1 ∧ t.core.g = s.core.g ∧ t.core.spad = s.core.spad ∧
        t.regions = (s4.takeBlock ws block w.asid w.part (BitVec.ofNat 2 (s2.mem.word (pa + 8)).toNat) none
          (some (q, s2.mem.word (pa + 16), (s2.mem.word (pa + 8)).getLsbD 8, w.vec))).regions)

namespace Sys2Proof.Spec

open Sys2Proof Sys2Proof.Machine

/-- The home's entry of a tile of a window (R383). -/
def entryOf (s : State) (wid n : Nat) : Option DirTile := (s.win? wid).map fun w => w.tile n

/-- The state of a window's tile at the current core (R381). -/
def tileState (s : State) (wid n : Nat) : Option TileState := (s.core.decl? wid).map fun d => d.tiles.getD n .i

/-- The entry of a tile whose request of `who`, who holds no copy or asks for ownership, has been served (R384). -/
def served (t : DirTile) (who kind : Nat) : DirTile :=
  let t := { t with busy := none, waits := [], carry := [] }
  if kind = 1 then { t with st := .m, owner := who, sharers := [] }
  else match t.st with
    | .i => { t with st := .e, owner := who, sharers := [] }
    | .s => { t with sharers := numAdd t.sharers who }
    | .e => { t with st := .s, sharers := numAdd [t.owner] who }
    | .m => { t with st := .o, sharers := [who] }
    | .o => { t with sharers := numAdd t.sharers who }

end Sys2Proof.Spec

/-- O48. Device memory behind the caches (R218, R225, R229 to R234, R344, R347, R439). A fill brings the tile in under the accessing
tenant's key, and one that fails its tag check, as under another tenant's key, poisons all 128 sectors, empties the full/empty bits and sets
has-parked. A dirty tile that leaves is encrypted under its key with a tag and takes the next version, one whose version would wrap moves to
the other epoch and starts a rotation, and a clean one is not written: DRAM keeps what it had; at the end of a rotation EPOCH flips. A migration moves the page's bytes to a free page. A token that has accrued enters
its bucket, or pays what the bucket owes (log 87). An uncorrectable error poisons its sector, and one in storage is recorded. Covers tileFill, tileWriteback,
keyRotationEnd, pageMigration, tokenAccrual, memUncorr. -/
def Obligations.DeviceMemory : Prop :=
  ∀ (b : Bucket) (m : MigReq) (behind : List MigReq) (pa dst : Nat) (pr pw px : Bool) (s : State),
    let n := s.args.n
    let t := s.tileOf n
    let k := (assocGet s.keys t.keyid).getD {}
    (inDevice (n * 4096) = true → t.inCache = false →
      (s.args.flag = false → t.broken = false → t.inject = false → (∀ u ∈ t.under, u = s.core.keysel.toNat % 1024) →
        exec .tileFill s = .next (s.putTile n { t with inCache := true, keyid := s.core.keysel.toNat % 1024 })) ∧
      ((s.args.flag = true ∨ t.broken = true ∨ t.inject = true ∨ ∃ u ∈ t.under, u ≠ s.core.keysel.toNat % 1024) → Memory.wf s.mem = true → (s.asidOf s.core.asid).frqs.reg.toNat / 2 ^ 12 % 2 ^ 45 = 0 →
        ∃ u, exec .tileFill s = .next u ∧ (u.tileOf n).inCache = true ∧ u.mem.bytes = s.mem.bytes ∧ u.mem.isParked (n * 4096) = true ∧
          (∀ j, j < 128 → u.mem.poisoned (n * 4096 + 32 * j) = true) ∧ (∀ j, j < 512 → u.mem.fe (n * 4096 + 8 * j) = false))) ∧
    (inDevice (n * 4096) = true → t.inCache = true → (∀ f ∈ s.flights, f.sp = false → ∀ v ∈ f.words, v.no / 512 ≠ n) →
      let out : Tile := { t with under := some t.keyid, tag := Config.tag s.free, stored := none, broken := false,
                                 dirty := false, inCache := !s.args.flag }
      (t.dirty = false →
        (s.args.flag = false → exec .tileWriteback s = .next s) ∧
        (s.args.flag = true → t.stored = none → exec .tileWriteback s = .next (s.putTile n { t with dirty := false, inCache := false })) ∧
        (∀ x, s.args.flag = true → t.stored = some x → exec .tileWriteback s =
          .next { s.putTile n { t with stored := none, dirty := false, inCache := false } with mem := s.mem.setTileBits n x })) ∧
      (t.dirty = true → t.version + 1 < 2 ^ 32 →
        exec .tileWriteback s = .next (({ s with free := s.free + 1 } : State).putTile n { out with version := t.version + 1 })) ∧
      (t.dirty = true → 2 ^ 32 ≤ t.version + 1 → k.rot = false ∨ t.epoch = false →
        exec .tileWriteback s = .next (({ s with keys := assocPut s.keys t.keyid { k with rot := true }, free := s.free + 1 } : State).putTile n
          { out with version := 0, epoch := true }))) ∧
    (let key := (assocGet s.keys n).getD {}
     key.rot = true → ∃ u, exec .keyRotationEnd s = .next u ∧ u.mem = s.mem ∧ u.core = s.core ∧
       (assocGet u.keys n).map (fun x => x.epoch) = some (!key.epoch) ∧
       ∀ x ∈ s.tiles, (x.2.keyid ≠ n → x ∈ u.tiles) ∧
         (x.2.keyid = n → x.2.pinned = false →
           (x.2.epoch = true → (x.1, { x.2 with epoch := false }) ∈ u.tiles) ∧
           (x.2.epoch = false → x.2.under = none → x ∈ u.tiles) ∧
           (x.2.epoch = false → x.2.under.isSome = true → ∃ y, (x.1, { x.2 with tag := y }) ∈ u.tiles))) ∧
    (s.args.flag = false → s.args.list = [] → s.migs = m :: behind → Memory.wf s.mem = true →
      s.walk m.part m.asid m.va false false = .ok pa pr pw px false → s.leased (pa / 4096) = false → inHost pa = !m.toHost →
      s.mem.dark = false → (if m.toHost then s.spareHost.head? else s.devicePage m.part) = some dst →
      (inDevice (pa / 4096 * 4096) = true → (s.tileOf (pa / 4096)).inCache = true) →
      (∀ f ∈ s.flights, f.sp = false → ∀ v ∈ f.words, v.no / 512 ≠ pa / 4096) →
      ∃ u, exec .pageMigration s = .next u ∧ u.core = s.core ∧
        (∀ j, j < 4096 → cellGet u.mem.bytes (dst * 4096 + j) = cellGet s.mem.bytes (pa / 4096 * 4096 + j)) ∧
        (∀ x, x / 4096 ≠ dst → cellGet u.mem.bytes x = cellGet s.mem.bytes x)) ∧
    ((s.buckets.find? fun b => decide (b.port = s.args.n ∧ b.ctx = s.args.m)) = some b → 2250 ≤ b.credit → b.tokens < b.ceiling →
      exec .tokenAccrual s = .next { s with buckets := s.buckets.map fun y =>
        if y = b then { b with credit := b.credit - 2250, tokens := if b.debt = 0 then b.tokens + 1 else b.tokens, debt := b.debt - 1 } else y }) ∧
    (inDevice n = true →
      let poisoned : State := { s with mem := s.mem.setPoison n true }
      (s.args.m = 2 → exec .memUncorr s = .next poisoned) ∧
      (s.args.m = 0 → exec .memUncorr s = .next (poisoned.recordHv
        { code := 0x14A, tval := BitVec.ofNat 64 (n / 32 * 32), tval2 := 0, tinfo := s.vatInfo } 0 s.args.p))) ∧
    (n < 0x60000 → s.args.m = 3 → exec .memUncorr s = .next { s with core := { s.core with spad := s.core.spad.setPoison n true } })

/-- O49. The directory of windows (R381 to R384). GetS of a tile that no other core owns for writing, and GetM of a tile that no other core
holds, are served at once; GetS of an owned tile takes the ownership away first, GetM invalidates every other holder; behind a busy tile
a request waits. A holder that is quiet answers, and keeps its copy for a GetS. A fill of an uncached tile makes the requester its owner in E,
and its scratchpad holds the image's bytes; one of an owned tile brings the owner's bytes, and a core that asks for ownership ends in M, its
bytes untouched where it held a copy. A notice makes E into M. A drop of S, E, M or O leaves the entry as R384 says, and what an owner has
written goes to the image. For a window without participants in other packages. Covers gets, getm, invalidation, windowFill, noticeEToM, drop. -/
def Obligations.WindowSteps : Prop :=
  ∀ (w : DirWin) (d : WinDecl) (x : Nat) (s : State), s.win? s.args.n = some w → s.args.m < w.tiles.length → w.away = [] →
    let n := s.args.m
    let who := s.args.p
    let t := w.tile n
    let put (u : DirTile) : State := s.putWin (w.setTile n u)
    let fill (to' : Nat) : Due := { instr := .windowFill, core := w.coreOf to', args := { n := w.wid, m := n, p := to' } }
    let ask (o : Nat) (keep : Bool) : Due := { instr := .invalidation, core := w.coreOf o, args := { n := w.wid, m := n, p := o, flag := keep } }
    ((∃ p ∈ w.parts, p.1 = who) → s.args.list = [] →
      (∀ b, t.busy = some b → exec .gets s = .next (put { t with queue := t.queue ++ [{ kind := 0, who := who }] }) ∧
        exec .getm s = .next (put { t with queue := t.queue ++ [{ kind := 1, who := who }] })) ∧
      (t.busy = none →
        (t.st = .i ∨ t.st = .s ∨ t.st = .o ∨ t.owner = who →
          exec .gets s = .next ((put { t with busy := some (who, 0), waits := [] }).addTodo (fill who))) ∧
        (t.st = .e ∨ t.st = .m → t.owner ≠ who →
          exec .gets s = .next ((put { t with busy := some (who, 0), waits := [t.owner] }).addTodo (ask t.owner true))) ∧
        let others := ((if t.st = .e ∨ t.st = .m ∨ t.st = .o then [t.owner] else []) ++ t.sharers).filter fun o => decide (o ≠ who)
        (others = [] → exec .getm s = .next ((put { t with busy := some (who, 1), waits := [] }).addTodo (fill who))) ∧
        (others ≠ [] → exec .getm s = .next { put { t with busy := some (who, 1), waits := others } with
          todo := s.todo ++ others.map fun o => ask o false }))) ∧
    (t.waits = [who] → tileQuiet s w who n = true → t.busy = some (x, if s.args.flag then 0 else 1) → w.coreOf who = s.core.id →
      s.core.decl? w.wid = some d → n < d.tiles.length →
      let was := d.tiles.getD n .i
      ∃ u, exec .invalidation s = .next u ∧ u.todo = s.todo ++ [fill x] ∧
        Spec.entryOf u w.wid n = some { t with waits := [], st := if t.st = .e ∧ was = .m then .m else t.st } ∧
        Spec.tileState u w.wid n = some (if s.args.flag then (if was = .m ∨ was = .o then .o else .s) else .i)) ∧
    (t.busy = some (who, 0) → t.waits = [] → t.queue = [] → t.st = .i → w.coreOf who = s.core.id → s.core.decl? w.wid = some d →
      d.tiles.getD n .i = .i → tileQuiet s w who n = true → Memory.wf s.core.spad = true → 7 ≤ w.tl →
      (∀ i, i < 2 ^ w.tl / 128 → (s.tileOf (w.place (n * 2 ^ w.tl + 128 * i) / 4096)).inCache = true) →
      ∃ u, exec .windowFill s = .next u ∧
        Spec.entryOf u w.wid n = some { t with st := .e, owner := who, sharers := [], busy := none, waits := [], carry := [] } ∧
        (∀ k, k < 2 ^ w.tl → cellGet u.core.spad.bytes (d.lbase + n * 2 ^ w.tl + k) =
          cellGet s.mem.bytes (w.place (n * 2 ^ w.tl + k / 128 * 128) + k % 128)) ∧ u.mem = s.mem ∧ u.core.g = s.core.g) ∧
    (∀ (kind : Nat) (e : WinDecl), kind < 2 → t.busy = some (who, kind) → t.waits = [] → t.queue = [] → t.st = .e ∨ t.st = .m ∨ t.st = .o →
      t.owner ≠ who → t.sharers.contains who = false → w.coreOf who = s.core.id → w.coreOf t.owner ≠ s.core.id →
      s.core.decl? w.wid = some d → n < d.tiles.length → d.tiles.getD n .i = .i → tileQuiet s w who n = true → Memory.wf s.core.spad = true →
      (s.coreAt (w.coreOf t.owner)).decl? w.wid = some e →
      ∃ u, exec .windowFill s = .next u ∧ u.mem = s.mem ∧ u.core.g = s.core.g ∧
        Spec.entryOf u w.wid n = some (Spec.served t who kind) ∧ Spec.tileState u w.wid n = some (if kind = 1 then .m else .s) ∧
        ∀ k, k < 2 ^ w.tl → cellGet u.core.spad.bytes (d.lbase + n * 2 ^ w.tl + k) =
          cellGet (s.coreAt (w.coreOf t.owner)).spad.bytes (e.lbase + n * 2 ^ w.tl + k)) ∧
    (t.busy = some (who, 1) → t.waits = [] → t.queue = [] → w.coreOf who = s.core.id → s.core.decl? w.wid = some d → n < d.tiles.length →
      d.tiles.getD n .i ≠ .i →
      ∃ u, exec .windowFill s = .next u ∧ Spec.entryOf u w.wid n = some (Spec.served t who 1) ∧ Spec.tileState u w.wid n = some .m ∧
        u.core.spad = s.core.spad ∧ u.core.g = s.core.g) ∧
    (t.st = .e → t.owner = who → exec .noticeEToM s = .next (put { t with st := .m })) ∧
    (t.busy = none → t.queue = [] → s.args.flag = false → Spec.coherent s → w.coreOf who = s.core.id → s.core.decl? w.wid = some d → n < d.tiles.length →
      let rest := t.sharers.filter fun o => decide (o ≠ who)
      (t.st = .s → ∃ u, exec .drop s = .next u ∧ u.mem = s.mem ∧
        Spec.entryOf u w.wid n = some { t with st := if rest = [] then .i else .s, sharers := rest } ∧ Spec.tileState u w.wid n = some .i) ∧
      (t.st = .o → t.owner ≠ who → w.coreOf t.owner ≠ s.core.id → ∃ u, exec .drop s = .next u ∧ u.mem = s.mem ∧
        Spec.entryOf u w.wid n = some { t with st := if rest = [] then .m else .o, sharers := rest } ∧ Spec.tileState u w.wid n = some .i ∧
        (rest = [] → (∃ e, (s.coreAt (w.coreOf t.owner)).decl? w.wid = some e ∧ n < e.tiles.length) →
          ((u.coreAt (w.coreOf t.owner)).decl? w.wid).map (fun e => e.tiles.getD n .i) = some .m)) ∧
      (t.st = .e ∨ t.st = .m ∨ t.st = .o → t.owner = who →
        let after : DirTile := if t.st = .o then { t with st := if rest = [] then .i else .s, sharers := rest } else { t with st := .i, sharers := [] }
        (t.st = .e → d.tiles.getD n .i = .e ∨ d.tiles.getD n .i = .s ∨ d.tiles.getD n .i = .i →
          ∃ u, exec .drop s = .next u ∧ u.mem = s.mem ∧ Spec.entryOf u w.wid n = some after ∧ Spec.tileState u w.wid n = some .i) ∧
        (t.st = .m ∨ t.st = .o ∨ d.tiles.getD n .i = .m → Memory.wf s.mem = true → 7 ≤ w.tl → w.image % 128 = 0 →
          (∀ i, i < 2 ^ w.tl / 128 → inDevice (w.place (n * 2 ^ w.tl + 128 * i)) = true ∧
            ∀ j, j < 2 ^ w.tl / 128 → w.place (n * 2 ^ w.tl + 128 * i) = w.place (n * 2 ^ w.tl + 128 * j) → i = j) →
          ∃ u, exec .drop s = .next u ∧ Spec.entryOf u w.wid n = some after ∧ Spec.tileState u w.wid n = some .i ∧
            ((∀ i, i < 2 ^ w.tl / 128 → (s.tileOf (w.place (n * 2 ^ w.tl + 128 * i) / 4096)).inCache = true) →
              ∀ k, k < 2 ^ w.tl → cellGet u.mem.bytes (w.place (n * 2 ^ w.tl + k / 128 * 128) + k % 128) =
                cellGet s.core.spad.bytes (d.lbase + n * 2 ^ w.tl + k)))))

/-- O50. Loss in a window (R391 to R393, R402). When the package of a tile's owner is declared lost, a tile that no sharer holds has every
sector of its image poisoned and becomes I, and the window is degraded; with a surviving sharer, its copy becomes the image and it
keeps the tile in S. A lost directory message takes the tile from its owner, poisons the image and degrades the window. The home
answers a declaration of a degraded window with STATUS 7. Covers packageLost and lossBeyondReplay for windows. -/
def Obligations.WindowLoss : Prop :=
  ∀ (w : DirWin) (d : WinDecl) (t : DirTile) (g a core tl nt : Nat) (wr : Bool) (pas : List Nat) (s : State),
    Memory.wf s.mem = true → Spec.coherent s → s.dir = [w] → w.tiles = [t] → t.busy = none → t.queue = [] → t.waits = [] → t.carry = [] →
    7 ≤ w.tl → w.tl ≤ 12 → w.image % 2 ^ w.tl = 0 → w.parts = [(a, s.core.id, true)] → a ≠ g → s.core.decl? w.wid = some d → s.links = [] →
    (s.asidOf s.core.asid).frqs.reg.toNat / 2 ^ 12 % 2 ^ 45 = 0 → (∀ x, x < 2 ^ w.tl → inDevice (w.place x) = true) →
    (s.args.n < 2048 → w.away = [(g, s.args.n)] → t.owner = g → (∀ m ∈ s.core.msgs, m.total ≤ m.data.length ∨ m.srcPkg ≠ s.args.n) →
      (t.st = .e ∨ t.st = .m ∨ t.st = .o → t.sharers = [] →
        ∃ u, exec .packageLost s = .next u ∧ u.dir = [{ w with away := [], degraded := true, tiles := [{ t with st := .i }] }] ∧
          (∀ j, j < 2 ^ w.tl / 32 → u.mem.poisoned (w.place (32 * j)) = true) ∧ u.mem.bytes = s.mem.bytes ∧ u.core = s.core) ∧
      (t.st = .o → t.sharers = [a] →
        ∃ u, exec .packageLost s = .next u ∧ u.dir = [{ w with away := [], tiles := [{ t with st := .s }] }] ∧
          ∀ x, x < 2 ^ w.tl → cellGet u.mem.bytes (w.place x) = cellGet s.core.spad.bytes (d.lbase + x))) ∧
    (s.args.n < 96 → w.away = [] → s.args.list = [w.wid, 0] → t.st = .m → t.owner = a → d.tiles = [.m] → tileQuiet s w a 0 = true →
      ∃ u, exec .lossBeyondReplay s = .next u ∧ u.dir = [{ w with degraded := true, tiles := [{ t with st := .i, sharers := [] }] }] ∧
        (∀ j, j < 2 ^ w.tl / 32 → u.mem.poisoned (w.place (32 * j)) = true) ∧ (u.core.decl? w.wid).map (fun x => x.tiles) = some [.i]) ∧
    (w.degraded = true → pas.headD 0 = w.image → homeDeclares s core tl nt wr pas = .error 7)

/-- Bytes leave to be written from an address on: each stands with its mask in the word that holds it, and no other byte is written. -/
def Spec.brings (f : Flight) (at' : Nat) (data : Lump) : Prop :=
  (∀ k, k < data.length → ∃ w ∈ f.words, w.no = (at' + k) / 8 ∧ w.mask.extractLsb' (8 * ((at' + k) % 8)) 8 = 0xFF#8 ∧
    some (w.val.extractLsb' (8 * ((at' + k) % 8)) 8) = (data[k]?).map (·.1)) ∧
  (∀ w ∈ f.words, w.sum = none ∧ ∀ k, k < 8 → w.mask.extractLsb' (8 * k) 8 ≠ 0#8 → at' ≤ 8 * w.no + k ∧ 8 * w.no + k < at' + data.length)

/-- One element leaves to be added at an address. -/
def Spec.adds (f : Flight) (fmt at' v : Nat) : Prop :=
  ∃ w, f.words = [w] ∧ w.no = at' / 8 ∧ w.sum = some fmt ∧ w.bit = none ∧
    w.val.extractLsb' (8 * (at' % 8)) 32 = BitVec.ofNat 32 v ∧ w.mask = BitVec.ofNat 64 (2 ^ (8 * (at' % 8)) * 0xFFFFFFFF)

/-- O51. What arrives over the links and what returns (R324, R325, R401, R404 to R408). The bytes of a put leave to be written through the
fabric aperture, the element of a remote addition leaves to be added, and their answers go behind the last word (when each is written is
open, log 7); a get is answered with the bytes and bits, a poison request poisons; one that lands nowhere is refused with code 3 at
its source. An atomic acts once: a repeated number gives the kept result with its poison. The frames of a message join; a message with no
receive is held, a new one behind 32 waits, and one that begins takes the place of an unfinished one of its engine. A part of a contribution
is merged, a repeated part drops, and the last one delivers its block, or has every contribution refused where the aperture withholds it; one
that is one too many is answered with 1. An answer is counted, and what a get brought back
leaves to be written at the local address; one with an error
fails the command, which leaves when every frame it sent has been answered; a command ends when all has come and is written. An atomic
without a reply goes out again by a port that leads to its package, in a slot of a circuit port, at most 4 times. Covers remoteWrite, remoteAtomic, messageArrival, reductionDelivery, acknowledgement,
atomicResend. -/
def Obligations.LinkArrivals : Prop :=
  ∀ (q : FabReq) (a : FabAck) (l : LinkCmd) (p : Piece) (part va cnt fmt blocks pa m : Nat) (v : Receive) (rest : List Receive) (x : Nat × Nat × Nat × Word × Bool) (s : State),
    Spec.coherent s → Memory.wf s.mem = true →
    let home := s.byNumber q.core
    let ack (code n : Nat) (d : Lump) (tinfo : Word) : FabAck := { dst := q.srcPkg, cmd := q.cmd, off := q.off, len := n, code := code, data := d, tinfo := tinfo, addr := BitVec.ofNat 64 q.addr }
    (s.args.req = some q → q.port < 96 → (s.port q.port).part = some part →
      (landing s part q (decide (q.kind = .get)) (decide (q.kind ≠ .get)) = none → (s.part part).frqh.reg.toNat / 2 ^ 12 % 2 ^ 45 = 0 →
        ∃ u t, exec .remoteWrite s = .next u ∧ u.mem = s.mem ∧ u.core = s.core ∧ u.others = s.others ∧ u.ackOut = s.ackOut ++ [ack 3 q.len [] t]) ∧
      (landing s part q (decide (q.kind = .get)) (decide (q.kind ≠ .get)) = some [p] → p.at' % 4096 + p.len ≤ 4096 →
        (q.toGlobal = true → inDevice p.at' = true → (s.tileOf (p.at' / 4096)).inCache = true →
          (q.kind = .put → p.len = q.data.length →
            ∃ (u : State) (f : Flight), exec .remoteWrite s = .next u ∧ u.ackOut = s.ackOut ∧ u.mem = s.mem ∧ u.core = s.core ∧
              u.flights = s.flights ++ [f] ∧ f.sp = false ∧ f.part = some part ∧ f.acks = [ack 0 q.len [] 0] ∧ Spec.brings f p.at' q.data ∧
              (q.bits = false → ∀ w ∈ f.words, w.bit = none)) ∧
          (q.kind = .get → exec .remoteWrite s = .next { s with ackOut := s.ackOut ++ [ack 0 q.len (s.mem.lump p.at' p.len) 0] }) ∧
          (q.kind = .poison → (∀ j, j < p.len → inHost (p.at' + j) = false) →
            (∀ x ∈ s.replay, ¬ (x.1 = q.srcPkg ∧ x.2.1 = q.engine ∧ x.2.2.1 = q.ident)) →
            ∃ u, exec .remoteWrite s = .next u ∧ u.ackOut = s.ackOut ++ [ack 0 q.len [] 0] ∧ u.mem.bytes = s.mem.bytes ∧
              ∀ j, j < p.len → u.mem.poisoned (p.at' + j) = true)) ∧
        (q.toGlobal = false → q.kind = .radd → q.data.length = 4 → q.addr % 4 = 0 →
          ∃ (u : State) (f : Flight), exec .remoteWrite s = .next u ∧ u.ackOut = s.ackOut ∧ u.mem = s.mem ∧ u.core = s.core ∧
            u.flights = s.flights ++ [f] ∧ f.sp = true ∧ f.core = home ∧ f.acks = [ack 0 q.len [] 0] ∧
            Spec.adds f q.fmt q.addr (leNat (q.data.map (·.1)))))) ∧
    (s.args.req = some q → q.port < 96 → (s.port q.port).part = some part →
      ((s.replay.find? fun x => decide (x.1 = q.srcPkg ∧ x.2.1 = q.engine ∧ x.2.2.1 = q.ident)) = some x →
        exec .remoteAtomic s = .next { s with ackOut := s.ackOut ++ [ack 0 8 (plainLump (leBytes 8 x.2.2.2.1.toNat) false x.2.2.2.2) 0] }) ∧
      (let n := if q.eight then 8 else 4
       let old := leNat (s.mem.read p.at' n)
       (s.replay.find? fun x => decide (x.1 = q.srcPkg ∧ x.2.1 = q.engine ∧ x.2.2.1 = q.ident)) = none →
       landing s part { q with toGlobal := true, len := n } true true = some [p] → openBlock s part q.addr = none →
       p.len = n → p.at' % 4096 + n ≤ 4096 → inDevice p.at' = true → (s.tileOf (p.at' / 4096)).inCache = true → s.mem.anyPoison p.at' n = false →
       ∃ u, exec .remoteAtomic s = .next u ∧ u.mem.read p.at' n = leBytes n (remoteNew q n old) ∧
         (q.srcPkg, q.engine, q.ident, BitVec.ofNat 64 old, false) ∈ u.replay ∧
         u.ackOut = s.ackOut ++ [ack 0 8 (plainLump (leBytes 8 old) false false) 0])) ∧
    (s.args.flag = false → s.args.req = some q → q.port < 96 → q.core < 1024 → (s.port q.port).part = some part →
      ((s.part part).cores.getD []).contains q.core = true → (∀ v ∈ (s.coreAt home).recvs, v.doom = false) →
      let same (m : FabReq) : Prop := m.srcPkg = q.srcPkg ∧ m.engine = q.engine ∧ m.cmd = q.cmd
      let held := (s.coreAt home).msgs
      (32 ≤ held.length → (∀ m ∈ held, ¬ same m) → exec .messageArrival s = stall s) ∧
      (home = s.core.id → (∀ m ∈ held, ¬ same m) → held.length < 32 → s.core.recvs = [] ∨ (held = [] ∧ q.data.length < q.total) →
        exec .messageArrival s = .next { s with core := { s.core with
          msgs := (held.filter fun m => decide (m.total ≤ m.data.length) || !decide (m.srcPkg = q.srcPkg ∧ m.engine = q.engine)) ++ [q] } }) ∧
      (home = s.core.id → (∃ m ∈ held, same m) → s.core.recvs = [] →
        ∃ u, exec .messageArrival s = .next u ∧ u.mem = s.mem ∧ u.core.spad = s.core.spad ∧ u.core.msgs.length = held.length ∧
          ∀ m ∈ held, (same m → { m with data := m.data ++ q.data } ∈ u.core.msgs) ∧ (¬ same m → m ∈ u.core.msgs)) ∧
      (home = s.core.id → held = [] → q.total ≤ q.data.length → s.core.recvs = v :: rest →
        ∀ z, landServed v q { s with core := { s.core with msgs := [q] } } = some z →
          exec .messageArrival s = .next ((landMessage v q { z with core := { z.core with recvs := rest, msgs := [] } }).focus home))) ∧
    (let base := va + 256 * ((q.addr - va) / 256)
     let b := blockOf s part q ((q.addr - va) / 256)
     let src := (q.srcPkg, q.engine, q.ident)
     let here := (q.addr - base) / 4
     let known := b.srcs.find? fun y => decide (y.src = src)
     let start := q.addr - q.off
     let y := known.getD { src := src, n := 1, left := min (start + q.total) (base + 256) - max start base }
     let full : RedBlock := { b with
       srcs := (b.srcs.filter fun z => decide (z.src ≠ src)) ++ [{ y with parts := y.parts ++ [q.addr], left := y.left - q.data.length }]
       reqs := b.reqs ++ [{ q with data := [] }], bad := b.bad ++ badElems here q.data, sums := mergeInto fmt here q.data b.sums }
     let gathered : Prop := (full.srcs.map fun z => z.n).sum = cnt ∧ ∀ z ∈ full.srcs, z.left = 0
     let sent (r : FabReq) : FabAck := { dst := r.srcPkg, cmd := r.cmd, off := r.off, len := r.len, code := 0, data := [], tinfo := 0, addr := BitVec.ofNat 64 r.addr }
     s.args.req = some q → s.args.n ≤ 1 → q.port < 96 → (s.port q.port).part = some part → (s.part part).window q.window = some (va, cnt, fmt, blocks) → va ≤ q.addr →
     q.addr + q.data.length ≤ va + 256 * blocks → q.len = q.data.length → (q.addr - va) % 256 + q.len ≤ 256 →
     ((∃ z, known = some z ∧ q.addr ∈ z.parts) → exec .reductionDelivery s = .next s) ∧
     ((∀ z, known = some z → q.addr ∉ z.parts) →
       (b.done = true ∨ (known = none ∧ cnt < (b.srcs.map fun z => z.n).sum + 1) → exec .reductionDelivery s = .next (answer q 1 q.len [] 0 s)) ∧
       (b.done = false → known ≠ none ∨ (b.srcs.map fun z => z.n).sum + 1 ≤ cnt →
         (¬ gathered → exec .reductionDelivery s = .next (putBlock full s)) ∧
         (gathered → b.sums = [] → q.len = 4 → aperPlace (s.part part).faper base true true = some pa → (pa + 4 * here) % 4 = 0 →
           ∃ (u : State) (f : Flight), exec .reductionDelivery s = .next u ∧ u.ackOut = s.ackOut ∧ u.core.g = s.core.g ∧
             u.flights = s.flights ++ [f] ∧ f.sp = false ∧ f.part = some part ∧ f.acks = full.reqs.map sent ∧
             Spec.adds f fmt (pa + 4 * here) (leNat (q.data.map (·.1)))) ∧
         (gathered → aperPlace (s.part part).faper base true true = none → (s.part part).frqh.reg.toNat / 2 ^ 12 % 2 ^ 45 = 0 →
           ∃ u, exec .reductionDelivery s = .next u ∧ u.mem = s.mem ∧ u.core = s.core ∧ u.flights = s.flights ∧
             u.ackOut.map (fun z => (z.dst, z.cmd, z.off, z.code)) =
               s.ackOut.map (fun z => (z.dst, z.cmd, z.off, z.code)) ++ full.reqs.map fun r => (r.srcPkg, r.cmd, r.off, 3))))) ∧
    (s.args.ack = some a → s.link? a.cmd = some l →
      let n := if a.code ≠ 0 then (if a.len = 0 then l.frameAt a.off else a.len) else if l.op = .atomic then l.len else a.len
      let paid := { l with acked := l.acked + n, back := l.back ++ [a.off] }
      let s' := s.putLink paid
      (l.back.contains a.off = true →
        (l.dead = true ∨ l.settled s = false → exec .acknowledgement s = .next s) ∧
        (l.dead = false → l.settled s = true → exec .acknowledgement s = .next (endLink l s))) ∧
      (l.back.contains a.off = false → l.dead = false →
        (a.code ≠ 0 → a.code ≠ 3 → exec .acknowledgement s = .next (failLink a.code paid s')) ∧
        (a.code = 3 → exec .acknowledgement s = .next (failLink 3 paid (remotePerm a paid s'))) ∧
        (a.code = 0 → l.op = .put →
          (paid.acked < l.len → exec .acknowledgement s = .next s') ∧
          (paid.settled s' = true → exec .acknowledgement s = .next (endLink paid s'))) ∧
        (a.code = 0 → l.op = .get → l.lsp = false → l.core = s.core.id → l.pieces = [p] → a.off + a.data.length ≤ p.len →
          ∃ (u : State) (f : Flight), exec .acknowledgement s = .next u ∧ u.core = s.core ∧ u.mem = s.mem ∧
            u.links.map (fun z => { z with bits := [] }) = s'.links.map (fun z => { z with bits := [] }) ∧
            u.flights = s.flights ++ [f] ∧ f.sp = true ∧ f.core = l.core ∧ f.bytes = a.len ∧
            f.counts = (barOf l.target).toList.map (fun b => (l.core, b)) ∧ Spec.brings f (p.at' + a.off) a.data)) ∧
      (l.back.contains a.off = false → l.dead = true → a.code = 0 →
        (paid.acked < l.sent → exec .acknowledgement s = .next s') ∧
        (l.sent ≤ paid.acked → exec .acknowledgement s = .next (endLink paid s'))) ∧
      (l.back.contains a.off = false → l.dead = true → a.code ≠ 0 →
        let z := if a.code = 3 then remotePerm a paid s' else s'
        exec .acknowledgement s = .next (if l.sent ≤ paid.acked then endLink paid z else z))) ∧
    (s.link? s.args.n = some l →
      let route := if (s.port l.port).leads l.pkg then some l.port else otherPort s l.port l.pkg
      let later (u : State) : Prop := u.link? l.id = some { l with sends := l.sends + 1 } ∧ u.core = s.core ∧ u.mem = s.mem ∧
        u.timers = s.timers ++ [{ instr := .atomicResend, core := s.core.id, args := { n := l.id }, at' := s.pktime + 36000 }]
      (l.sends < 5 →
        (route = none → ∃ u, exec .atomicResend s = .next u ∧ later u ∧ u.fabOut = s.fabOut) ∧
        (route = some m → circuitOpen s (s.port m) l.pkg l.payload = true → ∃ u, exec .atomicResend s = .next u ∧ later u ∧
          u.fabOut = s.fabOut ++ [{ frameOf l 0 l.len [] (s.focus l.core) with port := m }]) ∧
        (route = some m → circuitOpen s (s.port m) l.pkg l.payload = false → exec .atomicResend s = stall s)) ∧
      (5 ≤ l.sends → exec .atomicResend s = .next (failLinkAs false 0x0B l (s.recordHv
        { code := 0x0C4, tval := BitVec.ofNat 64 l.port, tval2 := 1, tinfo := s.deckleInfo l.port } l.asid l.part))))

/-- O52. Ports, packages, pod time and packets (R398 to R402, R409, R415, R416, R420 to R423). A replayed flit changes nothing. A port that
loses data fails what was outstanding with one record; one that goes down clears its state, forgets the messages that it had begun, and raises
its interrupt; a bound one that trains comes up, starts pod time and, in a pod, learns its package's number (log 80). A lost package's results
leave the replay cache. Pod time takes no step backward, steers to the master's and goes out by every port that works once in 1 ms, by a circuit
port outside its slots (log 51). A circuit slot opens when pod time reaches it. The bytes of a packet that arrives leave to be written
once, and it is acknowledged behind the last word; one of no peer entry drops, and one of a refused request is refused. An acknowledged request
completes; a packet that a bitmap shows missing is sent again, by its peer's port; an unacknowledged packet is sent again when its timer runs
out, and after 8 resends the peer is lost. Covers flitReplay, lossBeyondReplay, lnkDown, linkTraining,
packageLost, timeMessage, circuitSlotStart, packetPlacement, selectiveAck, retransmitTimeout. -/
def Obligations.LinkAndNetSteps : Prop :=
  ∀ (k : NetPacket) (p : Piece) (l : LinkCmd) (r : NetReq) (y : Pkt) (m stop g h : Nat) (s : State), Memory.wf s.mem = true →
    let n := s.args.n
    let whole (lost : FabReq → Prop) : Prop := ∀ c ∈ s.allCores, ∀ q ∈ c.msgs, q.total ≤ q.data.length ∨ ¬ lost q
    (n < 96 →
      let t := s.port n
      let raised (u : State) : State := { u with todo := u.todo ++ [{ instr := .intExt, args := { n := 0x400 + n } }] }
      let lost := s.links.filter fun x => decide (x.port = n ∧ x.acked < x.sent) && decide (x.op ≠ .poison)
      let up (u : State) : State :=
        { raised (({ u with podRuns := true } : State).putPort n { t with isUp := true }) with
          timers := u.timers ++ [{ instr := .timeMessage, args := { n := n, m := 1 }, at' := u.pktime + 2250000 }] }
      (s.args.list = [] → exec .flitReplay s = .next s) ∧
      (s.args.list = [] → lost = [] → exec .lossBeyondReplay s = .next s) ∧
      (s.args.list = [] → lost = [l] →
        let v := loseLink l s
        exec .lossBeyondReplay s = .next (v.recordHv
          { code := 0x0C4, tval := BitVec.ofNat 64 n, tval2 := 1, tinfo := v.deckleInfo n } 0 ((v.port n).part.getD 0))) ∧
      (s.args.list = [] → (∀ x ∈ s.links, x.port ≠ n) → whole (fun q => q.port = n) → exec .lnkDown s = .next (raised ((s.putPort n { t with isUp := false, openSlot := none }).recordHv
        { code := 0x0C5, tval := BitVec.ofNat 64 n, tinfo := s.deckleInfo n } 0 (t.part.getD 0)))) ∧
      (s.args.list = [] → (∀ x ∈ s.links, x.port ≠ n) → ∃ u, exec .lnkDown s = .next u ∧
        u.core.msgs = s.core.msgs.filter fun q => decide (q.total ≤ q.data.length ∨ q.port ≠ n)) ∧
      (t.mode = 0 ∨ s.boot.isUp = false → exec .linkTraining s = .next s) ∧
      (t.mode ≠ 0 → s.boot.isUp = true → s.args.list = [] → exec .linkTraining s = .next (up s)) ∧
      (t.mode ≠ 0 → s.boot.isUp = true → s.args.list = [g] → s.inPod = false → exec .linkTraining s = .next (up { s with inPod := true, pkg := g % 2048 })) ∧
      (t.mode = 2 → t.isUp = true → t.en = true → s.podGood = true → slotAt t s.podtime = some (m, stop) →
        (t.openSlot ≠ some m → exec .circuitSlotStart s = .next (s.putPort n { t with openSlot := some m })) ∧
        (t.openSlot = some m → exec .circuitSlotStart s = stall s))) ∧
    (n < 2048 → (∀ x ∈ s.links, x.pkg ≠ n) → (∀ w ∈ s.dir, ∀ a ∈ w.away, a.2 ≠ n) → whole (fun q => q.srcPkg = n) → exec .packageLost s = .next
      { s with lost := numAdd s.lost n, replay := s.replay.filter fun x => decide (x.1 ≠ n) }) ∧
    (s.args.m ≠ 1 → exec .timeMessage s = .next (if s.master then s
      else { s with podtime := if s.podtime ≤ s.args.w.toNat then s.args.w.toNat else s.podtime, podSync := s.args.flag })) ∧
    (s.args.m = 1 → (s.port n).isUp = true → (∀ d ∈ s.timers, ¬ (d.instr = .timeMessage ∧ d.args.n = n)) →
      let p := s.port n
      (p.mode = 1 ∨ (p.mode = 2 ∧ p.en = true ∧ s.podGood = true ∧ slotAt p s.podtime = none) → exec .timeMessage s = .next { s with
        timeOut := s.timeOut ++ [(n, s.podtime)],
        timers := s.timers ++ [{ instr := .timeMessage, args := { n := n, m := 1 }, at' := s.pktime + 2250000 }] }) ∧
      ((p.mode ≠ 1 ∧ p.mode ≠ 2) ∨ (p.mode = 2 ∧ (p.en = false ∨ s.podGood = false ∨ ∃ z, slotAt p s.podtime = some z)) →
        exec .timeMessage s = stall s)) ∧
    (s.args.pkt = some k → k.part < 64 →
      let x := s.rx k.part k.peer
      let sack (x : PeerRx) (bad : List Nat) : NetSack := { part := k.part, peer := k.peer, held := x.held, refused := bad }
      let place := placeAll (fun va => aperPlace (s.part k.part).naper va false true) (pages (k.bytes.length / 4096 + 2) k.addr k.bytes.length)
      let flying : Prop := ∃ f ∈ s.flights, ∃ d ∈ f.after, d.args.pkt = some k
      let first : Prop := s.args.flag = false ∧ k.known s = true
      (s.args.flag = false → k.known s = false → exec .packetPlacement s = .next s) ∧
      (first → x.held.contains k.seq = true → exec .packetPlacement s = .next { s with sackOut := s.sackOut ++ [sack x []] }) ∧
      (first → x.held.contains k.seq = false → x.refused.contains k.req = true →
        exec .packetPlacement s = .next { s with sackOut := s.sackOut ++ [sack x [k.req]] }) ∧
      (first → x.held.contains k.seq = false → x.refused.contains k.req = false → x.placing.contains k.seq = true → exec .packetPlacement s = stall s) ∧
      (first → x.held.contains k.seq = false → x.refused.contains k.req = false → x.placing.contains k.seq = false → place = none →
        ∃ u, exec .packetPlacement s = .next u ∧ u.mem = s.mem ∧ u.core = s.core ∧ u.flights = s.flights ∧
          u.rx k.part k.peer = { x with refused := numAdd x.refused k.req } ∧ u.sackOut = s.sackOut ++ [sack x [k.req]]) ∧
      (first → x.held.contains k.seq = false → x.refused.contains k.req = false → x.placing.contains k.seq = false → place = some [p] → p.len = k.bytes.length →
        p.at' % 4096 + p.len ≤ 4096 → inDevice p.at' = true → (s.tileOf (p.at' / 4096)).inCache = true →
        ∃ (u : State) (f : Flight), exec .packetPlacement s = .next u ∧ u.mem = s.mem ∧ u.core = s.core ∧ u.sackOut = s.sackOut ∧
          (u.rx k.part k.peer).held = x.held ∧ (u.rx k.part k.peer).placing = numAdd x.placing k.seq ∧
          u.flights = s.flights ++ [f] ∧ f.sp = false ∧ f.part = some k.part ∧ Spec.brings f p.at' (plainLump k.bytes) ∧
          f.after = [{ instr := .packetPlacement, core := s.core.id, args := { pkt := some k, flag := true } }]) ∧
      (s.args.flag = true → x.placing.contains k.seq = true → ¬ flying → k.rce = false →
        ∃ u, exec .packetPlacement s = .next u ∧ u.mem = s.mem ∧ u.core = s.core ∧ (u.rx k.part k.peer).held = numAdd x.held k.seq ∧
          u.sackOut = s.sackOut ++ [{ sack x [] with held := numAdd x.held k.seq }])) ∧
    (s.args.p < 64 → s.nets.filter (fun r => decide (r.part = s.args.p ∧ r.peer = n)) = [r] → r.lce = false → r.doom = none →
      (∀ y ∈ r.pkts, y.acked = true ∨ (s.args.list.contains y.seq = true ∧ 0 < y.sends)) →
      exec .selectiveAck s = .next { s with nets := s.nets.filter fun x => decide (x.id ≠ r.id) }) ∧
    (s.args.p < 64 → s.nets.filter (fun r => decide (r.part = s.args.p ∧ r.peer = n)) = [r] → r.doom = none → s.args.m = 0 →
      r.pkts = [y] → y.acked = false → 0 < y.sends → y.sends < 9 → s.args.list = [h] → y.seq + 3 ≤ h →
      ∃ u, exec .selectiveAck s = .next u ∧ u.mem = s.mem ∧ u.core = s.core ∧
        u.netOut = s.netOut ++ ((s.part r.part).peer? r.peer).toList.map fun e => r.packet e { y with sends := y.sends + 1 }) ∧
    (s.net? n = some r → (r.pkts.find? fun y => decide (y.idx = s.args.m)) = some y →
      (y.acked = true ∨ y.sends ≠ s.args.p ∨ r.doom ≠ none → exec .retransmitTimeout s = .next s) ∧
      (y.acked = false → y.sends = s.args.p → r.doom = none →
        (9 ≤ y.sends → exec .retransmitTimeout s = .next (peerLost r s)) ∧
        (y.sends < 9 → ∃ u, exec .retransmitTimeout s = .next u ∧ u.mem = s.mem ∧ u.core = s.core ∧
          u.netOut = s.netOut ++ (((s.part r.part).peer? r.peer).toList.map fun e => r.packet e { y with sends := y.sends + 1 }) ∧
          u.timers = s.timers ++ [{ instr := .retransmitTimeout, args := { n := r.id, m := y.idx, p := y.sends + 1 }, at' := s.pktime + 45000 }])))

/-- O53. Slices, grace, saves, halts and stops (R326, R327, R331, R334, R339, R340, R435, R437). A slice that ends asks its running regions,
wakes their idle cores and holds what has not started; the next one's starts once every save of the partition that holds the cores has
completed, be it at the end of its slice or stopping (log 44); a slice that starts makes its saved regions due and is timed; a region that is
due resumes. Past the grace period a region is saved by force, at HV and FW it halts; its save completes once every unit is at rest. A halt
of a region that has not started completes it with the cause. A stopping partition whose saves are complete writes its word and is STOPPED.
Covers sliceEnd, sliceStart, graceEnd, forcedSaveComplete, regionHalt, stopComplete. -/
def Obligations.PreemptionSteps : Prop :=
  ∀ (r : Region) (pa : Nat) (forced : Bool) (s s2 : State), Spec.coherent s → Memory.wf s.mem = true →
    let n := s.args.n
    let p := s.part n
    (n < 64 →
      (p.holds = false ∨ p.sliceAt ≠ s.args.m ∨ p.st ≠ .sealed → exec .sliceEnd s = .next s) ∧
      (p.holds = true → p.sliceAt = s.args.m → p.st = .sealed → s.regions = [r] → r.part = n → r.state = .running → 2 ≤ r.level.toNat →
        ∃ u, exec .sliceEnd s = .next u ∧ u.part n = { p with ending := true } ∧ u.regions = [{ r with state := .requested s.clk }] ∧
          u.timers = s.timers ++ [{ instr := .graceEnd, args := { n := r.id, m := s.clk }, at' := s.pktime + 1125000 }] ∧ u.mem = s.mem ∧
          ∀ id ∈ s.held r, (u.coreAt id).run = match (s.coreAt id).run with | .idle _ => .running | z => z) ∧
      (p.holds = true → p.sliceAt = s.args.m → p.st = .sealed → s.regions = [r] → r.part = n → r.notStarted = true →
        exec .sliceEnd s = .next { (s.putPart n { p with ending := true }) with regions := [{ r with hold := true }] }) ∧
      (s.args.m ≠ 1 → p.st ≠ .sealed ∨ p.slice = 0 → exec .sliceStart s = stall s) ∧
      (s.args.m ≠ 1 → p.st = .sealed → p.slice ≠ 0 → ∀ m, (rotation s n).find? (fun m => (s.part m).holds) = some m → m ≠ n → m < 64 →
        ((s.part m).ending = false ∧ (s.part m).st ≠ .stopping) ∨ allSaved s m = false ∨ nextIn (rotation s n) m ≠ some n → exec .sliceStart s = stall s) ∧
      (s.args.m ≠ 1 → p.st = .sealed → p.slice ≠ 0 → ∀ m, (rotation s n).find? (fun m => (s.part m).holds) = some m → m ≠ n → m < 64 →
        ((s.part m).ending = true ∨ (s.part m).st = .stopping) → allSaved s m = true → nextIn (rotation s n) m = some n →
        ∃ u, exec .sliceStart s = .next u ∧ (u.part m).holds = false ∧ (u.part n).holds = true ∧ u.mem = s.mem ∧ u.core = s.core) ∧
      (s.args.m ≠ 1 → p.st = .sealed → p.slice ≠ 0 → (∀ m ∈ rotation s n, (s.part m).holds = false) → (rotation s n).head? = some n →
        ∃ u, exec .sliceStart s = .next u ∧ u.mem = s.mem ∧ u.core = s.core ∧
          (let slice := p.sliceDue.getD p.slice
           u.timers = if slice = 0 then s.timers else
             s.timers ++ [{ instr := .sliceEnd, args := { n := n, m := s.clk }, at' := s.pktime + slice * 2250 }]) ∧
          u.part n = { p with holds := true, ending := false, slice := p.sliceDue.getD p.slice, sliceDue := none, sliceAt := s.clk } ∧
          (∀ q ∈ s.regions, q.part = n → q.state = .saved forced → { q with hold := false, resumeDue := true } ∈ u.regions)) ∧
      (p.st ≠ .stopping ∨ allSaved s n = false → exec .stopComplete s = stall s) ∧
      (p.st = .stopping → allSaved s n = true → inDevice (s.poolPa n 0) = true →
        ∃ u, exec .stopComplete s = .next u ∧ (u.part n).st = .stopped ∧ u.mem.read (s.poolPa n 0) 8 = leBytes 8 (2 ^ 63 + n))) ∧
    (s.region? n = some r →
      (s.args.m = 1 → r.state = .saved forced →
        let due := r.resumeDue && s.partRuns r.part && coresFree s r && !(r.budget.any fun id => s.picked (s.coreAt id))
        exec .sliceStart s = if due then .next (resumeSaved r forced s) else stall s) ∧
      (r.state ≠ .requested s.args.m → exec .graceEnd s = .next s) ∧
      (r.state = .requested s.args.m → r.level.toNat < 2 → (∃ id ∈ s.held r, (s.coreAt id).runsRegion r = true) →
        exec .graceEnd s = .next { s with todo := s.todo ++ [{ instr := .regionHalt, args := { n := n, m := 0x020 } }] }) ∧
      (r.state = .requested s.args.m → 2 ≤ r.level.toNat → r.boundary = none → barrierReady s r = false → atBoundary' s r = false →
        ∃ u, exec .graceEnd s = .next u ∧ u.mem = s.mem ∧ (u.region? n).map (fun q => q.state) = some .saving ∧
          ∀ id ∈ s.held r, (u.coreAt id).run = .stopped ∧ (u.coreAt id).g = (s.coreAt id).g) ∧
      (r.state = .saving → atRest s r = false → exec .forcedSaveComplete s = stall s) ∧
      (r.state = .saving → atRest s r = true → (s.dropWindows r).takeArea r.part (areaMib r) none = (s2, some pa) →
        exec .forcedSaveComplete s = .next ((s2.forPart r.part fun s1 =>
          writeImages 1 r.part pa (s.atStop r) (writeRegionPart r 1 0 (streamWord r) pa s1)).giveUp r (s.atStop r) true pa)) ∧
      (r.state = .saving → atRest s r = true → (s.dropWindows r).takeArea r.part (areaMib r) none = (s2, none) →
        exec .forcedSaveComplete s = .next ((s2.putRegion { r with noDump := true }).haltRegion (some r.id) 0x14C)) ∧
      (s.regions = [r] → s.args.list = [] → r.notStarted = true → exec .regionHalt s = .next { s with
        regions := [{ r with state := .complete, status := s.args.m, count := 0 }],
        todo := s.todo ++ [{ instr := .completionRecord, args := { n := r.id } }] }))

/-- O54. The scan rotation and the clock plan (R33, R349 to R354, R447 to R449). A slot picks the core first in line, asks the tree of a
scheduled region that holds it (log 58) and is followed by the next 1.5 ms later; a swap that is not ready in time is withdrawn for the next
core; a drained core is swapped for the first spare, which takes its LCORE; at the end of a scan SSEQ rises, and the core has passed or is
retired for good. A clock plan is installed only where no scheduled region is under way, where it does not lower the clock under a running
region and where the power limit is met, and a limit raises its interrupt then. A margin below 10 mV, found while no core of the die holds a
region, asks firmware for a plan (log 59). Covers scanSlot, swapTimeout, swap, scanEnd, clockPlanInstall, ageingReport. -/
def Obligations.ScanSteps : Prop :=
  ∀ (p q since : Nat) (r : Region) (s : State), Spec.coherent s →
    let n := s.args.n
    let d := s.scan n
    let old := s.coreAt (132 * n + p)
    (n < 8 →
      (d.stopped = true → exec .scanSlot s = .next s) ∧
      (s.boot.isUp = false → exec .scanSlot s = .next s) ∧
      (s.boot.isUp = true → d.stopped = false → d.inScan ≠ none → exec .scanSlot s = stall s) ∧
      (s.boot.isUp = true → d.stopped = false → d.inScan = none → d.pick = none → (d.refused ++ exposed s n).eraseDups.head? = some p →
        old.region = some r.id → s.region? r.id = some r → r.scheduled = true → 2 ≤ r.level.toNat → s.tree r.root = [r] → r.live = true →
        ∃ u, exec .scanSlot s = .next u ∧ (u.region? r.id).map (fun z => z.scanReq) = some (numAdd r.scanReq n) ∧
          ∀ id ∈ s.held r, (u.coreAt id).run = match (s.coreAt id).run with | .idle _ => .running | z => z) ∧
      (s.boot.isUp = true → d.stopped = false → d.inScan = none → d.pick = none → (d.refused ++ exposed s n).eraseDups.head? = some p → old.region = none →
        ∃ u, exec .scanSlot s = .next u ∧ u.scan n = { d with pick := some (p, s.clk), tried := [p] } ∧ u.core = s.core ∧ u.mem = s.mem ∧
          u.timers = s.timers ++ [{ instr := .swapTimeout, args := { n := n, m := s.clk }, at' := s.pktime + 1125000 },
            { instr := .scanSlot, args := { n := n }, at' := s.pktime + 3375000 }]) ∧
      (s.args.list = [] → d.inScan = none → exec .scanEnd s = stall s) ∧
      (s.args.list = [] → d.inScan = some p → s.args.flag = false → s.awaits = [] → ∃ u, exec .scanEnd s = .next u ∧
        u.scan n = { d with inScan := none, sseq := d.sseq + 1, passed := p :: d.passed.erase p } ∧ u.core = s.core) ∧
      (s.args.list = [] → d.inScan = some p → s.args.flag = true → s.awaits = [] → ∃ u, exec .scanEnd s = .next u ∧
        (u.scan n).sseq = d.sseq + 1 ∧ (u.scan n).inScan = none ∧ (u.scan n).retired = numAdd d.retired p) ∧
      (s.args.list = [p] → (spares s n).contains p = true → s.args.flag = false → s.awaits = [] → ∃ u, exec .scanEnd s = .next u ∧
        u.scan n = { d with passed := p :: d.passed.erase p }) ∧
      ((∃ c ∈ s.allCores, c.die = n ∧ c.region ≠ none) → exec .ageingReport s = stall s) ∧
      ((∀ c ∈ s.allCores, c.die = n → c.region = none) → exec .ageingReport s = .next { s with
        margins := s.margins.setIfInBounds n s.args.margin, planAsk := s.planAsk || decide (s.args.margin < 10) })) ∧
    ((∀ x, d.pick = some x → x.2 ≠ s.args.m) → exec .swapTimeout s = .next s) ∧
    (d.pick = some (p, s.args.m) → old.region = none → (s.coreAt (132 * n + q)).region = none →
      let refused := if d.refused.contains p then d.refused else d.refused ++ [p]
      ((refused ++ exposed s n).eraseDups.find? fun x => !d.tried.contains x) = some q →
      ∃ u, exec .swapTimeout s = .next u ∧ u.core = s.core ∧
        u.scan n = { d with pick := some (q, s.clk), refused := refused, tried := d.tried ++ [q] }) ∧
    (d.pick = some (p, since) → (spares s n).head? = some q →
      (swapReady s old = false → exec .swap s = stall s) ∧
      (swapReady s old = true → old.region = none → old.wins = [] → p ≠ q → ∃ u, exec .swap s = .next u ∧ u.mem = s.mem ∧
        u.scan n = { d with pick := none, inScan := some p, refused := d.refused.erase p } ∧
        (u.coreAt (132 * n + q)).lcore = old.lcore ∧ (u.coreAt (132 * n + q)).spare = false ∧
        (u.coreAt (132 * n + p)).lcore = 0x7F ∧ (u.coreAt (132 * n + p)).spare = true)) ∧
    (let free (x : BitVec 16) : Prop := (∀ r ∈ s.regions, r.scheduled = true → r.state = .complete) ∧
       ((∃ r ∈ s.regions, r.live = true) → Config.planRate s.plan.toNat ≤ Config.planRate x.toNat) ∧
       (∀ w, s.limit = some w → Config.planPower x.toNat ≤ w)
     let put (x : BitVec 16) : State := { s with
       plan := x, planDue := none, planAsk := false, limitDue := false,
       todo := s.todo ++ if s.limitDue then [{ instr := .intExt, args := { n := 0x470 } }] else [] }
     (s.boot.isUp = false → exec .clockPlanInstall s = .next s) ∧
     (s.boot.isUp = true → 0 < n → n < 2 ^ 16 →
       (free (BitVec.ofNat 16 n) → exec .clockPlanInstall s = .next (put (BitVec.ofNat 16 n))) ∧
       (¬ free (BitVec.ofNat 16 n) → exec .clockPlanInstall s = .next { s with planDue := some (BitVec.ofNat 16 n) })) ∧
     (s.boot.isUp = true → n = 0 →
       (s.planDue = none → exec .clockPlanInstall s = stall s) ∧
       (∀ x, s.planDue = some x → ¬ free x → exec .clockPlanInstall s = stall s) ∧
       (∀ x, s.planDue = some x → free x → exec .clockPlanInstall s = .next (put x))))

/-- O55. What the host and the management controller do (R369 to R371, R438, R444 to R449). A host access inside an entry of a running
interface reads or writes device memory; any other is answered with an error. A snoop takes the dirty line away. An interface moves
as its states allow, and its table is written while it is unlocked. The responder answers each SPDM request in its order. A reset boots
the image of the inactive bank where its signature checks and its version is not below the fuse, which rises, and raises 0x470; a package that
boots keeps host memory alone, retired cores and the fuses; one that does not stays in step 1, and answers only identity and status
(log 59). The power of 18 dies and the package and the temperatures are what the sensors show of a ms (log 59). Covers hostMemAccess, hostSnoop,
tdispMessage, hostLinkDown, getVersion, getCapabilities, negotiateAlgorithms, getDigests, getCertificate, challenge, getMeasurements,
keyExchange, finish, firmwareUpdate, packageReset, thermalTrip, managementRequest. -/
def Obligations.HostSteps : Prop :=
  ∀ (h : HostAccess) (e : Nat × Nat × Bool × Bool × Nat) (s : State), Memory.wf s.mem = true →
    let n := s.args.n
    let i := s.iface h.iface
    let size := if h.write then h.bytes.length else h.size
    let d := s.spdm
    let tells (x : Spdm) (a : SpdmReply) : Host.Outcome State Fault Refusal := .next { s with spdm := x, spdmOut := s.spdmOut ++ [a] }
    let chain := sha512 (leBytes 4096 (Config.certificate 0))
    (s.args.host = some h → s.mem.dark = true ∨ s.boot.isUp = false → exec .hostMemAccess s = .next s) ∧
    (s.args.host = some h → s.mem.dark = false → s.boot.isUp = true →
      (i.st ≠ .run ∨ i.entry h.addr size = none → exec .hostMemAccess s = .next { s with
        hostOut := s.hostOut ++ [{ iface := h.iface, write := h.write, bytes := [], poison := !h.write, error := true }] }) ∧
      (i.st = .run → i.entry h.addr size = some e → 0 < size → h.addr % 4096 + size ≤ 4096 → (s.tileOf (h.addr / 4096)).inCache = true →
        (h.write = false → e.2.2.1 = true → exec .hostMemAccess s = .next { s with hostOut := s.hostOut ++
          [{ iface := h.iface, write := false, bytes := s.mem.read h.addr size, poison := s.mem.anyPoison h.addr size, error := false }] }) ∧
        (h.write = true → e.2.2.2.1 = true → ∃ u, exec .hostMemAccess s = .next u ∧ u.mem.read h.addr size = h.bytes ∧
          u.mem.full = s.mem.full ∧ u.wakes = s.wakes ∧ (∀ z, (z < h.addr ∨ h.addr + size ≤ z) → cellGet u.mem.bytes z = cellGet s.mem.bytes z) ∧
          u.hostOut = s.hostOut ++ [{ iface := h.iface, write := true, bytes := [], poison := false, error := false }]))) ∧
    (inHost n = true → s.mem.dark = false →
      (s.args.bytes = [] → exec .hostSnoop s = .next { s with hostDirty := s.hostDirty.filter fun x => decide (x.1 ≠ n / 64) }) ∧
      (s.args.bytes ≠ [] → ∃ u, exec .hostSnoop s = .next u ∧ u.mem.read n s.args.bytes.length = s.args.bytes ∧
        ∀ x ∈ u.hostDirty, ¬ (n / 64 ≤ x.1 ∧ x.1 ≤ (n + s.args.bytes.length - 1) / 64))) ∧
    (let j := s.iface n
     let t := tableOf s.args.list
     (s.boot.isUp = false → exec .tdispMessage s = .next s) ∧
     (s.boot.isUp = true → s.args.flag = false → tdispMove j.st s.args.tdisp = true → exec .tdispMessage s = .next (s.putIface n { j with st := s.args.tdisp })) ∧
     (s.args.flag = false → tdispMove j.st s.args.tdisp = false → exec .tdispMessage s = .next s) ∧
     (s.args.flag = true → j.st ≠ .configUnlocked → exec .tdispMessage s = .next s) ∧
     (s.boot.isUp = true → s.args.flag = true → j.st = .configUnlocked → t.length ≤ 16 →
       (∀ e ∈ t, e.1 < e.2.1 ∧ inDevice e.1 = true ∧ inDevice (e.2.1 - 1) = true) →
       exec .tdispMessage s = .next (s.putIface n { j with table := t }))) ∧
    (s.args.flag = true → exec .hostLinkDown s = .next { s with mem := { s.mem with dark := false } }) ∧
    (s.args.flag = false → s.mem.dark = true → exec .hostLinkDown s = .next s) ∧
    (s.args.flag = false → s.mem.dark = false → s.hostDirty = [] → exec .hostLinkDown s = .next { s with
      mem := { s.mem with dark := true }, todo := s.todo ++ [{ instr := .intExt, args := { n := 0x471 } }] }) ∧
    (s.boot.isUp = true →
      exec .getVersion s = tells { nextSession := d.nextSession, version := true } (.version 0x13) ∧
      exec .getCapabilities s = (if d.version then tells { d with capabilities := true } .capabilities else tells d .error) ∧
      exec .negotiateAlgorithms s =
        (if d.capabilities = true ∧ s.args.flag = true then tells { d with algorithms := true } (.algorithms 25519 512) else tells d .error) ∧
      (d.algorithms = false → ∀ i ∈ [Instr.getDigests, .getCertificate, .challenge, .getMeasurements, .keyExchange, .finish],
        exec i s = tells d .error) ∧
      (d.algorithms = true →
        exec .getDigests s = tells d (.digests [chain]) ∧
        exec .getCertificate s = (if n = 0 then tells d (.certificate 0 (Config.certificate 0)) else tells d .error) ∧
        exec .challenge s = tells d (.challengeAuth s.args.w (Config.sign (sha512 (leBytes 64 s.args.w.toNat ++ leBytes 64 chain)))) ∧
        (n = 2 → exec .getMeasurements s = tells d (.measurements [(2, s.plan.toNat)]
          (Config.sign (sha512 (leBytes 64 s.args.w.toNat ++ leBytes 64 2 ++ leBytes 64 s.plan.toNat))))) ∧
        exec .keyExchange s = tells { d with sessions := d.sessions ++ [(d.nextSession, false)], nextSession := d.nextSession + 1 }
          (.keyExchange d.nextSession (Config.sign (sha512 (leBytes 64 s.args.w.toNat ++ leBytes 64 d.nextSession)))) ∧
        (d.sessions = [(n, false)] → exec .finish s = tells { d with sessions := [(n, true)] } (.finish n)) ∧
        ((∀ x ∈ d.sessions, x ≠ (n, false)) → exec .finish s = tells d .error))) ∧
    exec .firmwareUpdate s = .next { s with boot := { s.boot with inactive := some (s.args.bytes, n, s.args.flag) } } ∧
    (∀ i cause, (i = .packageReset ∧ cause = s.args.cause) ∨ (i = .thermalTrip ∧ cause = .thermalTrip) →
      ∃ u, exec i s = .next u ∧ u.regions = [] ∧ u.tasks = [] ∧ u.parts = State.reset.parts ∧
        (s.boot.inactive = none → u.boot = { s.boot with cause := cause, resets := s.boot.resets + 1 } ∧ u.todo = []) ∧
        (∀ image version good, s.boot.inactive = some (image, version, good) →
          (good = true → s.boot.fuse ≤ version →
            u.boot = {
              isUp := true, digest := sha512 image, version := version, fuse := max s.boot.fuse version, cause := cause,
              resets := s.boot.resets + 1 } ∧ u.todo = [{ instr := .intExt, args := { n := 0x470 } }]) ∧
          (good = false ∨ version < s.boot.fuse →
            u.boot = { s.boot with isUp := false, inactive := none, cause := cause, resets := s.boot.resets + 1 } ∧ u.todo = [])) ∧
        (u.boot.isUp = false → u.mem = { s.mem with dark := true } ∧ u.plan = s.plan ∧ u.timers = []) ∧
        (u.boot.isUp = true → u.plan = s.planDue.getD s.plan ∧ u.mem.full = [] ∧ u.mem.dark = false ∧ Memory.wf u.mem = true ∧
          ∀ z, cellGet u.mem.bytes z = if inHost z then cellGet s.mem.bytes z else unlisted)) ∧
    (s.boot.isUp = false → 2 ≤ n → exec .managementRequest s = .next s) ∧
    (let told (a : MgmtReply) : Host.Outcome State Fault Refusal := .next { s with mgmtOut := s.mgmtOut ++ [a] }
     let shows (i : Nat) : Nat := Config.sensor s.boot.resets (s.pktime / 2250000) i
     (n = 0 → exec .managementRequest s = told (.identity s.boot.digest s.boot.version)) ∧
     (n = 1 → exec .managementRequest s = told (.status s.boot.isUp)) ∧
     (s.boot.isUp = true →
       (n = 2 → exec .managementRequest s = told (.power ((List.range 19).map shows))) ∧
       (n = 3 → exec .managementRequest s = told (.temperature ((List.range 18).map fun i => shows (32 + i)))) ∧
       (n = 4 → exec .managementRequest s = told (.ageing s.margins.toList)) ∧
       (n = 6 → exec .managementRequest s = told (.resetCause s.boot.cause)) ∧
       (n = 7 → exec .managementRequest s = .next { s with limit := some s.args.m, limitDue := true, planAsk := true })))

/-- O56. DECODING IS RIGHT on a few words written out from the opcode map (R38, R41, R60 to R68): an end bit does not matter, a reserved
field or opcode is refused by name, and the worked encodings of R264 decode as the spec traces them. -/
def Obligations.DecodesWords : Prop :=
  (∀ w : SlotWord, decodeSlot (w ||| 0x80000000) = decodeSlot (w &&& 0x7FFFFFFF)) ∧
  decodeSlot 0x80000000 = .ok .nop ∧
  decodeSlot (0#1 ++ 0#3 ++ 0x01#7 ++ 5#6 ++ 6#6 ++ 7#6 ++ 0#3) = .ok (.add 5 6 7) ∧
  decodeSlot (0#1 ++ 0#3 ++ 0x20#7 ++ 5#6 ++ 6#6 ++ 0x1FF#9) = .ok (.addi 5 6 (-1)) ∧
  decodeSlot (0#1 ++ 0#3 ++ 0x42#7 ++ 0#6 ++ 0x1234#15) = .ok (.trap 0x1234) ∧
  decodeSlot (0#1 ++ 2#3 ++ 0x50#7 ++ 9#6 ++ 0x7FFF#15) = .ok (.vmovi 9 0x7FFF) ∧
  decodeSlot 0xB0011050 = .ok (.mma 2 8 10) ∧
  decodeSlot (0#1 ++ 3#3 ++ 0x02#7 ++ 3#6 ++ 0#15) = .ok (.mzero 3) ∧
  decodeSlot (0#1 ++ 0#3 ++ 0x01#7 ++ 5#6 ++ 6#6 ++ 7#6 ++ 1#3) = .error .reservedX ∧
  decodeSlot (0#1 ++ 0#3 ++ 0#7 ++ 1#6 ++ 0#15) = .error .reservedField ∧
  (∀ w : SlotWord, 5 ≤ (w.toNat / 2 ^ 28 % 8) → ∀ i, decodeSlot w ≠ .ok i)

/-- O57. DECODE AND ENCODE AGREE. Every well-formed instruction that has a word decodes back from it with every operand, whatever its end
bit, as itself or as the row whose word it shares; an instruction whose operands an encoding does not admit is never decoded; and
encoding what a word decodes to gives that word without its end bit. -/
def Obligations.DecodeEncodeAgree : Prop :=
  (∀ (i : Instr) (w : SlotWord), WellFormed i = true → encode i = some w →
    decodeSlot w = .ok (wordRow i) ∧ decodeSlot (w ||| 0x80000000) = .ok (wordRow i) ∧
      decodeTableWord 32 w.toNat = some (wordRow i) ∧ decodeBytes (bytesOfWord w) = .ok (wordRow i, [])) ∧
  (∀ (w : SlotWord) (i : Instr), decodeSlot w = .ok i →
    WellFormed i = true ∧ wordRow i = i ∧ encode i = some (w &&& 0x7FFFFFFF))

namespace Sys2Proof.Spec

open Sys2Proof Sys2Proof.Machine

/-- The state in which the one slot of a bundle executes: its core knows its slot, and the bundle behind it. -/
def atOneSlot (s : State) (i : Instr) : State :=
  let c : Core := { s.core with curLen := 1, early := [], earlyK := [], olds := [], mine := [], mark := .ok }
  { s with core := { c.armSplit [i] with next := s.core.pc + 4, curSlot := 0, mark := .ok } }

/-- The slots of a bundle, up to its E bit or the eighth, stand in memory behind the bundle address, whole and in reach, in tiles that the
last-level cache holds, and no bucket bounds the fetch (R42, R219, R233). -/
def fetches (s : State) (ws : List SlotWord) : Prop :=
  s.core.pc.toNat % 4 = 0 ∧ (∀ b ∈ s.buckets, b.ctx ≠ s.core.asid) ∧ ws ≠ [] ∧ ws.length ≤ 8 ∧
  (∀ (j : Nat) (w : SlotWord), ws[j]? = some w → (w.getLsbD 31 = true → j + 1 = ws.length) ∧ ∃ pa,
    s.core.pc.toNat + 4 * j < 2 ^ 57 ∧ s.translate (s.core.pc.toNat + 4 * j) false false true = .ok pa ∧
    s.mem.read pa 4 = bytesOfWord w ∧ s.mem.poisoned pa = false ∧ (inDevice pa = true → (s.tileOf (pa / 4096)).inCache = true)) ∧
  (ws.length < 8 → ∃ w, ws.getLast? = some w ∧ w.getLsbD 31 = true)

/-- Slot n of a bundle offends a rule of R44 other than the reserved encoding: order, count, length, duplicate destination, accumulator, result
queue or port. -/
def offends (us : List Use) (ended : Bool) (n : Nat) (u : Use) : Prop :=
  let other (p : Use → Prop) : Prop := ∃ (m : Nat) (v : Use), m ≠ n ∧ us[m]? = some v ∧ p v
  let crowds (limit : Nat) (f : Use → Nat) : Prop := f u ≠ 0 ∧ limit < ((us.take (n + 1)).map f).sum
  let most := match u.unit with | .s | .m => 1 | .step => 0 | .a | .v | .c => 2
  (∃ (m : Nat) (v : Use), m + 1 = n ∧ us[m]? = some v ∧ u.unit.code < v.unit.code) ∨
  most ≤ ((us.take n).filter fun v => decide (v.unit = u.unit)).length ∨
  ended = false ∨
  other (fun v => (∃ r ∈ u.gw, r ≠ 0 ∧ r ∈ v.gw) ∨ (∃ r ∈ u.vw, r ∈ v.vw) ∨ (∃ r ∈ u.kw, r ≠ 0 ∧ r ∈ v.kw) ∨ (∃ r ∈ u.lvl, r ∈ v.lvl)) ∨
  other (fun v => ∃ r ∈ u.acc, r ∈ v.acc) ∨ other (fun v => ∃ r ∈ u.rq, r ∈ v.rq) ∨
  crowds 6 (fun v => v.gr.length) ∨ crowds 3 (fun v => v.gw.length) ∨ crowds 6 (fun v => v.vr.length) ∨ crowds 3 (fun v => v.vw.length)

/-- The special register that a slot reads or writes. -/
def registerIn (i : Instr) : Option Nat :=
  match i with
  | .rdsr _ n | .wrsr _ n => some n.toNat
  | .bankFormatRegister _ n => some (0x800 + n.toNat)
  | .frqs _ => some 0x050
  | .frqh _ => some 0x051
  | .sgbase _ => some 0x185
  | .launch _ => some 0x187
  | .genraise _ => some 0x205
  | .s2genraise _ => some 0x20A
  | .featack0 _ => some 0x304
  | .rgnctlQuery _ => some 0x30B
  | _ => none

/-- A slot uses an opcode, or a register that the core has, above its least privileged level (R37, R70, R90), or XINJ where the partition may
not inject (R94). -/
def tooHigh (s : State) (i : Instr) : Prop :=
  (match i with
    | .rft => 2 < s.core.level.toNat
    | .accFlip _ _ => 1 < s.core.level.toNat ∨ (s.part s.core.part).inj = false
    | .ptbindCores _ _ | .ptquotaSlice _ _ | .ptsealSeal _ => 1 < s.core.level.toNat
    | _ => False) ∨
  ∃ n use wl, registerIn i = some n ∧ srRow n = some (use, wl) ∧ srHere s n ∧ use < s.core.level.toNat

/-- A slot's engine is absent (R71, R173, R428): the partition lacks it, the region's effective engines leave it out, or firmware has not accepted
the feature it needs: 0 for windows, 1 or 2 for links, 3 too for a reduction, 4 for the network (log 39, log 64). -/
def noEngine (s : State) (i : Instr) : Prop :=
  let lacks (n : Nat) : Prop := s.featack.getLsbD n = false
  let kind : Option Nat := if isLink i then some 3 else if isNet i then some 4 else match (use i).unit with
    | .v => some 0
    | .m => some 1
    | .c => some 2
    | _ => none
  (∃ n, kind = some n ∧ ((∃ e, (s.part s.core.part).engines = some e ∧ e.getLsbD n = false) ∨
    (∃ r, s.myRegion = some r ∧ r.engines / 2 ^ n % 2 = 0))) ∨
  (match i with
    | .wdecl _ _ _ | .wdrop _ | .acqt _ _ | .relt _ _ | .tfetch _ _ => lacks 0
    | .lnkRed _ _ => (lacks 1 ∧ lacks 2) ∨ lacks 3
    | _ => (isLink i = true ∧ lacks 1 ∧ lacks 2) ∨ (isNet i = true ∧ lacks 4))

/-- The first number with a property. -/
def firstOf (p : Nat → Prop) (n : Nat) : Prop := p n ∧ ∀ m, m < n → ¬ p m

/-- The tests of a fetched bundle, in the order of R71: a reserved encoding, a rule of R44, a level, an engine. The bundle takes a precise trap at
its own address, TMASK marks each slot that fails, and TVAL is the lowest one's word (R46) or register number (R90). -/
def BundleChecks : Prop :=
  ∀ (s : State) (ws : List SlotWord), fetches s ws →
    let ended := (ws.getLast?.map fun w => w.getLsbD 31).getD false
    let is := ws.map fun w => match decodeSlot w with | .ok i => i | .error _ => .nop
    let bad (n : Nat) : Prop := ∃ (w : SlotWord) (e : Illegal), ws[n]? = some w ∧ decodeSlot w = .error e
    let off (n : Nat) : Prop := ∃ u, (is.map use)[n]? = some u ∧ offends (is.map use) ended n u
    let high (n : Nat) : Prop := ∃ i, is[n]? = some i ∧ tooHigh s i
    let away (n : Nat) : Prop := ∃ i, is[n]? = some i ∧ noEngine s i
    let traps (code : Nat) (tval tval2 : Word) (p : Nat → Prop) : Prop := ∃ t : Trap, issue s = .next (takeTrap t s) ∧
      t.code = code ∧ t.prec = true ∧ t.tpc = s.core.pc ∧ t.tval = tval ∧ t.tval2 = tval2 ∧ ∀ n, t.tmask.getLsbD n = true ↔ p n
    (∀ (n : Nat) (w : SlotWord), firstOf bad n → ws[n]? = some w → traps 0x001 (w.setWidth 64) (BitVec.ofNat 64 ws.length) bad) ∧
    ((∀ n, ¬ bad n) →
      (∀ (n : Nat) (w : SlotWord), firstOf off n → ws[n]? = some w → traps 0x002 (w.setWidth 64) (BitVec.ofNat 64 ws.length) off) ∧
      ((∀ n, ¬ off n) →
        (∀ (n : Nat) (i : Instr), firstOf high n → is[n]? = some i → traps 0x003 (BitVec.ofNat 64 ((registerIn i).getD 0)) 0 high) ∧
        ((∀ n, ¬ high n) → (∃ n, away n) → traps 0x004 0 0 away)))

/-- The bundle address holds one legal slot alone, which decodes to an instruction that nothing holds back (R42 to R49, R71). -/
def holdsAlone (s : State) (w : SlotWord) (i : Instr) : Prop :=
  fetches s [w] ∧ decodeSlot w = .ok i ∧ ¬ offends [use i] true 0 (use i) ∧ ¬ tooHigh s i ∧ ¬ noEngine s i ∧ heldBack s.core [i] = false

/-- No unit can act but one. -/
def onlyAct (s : State) (a : Act) : Prop := s.boot.isUp = true ∧ s.core.mark = .ok ∧ able s (firstActs s) = [] ∧ otherActs s = [a]

end Sys2Proof.Spec

/-- O58. A STEP RUNS THE DECODED INSTRUCTION (R37, R42, R44 to R54, R70, R71, R85, R90). With one legal slot at the bundle address of a core that alone
may act, a step is exec of the instruction that its word decodes to, and then the commit: the loop-end test selects the next bundle,
one bundle more counts, and time passes; the tile of a
synchronising access has come in before; what traps, stalls or stops leaves the state before the bundle. A back slot enters its
engine's queue with the g and k values it takes along, a C slot with its context too, and a later step runs exec on it. A step of the package
runs exec on its core with its operands. A bundle with a reserved encoding, one that breaks a rule of R44, one above its level and one whose engine
is absent (log 39, log 64) take their traps in the order of R71, and none of their slots acts. -/
def Obligations.StepRunsTheBundle : Prop :=
  Spec.BundleChecks ∧
  ∀ (s t : State) (w : SlotWord) (i : Instr) (f : Fault) (x : Trap) (q : QSlot) (l : List QSlot) (r : List (List QSlot)) (d : Due),
    let s0 := touchSync i s
    let a := Spec.atOneSlot s0 i
    (Spec.holdsAlone s w i → (use i).unit.code ≤ 1 → (isTransfer i && s.core.loops.endsAt s.core.pc) = false →
      (exec (rowOf a i) a = .next t → t.core.mark = .ok →
        issue s = .next (commit t) ∧
        (Spec.onlyAct s (.issue s.core.id) → step s = .next (tick 0 (commit t)))) ∧
      (exec (rowOf a i) a = .next t → t.core.mark = .stall → issue s = stall s0) ∧
      (exec (rowOf a i) a = .next t → t.core.mark = .trap x →
        issue s = .next (takeTrap (bundleMarks x) { s0 with
          core := { s0.core with curLen := 1, early := [], earlyK := [], olds := [], mine := [], mark := .ok, masplit := a.core.masplit } })) ∧
      (exec (rowOf a i) a = .fault f → issue s = .fault f ∧ (Spec.onlyAct s (.issue s.core.id) → step s = .fault f))) ∧
    (Spec.holdsAlone s w i → (use i).unit = .v ∨ (use i).unit = .c ∨ ((use i).unit = .m ∧ (63 : GReg) ∉ (use i).gr) →
      ((isLink i || isNet i) && s.inCompute) = false →
      let src := sources a.core i
      let queued := a.core.enqueue { instr := i, bundle := s.core.pc, slot := 0, seq := s.core.seq, gsrc := src.1, ksrc := src.2, ctx := if (use i).unit = .c then a.core.issued else [] }
      bankFault { a with core := { a.core with early := src.1 } } i = none → neverServed queued = none → s.core.wins = [] →
      issue s = .next (commit { a with core := queued }) ∧
      (Spec.onlyAct s (.issue s.core.id) → step s = .next (tick 0 (commit { a with core := queued })))) ∧
    (let e : State := { s with core := (s.core.enter q).under q.ctx }
     let left : Core := t.core.leave.underOf s.core
     exec (rowOf e q.instr) e = .next t → t.core.mark = .ok →
      (s.core.veq = (q :: l) :: r → stepV s = .next { t with core := Core.doneV left } ∧
        (Spec.onlyAct s (.back s.core.id 0) → step s = .next (tick 0 { t with core := Core.doneV left }))) ∧
      (s.core.meq = q :: l → stepM s = .next { t with core := { left with meq := l } }) ∧
      (s.core.ceq = (q :: l) :: r → stepC s = .next { t with core := Core.doneC left })) ∧
    (Spec.onlyAct s (.own d) → d.core = s.core.id → exec d.instr { s with args := d.args } = .next t → t.core.mark ≠ .stall →
      step s = .next (tick 0 t))

/-- O59. What reset leaves, as the spec gives it (R30, R31, R33, R34, R119, R144, R176, R211, R220, R235, R246, R260, R307 to R312, R367, R427 to
R429): every core has its registers, accumulators, result queues, queues, trap banks, bank formats and special registers at the values of their
tables, at LEVEL 0 with PHYS and LCORE of its place, all 64 partitions are FREE, package time is 0, no feature is accepted; and the memory is in
canonical form. -/
def Obligations.ResetState : Prop :=
  (∀ id, let c := Core.atReset id
    c.g = Vector.replicate 64 0 ∧ c.v = Vector.replicate 64 0 ∧ c.k = Vector.replicate 16 0 ∧ c.level = 0 ∧ c.loops = {} ∧
    c.laq = [] ∧ c.sldq = [] ∧ c.vldq = [] ∧ c.ssdq = [] ∧ c.vsdq = [] ∧ c.veq = [] ∧ c.meq = [] ∧ c.ceq = [] ∧
    c.febudget = 0x100 ∧ c.masplit = 0 ∧ c.stepclk = 0 ∧ c.dlreg = 0 ∧ c.stepno = 0 ∧ c.taskid = 0 ∧ c.heapbase = 0 ∧ c.heaplim = 0 ∧
    c.heapoff = 0 ∧ c.ptroot = 0 ∧ c.s2root = 0 ∧ c.keysel = 0 ∧ c.vstat = 0x40000 ∧ c.mxstat = 0 ∧ c.acc = Vector.replicate 16 0 ∧ c.accSat = 0 ∧
    c.accPois = 0 ∧ c.rq = Vector.replicate 8 [] ∧ c.rqhdr = Vector.replicate 8 0 ∧ c.bf = Vector.replicate 384 0 ∧ c.pkbase = 0 ∧ c.sgbase = 0 ∧
    c.pfqbase = 0 ∧ c.rgnsel = 0 ∧ c.ptres = 0 ∧ c.banks = Vector.replicate 3 {} ∧ (∀ b ∈ c.banks.toList, b.tcause = 0 ∧ b.tvec = 0 ∧ b.tstate = 0) ∧
    (id < 1056 → c.id = id ∧ c.phys = id % 132 ∧ c.die = id / 132 ∧ (id % 132 < 128 → c.lcore = id % 132 ∧ c.spare = false) ∧
      (128 ≤ id % 132 → c.lcore = 0x7F ∧ c.spare = true))) ∧
  (∀ n, (State.reset.part n).st = .free) ∧ State.reset.core = Core.atReset 0 ∧ State.reset.others = [] ∧ State.reset.pktime = 0 ∧
  State.reset.featack = 0 ∧ State.reset.featSet = false ∧ Memory.wf State.reset.mem = true ∧ Memory.wf State.reset.core.spad = true

namespace Sys2Proof.Spec

open Sys2Proof Sys2Proof.Machine

/-- Every store of the package is in canonical form: addresses strictly rise and no listed byte is the unlisted one, in memory, in every
scratchpad and in every image kept of one; and every core that the state lists stands under its own number. -/
def canonical (s : State) : Prop :=
  Memory.wf s.mem = true ∧ (∀ c ∈ s.allCores, Memory.wf c.spad = true) ∧
  (∀ r ∈ s.regions, ∀ x ∈ r.images, Memory.wf x.2.spad = true) ∧ coherent s

end Sys2Proof.Spec

/-- O60. Every step keeps memory canonical: whatever unit acts, memory, the scratchpads and the kept images stay in the one form that
equal memories share, and every core stays under its number. -/
def Obligations.StepKeepsMemory : Prop :=
  ∀ s s' : State, Spec.canonical s → step s = .next s' → Spec.canonical s'
end

