-- ==== Sys2Proof/Laws/Encoding.lean ====
section
/-!
SUPPORT. The fields of an encoded slot word come back as they went in: one lemma for a whole word, and one simp lemma per field form.
-/

namespace Sys2Proof.Laws

open Sys2Proof Sys2Proof.Forms

/-- A bit of a slot word, by the field it lies in. -/
theorem slot_getLsbD (u : BitVec 3) (op : BitVec 7) (d a b : BitVec 6) (x : BitVec 3) (i : Nat) :
    (slot u op d a b x).getLsbD i =
      if i < 3 then x.getLsbD i else if i < 9 then b.getLsbD (i - 3) else if i < 15 then a.getLsbD (i - 9)
      else if i < 21 then d.getLsbD (i - 15) else if i < 28 then op.getLsbD (i - 21) else u.getLsbD (i - 28) := by
  change @BitVec.getLsbD (1 + 3 + 7 + 6 + 6 + 6 + 3) (0#1 ++ u ++ op ++ d ++ a ++ b ++ x) i = _
  simp only [BitVec.getLsbD_append]
  grind

/-- The fields of a slot word are the ones it was made of. -/
theorem ofWord_slot (u : BitVec 3) (op : BitVec 7) (d a b : BitVec 6) (x : BitVec 3) :
    Fields.ofWord (slot u op d a b x) = ⟨u, op, d, a, b, x⟩ := by
  simp only [Fields.ofWord, Fields.mk.injEq]
  refine ⟨?_, ?_, ?_, ?_, ?_, ?_⟩ <;> ext i hi <;> simp only [BitVec.getElem_extractLsb', slot_getLsbD] <;> grind

/-- To decode an instruction's word, decode the fields that the encoder gave it. -/
theorem decodeSlot_of_encode {u : BitVec 3} {op : BitVec 7} {d a b : BitVec 6} {x : BitVec 3} {w : SlotWord} {i : Instr}
    (he : some (slot u op d a b x) = some w) (h : decodeFields ⟨u, op, d, a, b, x⟩ = .ok i) : decodeSlot w = .ok i := by
  cases he
  rw [decodeSlot, ofWord_slot, h]

/-! ### Immediates -/

/-- Neighbouring runs of bits join. -/
theorem extractLsb'_append {n : Nat} (v : BitVec n) (lo k m : Nat) :
    v.extractLsb' (lo + k) m ++ v.extractLsb' lo k = v.extractLsb' lo (m + k) := by
  ext i hi
  simp only [BitVec.getElem_append, BitVec.getElem_extractLsb']
  split <;> congr 1 <;> omega

@[simp] theorem imm9_of (u : BitVec 3) (op : BitVec 7) (d a : BitVec 6) (i : BitVec 9) :
    Fields.imm9 ⟨u, op, d, a, i.extractLsb' 3 6, i.extractLsb' 0 3⟩ = i := by
  rw [Fields.imm9, extractLsb'_append i 0 3 6]; exact BitVec.extractLsb'_eq_self

@[simp] theorem imm15_of (u : BitVec 3) (op : BitVec 7) (d : BitVec 6) (i : BitVec 15) :
    Fields.imm15 ⟨u, op, d, i.extractLsb' 9 6, i.extractLsb' 3 6, i.extractLsb' 0 3⟩ = i := by
  rw [Fields.imm15, extractLsb'_append i 3 6 6]
  exact (extractLsb'_append i 0 3 12).trans BitVec.extractLsb'_eq_self

@[simp] theorem off21_of (u : BitVec 3) (op : BitVec 7) (i : BitVec 21) :
    Fields.off21 ⟨u, op, i.extractLsb' 15 6, i.extractLsb' 9 6, i.extractLsb' 3 6, i.extractLsb' 0 3⟩ = i := by
  rw [Fields.off21, extractLsb'_append i 9 6 6, extractLsb'_append i 3 6 12]
  exact (extractLsb'_append i 0 3 18).trans BitVec.extractLsb'_eq_self

/-- The high and the low part of two joined runs. -/
theorem extract_high {n m : Nat} (v : BitVec n) (w : BitVec m) : (v ++ w).extractLsb' m n = v := by
  ext i hi
  simp only [BitVec.getElem_extractLsb', BitVec.getLsbD_append]
  grind
theorem extract_low {n m : Nat} (v : BitVec n) (w : BitVec m) : (v ++ w).extractLsb' 0 m = w := by
  ext i hi
  simp only [BitVec.getElem_extractLsb', BitVec.getLsbD_append]
  grind

/-! ### Narrow fields -/

/-- A value of few bits, widened, is below its bound. -/
theorem toNat_setWidth_lt {n m : Nat} (v : BitVec n) : (v.setWidth m).toNat < 2 ^ n :=
  Nat.lt_of_le_of_lt (by simpa using Nat.mod_le _ _) v.isLt

@[simp] theorem setWidth_back_4 (v : BitVec 4) : (v.setWidth 6).setWidth 4 = v := by simp
@[simp] theorem kField_of (v : BitVec 4) (r : Except Illegal Instr) : kField (v.setWidth 6) r = r := if_pos (toNat_setWidth_lt v)
@[simp] theorem rqField_of (v : BitVec 3) (r : Except Illegal Instr) : rqField (v.setWidth 6) r = r := if_pos (toNat_setWidth_lt v)

/-- A mask field that is not zero. -/
theorem onMask_of {v : BitVec 4} (h : v ≠ 0) (r : Except Illegal Instr) : onMask (v.setWidth 6) r = r := by
  refine if_pos ⟨fun h0 => h ?_, toNat_setWidth_lt v⟩
  rw [← setWidth_back_4 v, h0]; rfl

/-- A mask field of the three-source forms: its top bit stands in the opcode. -/
theorem mask_low {k : BitVec 4} (h : k.getLsbD 3 = false) : (0#1 ++ k.setWidth 3 : BitVec 4) = k := by revert k; decide
theorem mask_high {k : BitVec 4} (h : k.getLsbD 3 = true) : (1#1 ++ k.setWidth 3 : BitVec 4) = k := by revert k; decide

/-- WRSR by its L-form word. -/
theorem wrsr_fields (d : GReg) (i : BitVec 15) (h : i.toNat < 4096) :
    decodeFields ⟨0, 0x41, d, i.extractLsb' 9 6, i.extractLsb' 3 6, i.extractLsb' 0 3⟩ = .ok (wrInstr d (i.setWidth 12)) := by
  change @onField _ _ _ = _
  simp only [imm15_of]
  exact if_pos h

/-! ### Codes of the X field -/

@[simp] theorem vtyOf_code (t : VTy) : vtyOf (vtyCode t) = some t := by cases t <;> rfl
@[simp] theorem ntyOf_code (t : NTy) : ntyOf (ntyCode t) = some t := by cases t <;> rfl
@[simp] theorem condOf_code (t : Cond) : condOf (condCode t) = some t := by cases t <;> rfl
@[simp] theorem widthOf_code (t : ExtWidth) : widthOf (widthCode t) = some t := by cases t <;> rfl
@[simp] theorem roundOf_code (t : CvtRound) : roundOf (roundCode t) = some t := by cases t <;> rfl
@[simp] theorem feOf_code (t : FeMode) : feOf (feCode t) = some t := by cases t <;> rfl
@[simp] theorem scopeOf_code (t : Scope) : scopeOf (scopeGroup t) (scopeCode t) = some t := by
  cases t with
  | group n => revert n; decide
  | _ => rfl

/-- The four values of a field of two bits. -/
theorem two_bits (v : BitVec 2) : v = 0 ∨ v = 1 ∨ v = 2 ∨ v = 3 := by revert v; decide
/-- The eight values of a field of three bits. -/
theorem three_bits (v : BitVec 3) : v = 0 ∨ v = 1 ∨ v = 2 ∨ v = 3 ∨ v = 4 ∨ v = 5 ∨ v = 6 ∨ v = 7 := by revert v; decide

/-- A need that is met. -/
@[simp] theorem need_some {α : Type} (v : α) (mk : α → Instr) : need (some v) mk = .ok (mk v) := rfl

end Sys2Proof.Laws
end

