-- ==== Sys2Proof/Laws/Flights.lean ====
section
/-!
SUPPORT. What the operations on words under way do (R267, R299, R405, R422): a launch adds one flight and one draw of the free counter,
and changes nothing else.
-/

namespace Sys2Proof.Machine

/-- Everything that a launch does. -/
theorem State.launch_eq (s : State) (f : Flight) :
    s.launch f = { s with flights := s.flights ++ [{ f with no := s.free }], free := s.free + 1 } := rfl
@[simp] theorem State.launch_core (s : State) (f : Flight) : (s.launch f).core = s.core := rfl
@[simp] theorem State.launch_others (s : State) (f : Flight) : (s.launch f).others = s.others := rfl
@[simp] theorem State.launch_mem (s : State) (f : Flight) : (s.launch f).mem = s.mem := rfl
@[simp] theorem State.launch_flights (s : State) (f : Flight) : (s.launch f).flights = s.flights ++ [{ f with no := s.free }] := rfl
@[simp] theorem State.launch_free (s : State) (f : Flight) : (s.launch f).free = s.free + 1 := rfl
@[simp] theorem State.launch_ackOut (s : State) (f : Flight) : (s.launch f).ackOut = s.ackOut := rfl
@[simp] theorem State.launch_sackOut (s : State) (f : Flight) : (s.launch f).sackOut = s.sackOut := rfl
@[simp] theorem State.launch_links (s : State) (f : Flight) : (s.launch f).links = s.links := rfl
@[simp] theorem State.launch_todo (s : State) (f : Flight) : (s.launch f).todo = s.todo := rfl

/-- The words of a chunk leave under what else is given for them. -/
theorem State.bring_eq (s : State) (f : Flight) (h : Chunk) :
    s.bring f h = s.launch { f with words := h.words, bad := h.bad, clean := h.clean } := rfl
@[simp] theorem State.bring_core (s : State) (f : Flight) (h : Chunk) : (s.bring f h).core = s.core := rfl
@[simp] theorem State.bring_mem (s : State) (f : Flight) (h : Chunk) : (s.bring f h).mem = s.mem := rfl
@[simp] theorem State.bring_ackOut (s : State) (f : Flight) (h : Chunk) : (s.bring f h).ackOut = s.ackOut := rfl

/-- A word that is written takes the bits of its mask. -/
theorem FlightWord.over_write (v : FlightWord) (old : Word) (h : v.sum = none) : v.over old = (old &&& ~~~v.mask) ||| (v.val &&& v.mask) := by
  simp [FlightWord.over, h]

/-- A word written whole holds its value. -/
theorem FlightWord.over_whole (v : FlightWord) (old : Word) (h : v.sum = none) (m : v.mask = BitVec.allOnes 64) : v.over old = v.val := by
  rw [FlightWord.over_write v old h, m, BitVec.not_allOnes, BitVec.and_zero, BitVec.zero_or, BitVec.and_allOnes]

end Sys2Proof.Machine
end

