-- ==== Sys2Proof/Laws/Memory.lean ====
section
/-!
SUPPORT. The stores: every operation keeps the canonical form, and reads after writes.
-/

namespace Sys2Proof.Machine

/-! ### Rising lists of numbers -/

theorem risingFrom_weaken {m n : Nat} (h : n ≤ m) : ∀ {l : List Nat}, risingFrom m l = true → risingFrom n l = true
  | [], _ => rfl
  | a :: r, hl => by
    simp only [risingFrom, Bool.and_eq_true, decide_eq_true_eq] at hl ⊢
    exact ⟨h.trans hl.1, hl.2⟩

theorem risingFrom_numAdd {m x : Nat} (hx : m ≤ x) : ∀ {l : List Nat}, risingFrom m l = true → risingFrom m (numAdd l x) = true
  | [], _ => by simp [numAdd, risingFrom, hx]
  | a :: r, hl => by
    simp only [risingFrom, Bool.and_eq_true, decide_eq_true_eq] at hl
    rw [numAdd]
    split
    · simp only [risingFrom, Bool.and_eq_true, decide_eq_true_eq]
      exact ⟨hx, by omega, hl.2⟩
    · split
      · simp [risingFrom, hl]
      · simp only [risingFrom, Bool.and_eq_true, decide_eq_true_eq]
        exact ⟨hl.1, risingFrom_numAdd (by omega) hl.2⟩

theorem risingFrom_filter (p : Nat → Bool) : ∀ {m : Nat} {l : List Nat}, risingFrom m l = true → risingFrom m (l.filter p) = true
  | _, [], _ => rfl
  | m, a :: r, hl => by
    simp only [risingFrom, Bool.and_eq_true, decide_eq_true_eq] at hl
    rw [List.filter_cons]
    split
    · simp only [risingFrom, Bool.and_eq_true, decide_eq_true_eq]
      exact ⟨hl.1, risingFrom_filter p hl.2⟩
    · exact risingFrom_weaken (by omega) (risingFrom_filter p hl.2)

theorem risingFrom_numDel {x m : Nat} {l : List Nat} (h : risingFrom m l = true) : risingFrom m (numDel l x) = true := risingFrom_filter _ h

theorem risingFrom_numSet {x : Nat} {v : Bool} {l : List Nat} (h : risingFrom 0 l = true) : risingFrom 0 (numSet l x v) = true := by
  unfold numSet
  split
  · exact risingFrom_numAdd (Nat.zero_le _) h
  · exact risingFrom_numDel h

theorem risingFrom_clearSectors {a n : Nat} : ∀ {k s : Nat} {l : List Nat}, risingFrom 0 l = true → risingFrom 0 (clearSectors l a n s k) = true
  | 0, _, _, h => h
  | k + 1, s, l, h => by
    rw [clearSectors]
    split
    · exact risingFrom_clearSectors (risingFrom_numDel h)
    · exact risingFrom_clearSectors h

/-- A number is a member after it was set so, and no other number changes. -/
theorem numHas_numAdd {x y : Nat} (l : List Nat) : numHas (numAdd l x) y = (decide (y = x) || numHas l y) := by
  unfold numHas
  induction l with
  | nil => simp [numAdd]
  | cons a r ih =>
    rw [numAdd]
    split
    · simp
    · split
      · next h => simp [h]
      · simp only [List.any_cons, ih, Bool.or_left_comm]

/-! ### Cells -/

theorem cellsFrom_weaken {m n : Nat} (h : n ≤ m) : ∀ {l : List Host.Cell}, cellsFrom m l = true → cellsFrom n l = true
  | [], _ => rfl
  | (a, b) :: r, hl => by
    simp only [cellsFrom, Bool.and_eq_true, decide_eq_true_eq] at hl ⊢
    exact ⟨⟨h.trans hl.1.1, hl.1.2⟩, hl.2⟩

theorem cellsFrom_cellPut {x : Nat} {v : Byte} : ∀ {m : Nat} {l : List Host.Cell}, m ≤ x → cellsFrom m l = true →
    cellsFrom m (cellPut l x v) = true
  | m, [], hx, _ => by
    rw [cellPut]
    split
    · rfl
    · next h => simp [cellsFrom, hx, h]
  | m, (a, b) :: r, hx, hl => by
    have hl' := hl
    simp only [cellsFrom, Bool.and_eq_true, decide_eq_true_eq] at hl
    rw [cellPut]
    split
    · split
      · exact hl'
      · next h1 h2 =>
        simp only [cellsFrom, Bool.and_eq_true, decide_eq_true_eq]
        exact ⟨⟨hx, by simpa using h2⟩, ⟨by omega, hl.1.2⟩, hl.2⟩
    · split
      · split
        · exact cellsFrom_weaken (by omega) hl.2
        · next h1 h2 h3 =>
          subst h2
          simp only [cellsFrom, Bool.and_eq_true, decide_eq_true_eq]
          exact ⟨⟨hx, by simpa using h3⟩, hl.2⟩
      · simp only [cellsFrom, Bool.and_eq_true, decide_eq_true_eq]
        exact ⟨hl.1, cellsFrom_cellPut (by omega) hl.2⟩

theorem cellsFrom_putBytes : ∀ {bs : List Byte} {a : Nat} {l : List Host.Cell}, cellsFrom 0 l = true → cellsFrom 0 (putBytes l a bs) = true
  | [], _, _, h => h
  | b :: r, a, l, h => by
    rw [putBytes]
    exact cellsFrom_putBytes (cellsFrom_cellPut (Nat.zero_le a) h)

theorem cellsFrom_filter (p : Host.Cell → Bool) : ∀ {m : Nat} {l : List Host.Cell}, cellsFrom m l = true → cellsFrom m (l.filter p) = true
  | _, [], _ => rfl
  | m, (a, b) :: r, hl => by
    simp only [cellsFrom, Bool.and_eq_true, decide_eq_true_eq] at hl
    rw [List.filter_cons]
    split
    · simp only [cellsFrom, Bool.and_eq_true, decide_eq_true_eq]
      exact ⟨hl.1, cellsFrom_filter p hl.2⟩
    · exact cellsFrom_weaken (by omega) (cellsFrom_filter p hl.2)

/-- A byte below every listed address is not listed. -/
theorem cellGet_below {x : Nat} : ∀ {m : Nat} {l : List Host.Cell}, cellsFrom m l = true → x < m → cellGet l x = unlisted
  | _, [], _, _ => rfl
  | m, (a, b) :: r, hl, hx => by
    simp only [cellsFrom, Bool.and_eq_true, decide_eq_true_eq] at hl
    rw [cellGet, if_neg (by omega)]
    exact cellGet_below hl.2 (by omega)

/-- Reading after a write of one cell: the value at its address, what was there at every other. -/
theorem cellGet_cellPut {x y : Nat} {v : Byte} : ∀ {m : Nat} {l : List Host.Cell}, cellsFrom m l = true →
    cellGet (cellPut l x v) y = if y = x then v else cellGet l y
  | _, [], _ => by
    rw [cellPut]
    split
    · next h => split <;> simp [cellGet, h]
    · simp [cellGet]
  | m, (a, b) :: r, hl => by
    have hl' := hl
    simp only [cellsFrom, Bool.and_eq_true, decide_eq_true_eq] at hl
    rw [cellPut]
    split
    · next h =>
      split
      · next hv =>
        split
        · next hy => subst hy; rw [cellGet, if_neg (by omega), cellGet_below hl.2 (by omega), hv]
        · rfl
      · rw [cellGet]
    · split
      · next h1 h2 =>
        subst h2
        split
        · next hv =>
          split
          · next hy => subst hy; rw [cellGet_below hl.2 (by omega), hv]
          · next hy => rw [cellGet, if_neg hy]
        · rw [cellGet]; split <;> simp_all [cellGet]
      · next h1 h2 =>
        rw [cellGet, cellGet_cellPut hl.2]
        by_cases hy : y = a
        · rw [if_pos hy, if_neg (by omega), cellGet, if_pos hy]
        · rw [if_neg hy]; conv_rhs => rw [cellGet, if_neg hy]

/-- Reading after a write of bytes. -/
theorem cellGet_putBytes {y : Nat} : ∀ {bs : List Byte} {a : Nat} {l : List Host.Cell}, cellsFrom 0 l = true →
    cellGet (putBytes l a bs) y = if a ≤ y then (bs[y - a]?).getD (cellGet l y) else cellGet l y
  | [], a, l, _ => by simp [putBytes]
  | b :: r, a, l, h => by
    rw [putBytes, cellGet_putBytes (cellsFrom_cellPut (Nat.zero_le _) h), cellGet_cellPut h]
    rcases Nat.lt_trichotomy y a with hy | hy | hy
    · rw [if_neg (by omega), if_neg (by omega), if_neg (by omega)]
    · subst hy; simp
    · rw [if_pos (by omega), if_neg (by omega), if_pos (by omega)]
      obtain ⟨k, hk⟩ : ∃ k, y - a = k + 1 := ⟨y - a - 1, by omega⟩
      rw [hk, show y - (a + 1) = k by omega, List.getElem?_cons_succ]

/-! ### Stores -/

/-- The four lists of a canonical store. -/
theorem Memory.wf_iff (m : Store) : Memory.wf m = true ↔
    cellsFrom 0 m.bytes = true ∧ risingFrom 0 m.full = true ∧ risingFrom 0 m.poison = true ∧ risingFrom 0 m.parked = true := by
  simp [Memory.wf, and_assoc]

theorem Memory.wf_write {m : Store} (h : Memory.wf m = true) (a : Nat) (bs : List Byte) : Memory.wf (m.write a bs) = true := by
  rw [Memory.wf_iff] at h ⊢
  exact ⟨cellsFrom_putBytes h.1, h.2.1, risingFrom_clearSectors h.2.2.1, h.2.2.2⟩

theorem Memory.wf_setFe {m : Store} (h : Memory.wf m = true) (a : Nat) (v : Bool) : Memory.wf (m.setFe a v) = true := by
  rw [Memory.wf_iff] at h ⊢
  exact ⟨h.1, risingFrom_numSet h.2.1, h.2.2⟩

theorem Memory.wf_setPoison {m : Store} (h : Memory.wf m = true) (a : Nat) (v : Bool) : Memory.wf (m.setPoison a v) = true := by
  rw [Memory.wf_iff] at h ⊢
  exact ⟨h.1, h.2.1, risingFrom_numSet h.2.2.1, h.2.2.2⟩

theorem Memory.wf_setParked {m : Store} (h : Memory.wf m = true) (a : Nat) (v : Bool) : Memory.wf (m.setParked a v) = true := by
  rw [Memory.wf_iff] at h ⊢
  exact ⟨h.1, h.2.1, h.2.2.1, risingFrom_numSet h.2.2.2⟩

theorem Memory.foldl_setFe {m : Store} {α : Type} (g : α → Nat) (v : Bool) (l : List α) (h : Memory.wf m = true) :
    Memory.wf (l.foldl (fun (m : Store) i => m.setFe (g i) v) m) = true := by
  induction l generalizing m with
  | nil => exact h
  | cons i l ih => exact ih (Memory.wf_setFe h _ _)

/-- The loader keeps the form. -/
theorem Memory.wf_load {m : Store} (h : Memory.wf m = true) (a : Nat) (bs : List Byte) (fe : Bool) : Memory.wf (m.load a bs fe) = true :=
  Memory.foldl_setFe _ fe _ (Memory.wf_write h a bs)

theorem risingFrom_foldl_numAdd (l : List Nat) {k : List Nat} (h : risingFrom 0 k = true) : risingFrom 0 (l.foldl numAdd k) = true := by
  induction l generalizing k with
  | nil => exact h
  | cons x l ih => exact ih (risingFrom_numAdd (Nat.zero_le x) h)

/-- Other bits put into a tile keep the form. -/
theorem Memory.wf_setTileBits {m : Store} (h : Memory.wf m = true) (n : Nat) (b : List Nat × List Nat × Bool) :
    Memory.wf (m.setTileBits n b) = true := by
  rw [Memory.wf_iff] at h ⊢
  exact ⟨h.1, risingFrom_foldl_numAdd _ (risingFrom_filter _ h.2.1), risingFrom_foldl_numAdd _ (risingFrom_filter _ h.2.2.1),
    risingFrom_numSet h.2.2.2⟩

theorem Memory.wf_putWord {m : Store} (h : Memory.wf m = true) (a : Nat) (w : Word) : Memory.wf (m.putWord a w) = true :=
  Memory.wf_write h _ _

theorem Memory.wf_empty : Memory.wf {} = true := rfl

@[simp] theorem Store.setTileBits_bytes (m : Store) (n : Nat) (b : List Nat × List Nat × Bool) : (m.setTileBits n b).bytes = m.bytes := rfl

/-- A byte of a store after a write: the byte written, or what was there. -/
theorem Store.get_write {m : Store} (h : Memory.wf m = true) (a : Nat) (bs : List Byte) (y : Nat) :
    cellGet (m.write a bs).bytes y = if a ≤ y then (bs[y - a]?).getD (cellGet m.bytes y) else cellGet m.bytes y :=
  cellGet_putBytes ((Memory.wf_iff m).1 h).1

@[simp] theorem Store.read_length (m : Store) (a n : Nat) : (m.read a n).length = n := by
  induction n generalizing a with
  | zero => rfl
  | succ n ih => simp [Store.read, ih]

@[simp] theorem Store.write_full (m : Store) (a : Nat) (bs : List Byte) : (m.write a bs).full = m.full := rfl
@[simp] theorem Store.write_parked (m : Store) (a : Nat) (bs : List Byte) : (m.write a bs).parked = m.parked := rfl
@[simp] theorem Store.write_fe (m : Store) (a : Nat) (bs : List Byte) (x : Nat) : (m.write a bs).fe x = m.fe x := rfl
@[simp] theorem Store.setFe_bytes (m : Store) (a : Nat) (v : Bool) : (m.setFe a v).bytes = m.bytes := rfl
@[simp] theorem Store.setFe_poison (m : Store) (a : Nat) (v : Bool) : (m.setFe a v).poison = m.poison := rfl
@[simp] theorem Store.setFe_poisoned (m : Store) (a : Nat) (v : Bool) (x : Nat) : (m.setFe a v).poisoned x = m.poisoned x := rfl
@[simp] theorem Store.setPoison_bytes (m : Store) (a : Nat) (v : Bool) : (m.setPoison a v).bytes = m.bytes := rfl
@[simp] theorem Store.setPoison_full (m : Store) (a : Nat) (v : Bool) : (m.setPoison a v).full = m.full := rfl

/-- Reading back the bytes just written. -/
theorem Store.read_write {m : Store} (h : Memory.wf m = true) : ∀ (bs : List Byte) (a : Nat), (m.write a bs).read a bs.length = bs := by
  have key : ∀ (bs : List Byte) (a k : Nat) (pre : List Byte), k = pre.length →
      (m.write a (pre ++ bs)).read (a + k) bs.length = bs := by
    intro bs
    induction bs with
    | nil => intros; rfl
    | cons b r ih =>
      intro a k pre hk
      rw [List.length_cons, Store.read, Store.get_write h]
      have h1 : a ≤ a + k := Nat.le_add_right _ _
      rw [if_pos h1, show a + k - a = pre.length by omega]
      have := ih a (k + 1) (pre ++ [b]) (by simp [hk])
      simp only [List.append_assoc, List.singleton_append] at this
      rw [show a + k + 1 = a + (k + 1) by omega, this]
      simp
  intro bs a
  simpa using key bs a 0 [] rfl

/-! ### Look-ups by key -/

theorem assocGet_assocPut {α : Type} {x y : Nat} {v : α} {l : List (Nat × α)} (h : y ≠ x) : assocGet (assocPut l x v) y = assocGet l y := by
  unfold assocGet
  congr 1
  induction l with
  | nil => simp [assocPut, h.symm]
  | cons e r ih =>
    rw [assocPut]
    split
    · simp [h.symm]
    · split
      · next hx => subst hx; simp [h.symm]
      · simp [List.find?_cons, ih]

theorem assocGet_assocPut_self {α : Type} {x : Nat} {v : α} {l : List (Nat × α)} : assocGet (assocPut l x v) x = some v := by
  unfold assocGet
  induction l with
  | nil => simp [assocPut]
  | cons e r ih =>
    rw [assocPut]
    split
    · simp
    · split
      · simp
      · next _ hx => simpa [List.find?_cons, Ne.symm hx] using ih

end Sys2Proof.Machine
end

