-- ==== Sys2Proof/Laws/State.lean ====
section
/-!
SUPPORT. Each field of the state, of a core and of a store after each named update.
-/

namespace Sys2Proof.Machine

/-! ### addTodo -/

@[simp] theorem State.addTodo_core (s : State) (d : Due) : (s.addTodo d).core = s.core := rfl
@[simp] theorem State.addTodo_others (s : State) (d : Due) : (s.addTodo d).others = s.others := rfl
@[simp] theorem State.addTodo_mem (s : State) (d : Due) : (s.addTodo d).mem = s.mem := rfl
@[simp] theorem State.addTodo_args (s : State) (d : Due) : (s.addTodo d).args = s.args := rfl
@[simp] theorem State.addTodo_clk (s : State) (d : Due) : (s.addTodo d).clk = s.clk := rfl
@[simp] theorem State.addTodo_pktime (s : State) (d : Due) : (s.addTodo d).pktime = s.pktime := rfl
@[simp] theorem State.addTodo_podtime (s : State) (d : Due) : (s.addTodo d).podtime = s.podtime := rfl
@[simp] theorem State.addTodo_free (s : State) (d : Due) : (s.addTodo d).free = s.free := rfl
@[simp] theorem State.addTodo_inbox (s : State) (d : Due) : (s.addTodo d).inbox = s.inbox := rfl
@[simp] theorem State.addTodo_todo (s : State) (d : Due) : (s.addTodo d).todo = s.todo ++ [d] := rfl
@[simp] theorem State.addTodo_timers (s : State) (d : Due) : (s.addTodo d).timers = s.timers := rfl
@[simp] theorem State.addTodo_wakes (s : State) (d : Due) : (s.addTodo d).wakes = s.wakes := rfl
@[simp] theorem State.addTodo_regions (s : State) (d : Due) : (s.addTodo d).regions = s.regions := rfl
@[simp] theorem State.addTodo_programs (s : State) (d : Due) : (s.addTodo d).programs = s.programs := rfl
@[simp] theorem State.addTodo_tasks (s : State) (d : Due) : (s.addTodo d).tasks = s.tasks := rfl
@[simp] theorem State.addTodo_soruses (s : State) (d : Due) : (s.addTodo d).soruses = s.soruses := rfl
@[simp] theorem State.addTodo_parts (s : State) (d : Due) : (s.addTodo d).parts = s.parts := rfl
@[simp] theorem State.addTodo_asids (s : State) (d : Due) : (s.addTodo d).asids = s.asids := rfl
@[simp] theorem State.addTodo_tiles (s : State) (d : Due) : (s.addTodo d).tiles = s.tiles := rfl
@[simp] theorem State.addTodo_keys (s : State) (d : Due) : (s.addTodo d).keys = s.keys := rfl
@[simp] theorem State.addTodo_buckets (s : State) (d : Due) : (s.addTodo d).buckets = s.buckets := rfl
@[simp] theorem State.addTodo_ports (s : State) (d : Due) : (s.addTodo d).ports = s.ports := rfl
@[simp] theorem State.addTodo_links (s : State) (d : Due) : (s.addTodo d).links = s.links := rfl
@[simp] theorem State.addTodo_nets (s : State) (d : Due) : (s.addTodo d).nets = s.nets := rfl
@[simp] theorem State.addTodo_dir (s : State) (d : Due) : (s.addTodo d).dir = s.dir := rfl
@[simp] theorem State.addTodo_mcasts (s : State) (d : Due) : (s.addTodo d).mcasts = s.mcasts := rfl
@[simp] theorem State.addTodo_flights (s : State) (d : Due) : (s.addTodo d).flights = s.flights := rfl
@[simp] theorem State.addTodo_timeOut (s : State) (d : Due) : (s.addTodo d).timeOut = s.timeOut := rfl
@[simp] theorem State.addTodo_fabOut (s : State) (d : Due) : (s.addTodo d).fabOut = s.fabOut := rfl
@[simp] theorem State.addTodo_hostOut (s : State) (d : Due) : (s.addTodo d).hostOut = s.hostOut := rfl
@[simp] theorem State.addTodo_scans (s : State) (d : Due) : (s.addTodo d).scans = s.scans := rfl
@[simp] theorem State.addTodo_awaits (s : State) (d : Due) : (s.addTodo d).awaits = s.awaits := rfl
@[simp] theorem State.addTodo_plan (s : State) (d : Due) : (s.addTodo d).plan = s.plan := rfl
@[simp] theorem State.addTodo_wqs (s : State) (d : Due) : (s.addTodo d).wqs = s.wqs := rfl
@[simp] theorem State.addTodo_asked (s : State) (d : Due) : (s.addTodo d).asked = s.asked := rfl
@[simp] theorem State.addTodo_askPrio (s : State) (d : Due) : (s.addTodo d).askPrio = s.askPrio := rfl
@[simp] theorem State.addTodo_limit (s : State) (d : Due) : (s.addTodo d).limit = s.limit := rfl
@[simp] theorem State.addTodo_limitDue (s : State) (d : Due) : (s.addTodo d).limitDue = s.limitDue := rfl
@[simp] theorem State.addTodo_routes (s : State) (d : Due) : (s.addTodo d).routes = s.routes := rfl
@[simp] theorem State.addTodo_featack (s : State) (d : Due) : (s.addTodo d).featack = s.featack := rfl
@[simp] theorem State.addTodo_boot (s : State) (d : Due) : (s.addTodo d).boot = s.boot := rfl

/-! ### addTimer -/

@[simp] theorem State.addTimer_core (s : State) (d : Due) : (s.addTimer d).core = s.core := rfl
@[simp] theorem State.addTimer_others (s : State) (d : Due) : (s.addTimer d).others = s.others := rfl
@[simp] theorem State.addTimer_mem (s : State) (d : Due) : (s.addTimer d).mem = s.mem := rfl
@[simp] theorem State.addTimer_args (s : State) (d : Due) : (s.addTimer d).args = s.args := rfl
@[simp] theorem State.addTimer_clk (s : State) (d : Due) : (s.addTimer d).clk = s.clk := rfl
@[simp] theorem State.addTimer_pktime (s : State) (d : Due) : (s.addTimer d).pktime = s.pktime := rfl
@[simp] theorem State.addTimer_podtime (s : State) (d : Due) : (s.addTimer d).podtime = s.podtime := rfl
@[simp] theorem State.addTimer_free (s : State) (d : Due) : (s.addTimer d).free = s.free := rfl
@[simp] theorem State.addTimer_inbox (s : State) (d : Due) : (s.addTimer d).inbox = s.inbox := rfl
@[simp] theorem State.addTimer_todo (s : State) (d : Due) : (s.addTimer d).todo = s.todo := rfl
@[simp] theorem State.addTimer_timers (s : State) (d : Due) : (s.addTimer d).timers = s.timers ++ [d] := rfl
@[simp] theorem State.addTimer_wakes (s : State) (d : Due) : (s.addTimer d).wakes = s.wakes := rfl
@[simp] theorem State.addTimer_regions (s : State) (d : Due) : (s.addTimer d).regions = s.regions := rfl
@[simp] theorem State.addTimer_programs (s : State) (d : Due) : (s.addTimer d).programs = s.programs := rfl
@[simp] theorem State.addTimer_tasks (s : State) (d : Due) : (s.addTimer d).tasks = s.tasks := rfl
@[simp] theorem State.addTimer_soruses (s : State) (d : Due) : (s.addTimer d).soruses = s.soruses := rfl
@[simp] theorem State.addTimer_parts (s : State) (d : Due) : (s.addTimer d).parts = s.parts := rfl
@[simp] theorem State.addTimer_asids (s : State) (d : Due) : (s.addTimer d).asids = s.asids := rfl
@[simp] theorem State.addTimer_tiles (s : State) (d : Due) : (s.addTimer d).tiles = s.tiles := rfl
@[simp] theorem State.addTimer_keys (s : State) (d : Due) : (s.addTimer d).keys = s.keys := rfl
@[simp] theorem State.addTimer_buckets (s : State) (d : Due) : (s.addTimer d).buckets = s.buckets := rfl
@[simp] theorem State.addTimer_ports (s : State) (d : Due) : (s.addTimer d).ports = s.ports := rfl
@[simp] theorem State.addTimer_links (s : State) (d : Due) : (s.addTimer d).links = s.links := rfl
@[simp] theorem State.addTimer_nets (s : State) (d : Due) : (s.addTimer d).nets = s.nets := rfl
@[simp] theorem State.addTimer_dir (s : State) (d : Due) : (s.addTimer d).dir = s.dir := rfl
@[simp] theorem State.addTimer_mcasts (s : State) (d : Due) : (s.addTimer d).mcasts = s.mcasts := rfl
@[simp] theorem State.addTimer_flights (s : State) (d : Due) : (s.addTimer d).flights = s.flights := rfl
@[simp] theorem State.addTimer_timeOut (s : State) (d : Due) : (s.addTimer d).timeOut = s.timeOut := rfl
@[simp] theorem State.addTimer_fabOut (s : State) (d : Due) : (s.addTimer d).fabOut = s.fabOut := rfl
@[simp] theorem State.addTimer_hostOut (s : State) (d : Due) : (s.addTimer d).hostOut = s.hostOut := rfl
@[simp] theorem State.addTimer_scans (s : State) (d : Due) : (s.addTimer d).scans = s.scans := rfl
@[simp] theorem State.addTimer_awaits (s : State) (d : Due) : (s.addTimer d).awaits = s.awaits := rfl
@[simp] theorem State.addTimer_plan (s : State) (d : Due) : (s.addTimer d).plan = s.plan := rfl
@[simp] theorem State.addTimer_wqs (s : State) (d : Due) : (s.addTimer d).wqs = s.wqs := rfl
@[simp] theorem State.addTimer_asked (s : State) (d : Due) : (s.addTimer d).asked = s.asked := rfl
@[simp] theorem State.addTimer_askPrio (s : State) (d : Due) : (s.addTimer d).askPrio = s.askPrio := rfl
@[simp] theorem State.addTimer_limit (s : State) (d : Due) : (s.addTimer d).limit = s.limit := rfl
@[simp] theorem State.addTimer_limitDue (s : State) (d : Due) : (s.addTimer d).limitDue = s.limitDue := rfl
@[simp] theorem State.addTimer_routes (s : State) (d : Due) : (s.addTimer d).routes = s.routes := rfl
@[simp] theorem State.addTimer_featack (s : State) (d : Due) : (s.addTimer d).featack = s.featack := rfl
@[simp] theorem State.addTimer_boot (s : State) (d : Due) : (s.addTimer d).boot = s.boot := rfl

/-! ### putRegion -/

@[simp] theorem State.putRegion_core (s : State) (r : Region) : (s.putRegion r).core = s.core := rfl
@[simp] theorem State.putRegion_others (s : State) (r : Region) : (s.putRegion r).others = s.others := rfl
@[simp] theorem State.putRegion_mem (s : State) (r : Region) : (s.putRegion r).mem = s.mem := rfl
@[simp] theorem State.putRegion_args (s : State) (r : Region) : (s.putRegion r).args = s.args := rfl
@[simp] theorem State.putRegion_clk (s : State) (r : Region) : (s.putRegion r).clk = s.clk := rfl
@[simp] theorem State.putRegion_pktime (s : State) (r : Region) : (s.putRegion r).pktime = s.pktime := rfl
@[simp] theorem State.putRegion_podtime (s : State) (r : Region) : (s.putRegion r).podtime = s.podtime := rfl
@[simp] theorem State.putRegion_free (s : State) (r : Region) : (s.putRegion r).free = s.free := rfl
@[simp] theorem State.putRegion_inbox (s : State) (r : Region) : (s.putRegion r).inbox = s.inbox := rfl
@[simp] theorem State.putRegion_todo (s : State) (r : Region) : (s.putRegion r).todo = s.todo := rfl
@[simp] theorem State.putRegion_timers (s : State) (r : Region) : (s.putRegion r).timers = s.timers := rfl
@[simp] theorem State.putRegion_wakes (s : State) (r : Region) : (s.putRegion r).wakes = s.wakes := rfl
@[simp] theorem State.putRegion_regions (s : State) (r : Region) : (s.putRegion r).regions = s.regions.map fun q => if q.id = r.id then r else q := rfl
@[simp] theorem State.putRegion_programs (s : State) (r : Region) : (s.putRegion r).programs = s.programs := rfl
@[simp] theorem State.putRegion_tasks (s : State) (r : Region) : (s.putRegion r).tasks = s.tasks := rfl
@[simp] theorem State.putRegion_soruses (s : State) (r : Region) : (s.putRegion r).soruses = s.soruses := rfl
@[simp] theorem State.putRegion_parts (s : State) (r : Region) : (s.putRegion r).parts = s.parts := rfl
@[simp] theorem State.putRegion_asids (s : State) (r : Region) : (s.putRegion r).asids = s.asids := rfl
@[simp] theorem State.putRegion_tiles (s : State) (r : Region) : (s.putRegion r).tiles = s.tiles := rfl
@[simp] theorem State.putRegion_keys (s : State) (r : Region) : (s.putRegion r).keys = s.keys := rfl
@[simp] theorem State.putRegion_buckets (s : State) (r : Region) : (s.putRegion r).buckets = s.buckets := rfl
@[simp] theorem State.putRegion_ports (s : State) (r : Region) : (s.putRegion r).ports = s.ports := rfl
@[simp] theorem State.putRegion_links (s : State) (r : Region) : (s.putRegion r).links = s.links := rfl
@[simp] theorem State.putRegion_nets (s : State) (r : Region) : (s.putRegion r).nets = s.nets := rfl
@[simp] theorem State.putRegion_dir (s : State) (r : Region) : (s.putRegion r).dir = s.dir := rfl
@[simp] theorem State.putRegion_mcasts (s : State) (r : Region) : (s.putRegion r).mcasts = s.mcasts := rfl
@[simp] theorem State.putRegion_flights (s : State) (r : Region) : (s.putRegion r).flights = s.flights := rfl
@[simp] theorem State.putRegion_timeOut (s : State) (r : Region) : (s.putRegion r).timeOut = s.timeOut := rfl
@[simp] theorem State.putRegion_fabOut (s : State) (r : Region) : (s.putRegion r).fabOut = s.fabOut := rfl
@[simp] theorem State.putRegion_hostOut (s : State) (r : Region) : (s.putRegion r).hostOut = s.hostOut := rfl
@[simp] theorem State.putRegion_scans (s : State) (r : Region) : (s.putRegion r).scans = s.scans := rfl
@[simp] theorem State.putRegion_awaits (s : State) (r : Region) : (s.putRegion r).awaits = s.awaits := rfl
@[simp] theorem State.putRegion_plan (s : State) (r : Region) : (s.putRegion r).plan = s.plan := rfl
@[simp] theorem State.putRegion_wqs (s : State) (r : Region) : (s.putRegion r).wqs = s.wqs := rfl
@[simp] theorem State.putRegion_asked (s : State) (r : Region) : (s.putRegion r).asked = s.asked := rfl
@[simp] theorem State.putRegion_askPrio (s : State) (r : Region) : (s.putRegion r).askPrio = s.askPrio := rfl
@[simp] theorem State.putRegion_limit (s : State) (r : Region) : (s.putRegion r).limit = s.limit := rfl
@[simp] theorem State.putRegion_limitDue (s : State) (r : Region) : (s.putRegion r).limitDue = s.limitDue := rfl
@[simp] theorem State.putRegion_routes (s : State) (r : Region) : (s.putRegion r).routes = s.routes := rfl
@[simp] theorem State.putRegion_featack (s : State) (r : Region) : (s.putRegion r).featack = s.featack := rfl
@[simp] theorem State.putRegion_boot (s : State) (r : Region) : (s.putRegion r).boot = s.boot := rfl

/-! ### putPart -/

@[simp] theorem State.putPart_core (s : State) (n : Nat) (p : Partition) : (s.putPart n p).core = s.core := rfl
@[simp] theorem State.putPart_others (s : State) (n : Nat) (p : Partition) : (s.putPart n p).others = s.others := rfl
@[simp] theorem State.putPart_mem (s : State) (n : Nat) (p : Partition) : (s.putPart n p).mem = s.mem := rfl
@[simp] theorem State.putPart_args (s : State) (n : Nat) (p : Partition) : (s.putPart n p).args = s.args := rfl
@[simp] theorem State.putPart_clk (s : State) (n : Nat) (p : Partition) : (s.putPart n p).clk = s.clk := rfl
@[simp] theorem State.putPart_pktime (s : State) (n : Nat) (p : Partition) : (s.putPart n p).pktime = s.pktime := rfl
@[simp] theorem State.putPart_podtime (s : State) (n : Nat) (p : Partition) : (s.putPart n p).podtime = s.podtime := rfl
@[simp] theorem State.putPart_free (s : State) (n : Nat) (p : Partition) : (s.putPart n p).free = s.free := rfl
@[simp] theorem State.putPart_inbox (s : State) (n : Nat) (p : Partition) : (s.putPart n p).inbox = s.inbox := rfl
@[simp] theorem State.putPart_todo (s : State) (n : Nat) (p : Partition) : (s.putPart n p).todo = s.todo := rfl
@[simp] theorem State.putPart_timers (s : State) (n : Nat) (p : Partition) : (s.putPart n p).timers = s.timers := rfl
@[simp] theorem State.putPart_wakes (s : State) (n : Nat) (p : Partition) : (s.putPart n p).wakes = s.wakes := rfl
@[simp] theorem State.putPart_regions (s : State) (n : Nat) (p : Partition) : (s.putPart n p).regions = s.regions := rfl
@[simp] theorem State.putPart_programs (s : State) (n : Nat) (p : Partition) : (s.putPart n p).programs = s.programs := rfl
@[simp] theorem State.putPart_tasks (s : State) (n : Nat) (p : Partition) : (s.putPart n p).tasks = s.tasks := rfl
@[simp] theorem State.putPart_soruses (s : State) (n : Nat) (p : Partition) : (s.putPart n p).soruses = s.soruses := rfl
@[simp] theorem State.putPart_parts (s : State) (n : Nat) (p : Partition) : (s.putPart n p).parts = s.parts.setIfInBounds n p := rfl
@[simp] theorem State.putPart_asids (s : State) (n : Nat) (p : Partition) : (s.putPart n p).asids = s.asids := rfl
@[simp] theorem State.putPart_tiles (s : State) (n : Nat) (p : Partition) : (s.putPart n p).tiles = s.tiles := rfl
@[simp] theorem State.putPart_keys (s : State) (n : Nat) (p : Partition) : (s.putPart n p).keys = s.keys := rfl
@[simp] theorem State.putPart_buckets (s : State) (n : Nat) (p : Partition) : (s.putPart n p).buckets = s.buckets := rfl
@[simp] theorem State.putPart_ports (s : State) (n : Nat) (p : Partition) : (s.putPart n p).ports = s.ports := rfl
@[simp] theorem State.putPart_links (s : State) (n : Nat) (p : Partition) : (s.putPart n p).links = s.links := rfl
@[simp] theorem State.putPart_nets (s : State) (n : Nat) (p : Partition) : (s.putPart n p).nets = s.nets := rfl
@[simp] theorem State.putPart_dir (s : State) (n : Nat) (p : Partition) : (s.putPart n p).dir = s.dir := rfl
@[simp] theorem State.putPart_mcasts (s : State) (n : Nat) (p : Partition) : (s.putPart n p).mcasts = s.mcasts := rfl
@[simp] theorem State.putPart_flights (s : State) (n : Nat) (p : Partition) : (s.putPart n p).flights = s.flights := rfl
@[simp] theorem State.putPart_timeOut (s : State) (n : Nat) (p : Partition) : (s.putPart n p).timeOut = s.timeOut := rfl
@[simp] theorem State.putPart_fabOut (s : State) (n : Nat) (p : Partition) : (s.putPart n p).fabOut = s.fabOut := rfl
@[simp] theorem State.putPart_hostOut (s : State) (n : Nat) (p : Partition) : (s.putPart n p).hostOut = s.hostOut := rfl
@[simp] theorem State.putPart_scans (s : State) (n : Nat) (p : Partition) : (s.putPart n p).scans = s.scans := rfl
@[simp] theorem State.putPart_awaits (s : State) (n : Nat) (p : Partition) : (s.putPart n p).awaits = s.awaits := rfl
@[simp] theorem State.putPart_plan (s : State) (n : Nat) (p : Partition) : (s.putPart n p).plan = s.plan := rfl
@[simp] theorem State.putPart_wqs (s : State) (n : Nat) (p : Partition) : (s.putPart n p).wqs = s.wqs := rfl
@[simp] theorem State.putPart_asked (s : State) (n : Nat) (p : Partition) : (s.putPart n p).asked = s.asked := rfl
@[simp] theorem State.putPart_askPrio (s : State) (n : Nat) (p : Partition) : (s.putPart n p).askPrio = s.askPrio := rfl
@[simp] theorem State.putPart_limit (s : State) (n : Nat) (p : Partition) : (s.putPart n p).limit = s.limit := rfl
@[simp] theorem State.putPart_limitDue (s : State) (n : Nat) (p : Partition) : (s.putPart n p).limitDue = s.limitDue := rfl
@[simp] theorem State.putPart_routes (s : State) (n : Nat) (p : Partition) : (s.putPart n p).routes = s.routes := rfl
@[simp] theorem State.putPart_featack (s : State) (n : Nat) (p : Partition) : (s.putPart n p).featack = s.featack := rfl
@[simp] theorem State.putPart_boot (s : State) (n : Nat) (p : Partition) : (s.putPart n p).boot = s.boot := rfl

/-! ### putAsid -/

@[simp] theorem State.putAsid_core (s : State) (n : Nat) (a : Asid) : (s.putAsid n a).core = s.core := rfl
@[simp] theorem State.putAsid_others (s : State) (n : Nat) (a : Asid) : (s.putAsid n a).others = s.others := rfl
@[simp] theorem State.putAsid_mem (s : State) (n : Nat) (a : Asid) : (s.putAsid n a).mem = s.mem := rfl
@[simp] theorem State.putAsid_args (s : State) (n : Nat) (a : Asid) : (s.putAsid n a).args = s.args := rfl
@[simp] theorem State.putAsid_clk (s : State) (n : Nat) (a : Asid) : (s.putAsid n a).clk = s.clk := rfl
@[simp] theorem State.putAsid_pktime (s : State) (n : Nat) (a : Asid) : (s.putAsid n a).pktime = s.pktime := rfl
@[simp] theorem State.putAsid_podtime (s : State) (n : Nat) (a : Asid) : (s.putAsid n a).podtime = s.podtime := rfl
@[simp] theorem State.putAsid_free (s : State) (n : Nat) (a : Asid) : (s.putAsid n a).free = s.free := rfl
@[simp] theorem State.putAsid_inbox (s : State) (n : Nat) (a : Asid) : (s.putAsid n a).inbox = s.inbox := rfl
@[simp] theorem State.putAsid_todo (s : State) (n : Nat) (a : Asid) : (s.putAsid n a).todo = s.todo := rfl
@[simp] theorem State.putAsid_timers (s : State) (n : Nat) (a : Asid) : (s.putAsid n a).timers = s.timers := rfl
@[simp] theorem State.putAsid_wakes (s : State) (n : Nat) (a : Asid) : (s.putAsid n a).wakes = s.wakes := rfl
@[simp] theorem State.putAsid_regions (s : State) (n : Nat) (a : Asid) : (s.putAsid n a).regions = s.regions := rfl
@[simp] theorem State.putAsid_programs (s : State) (n : Nat) (a : Asid) : (s.putAsid n a).programs = s.programs := rfl
@[simp] theorem State.putAsid_tasks (s : State) (n : Nat) (a : Asid) : (s.putAsid n a).tasks = s.tasks := rfl
@[simp] theorem State.putAsid_soruses (s : State) (n : Nat) (a : Asid) : (s.putAsid n a).soruses = s.soruses := rfl
@[simp] theorem State.putAsid_parts (s : State) (n : Nat) (a : Asid) : (s.putAsid n a).parts = s.parts := rfl
@[simp] theorem State.putAsid_asids (s : State) (n : Nat) (a : Asid) : (s.putAsid n a).asids = assocPut s.asids n a := rfl
@[simp] theorem State.putAsid_tiles (s : State) (n : Nat) (a : Asid) : (s.putAsid n a).tiles = s.tiles := rfl
@[simp] theorem State.putAsid_keys (s : State) (n : Nat) (a : Asid) : (s.putAsid n a).keys = s.keys := rfl
@[simp] theorem State.putAsid_buckets (s : State) (n : Nat) (a : Asid) : (s.putAsid n a).buckets = s.buckets := rfl
@[simp] theorem State.putAsid_ports (s : State) (n : Nat) (a : Asid) : (s.putAsid n a).ports = s.ports := rfl
@[simp] theorem State.putAsid_links (s : State) (n : Nat) (a : Asid) : (s.putAsid n a).links = s.links := rfl
@[simp] theorem State.putAsid_nets (s : State) (n : Nat) (a : Asid) : (s.putAsid n a).nets = s.nets := rfl
@[simp] theorem State.putAsid_dir (s : State) (n : Nat) (a : Asid) : (s.putAsid n a).dir = s.dir := rfl
@[simp] theorem State.putAsid_mcasts (s : State) (n : Nat) (a : Asid) : (s.putAsid n a).mcasts = s.mcasts := rfl
@[simp] theorem State.putAsid_flights (s : State) (n : Nat) (a : Asid) : (s.putAsid n a).flights = s.flights := rfl
@[simp] theorem State.putAsid_timeOut (s : State) (n : Nat) (a : Asid) : (s.putAsid n a).timeOut = s.timeOut := rfl
@[simp] theorem State.putAsid_fabOut (s : State) (n : Nat) (a : Asid) : (s.putAsid n a).fabOut = s.fabOut := rfl
@[simp] theorem State.putAsid_hostOut (s : State) (n : Nat) (a : Asid) : (s.putAsid n a).hostOut = s.hostOut := rfl
@[simp] theorem State.putAsid_scans (s : State) (n : Nat) (a : Asid) : (s.putAsid n a).scans = s.scans := rfl
@[simp] theorem State.putAsid_awaits (s : State) (n : Nat) (a : Asid) : (s.putAsid n a).awaits = s.awaits := rfl
@[simp] theorem State.putAsid_plan (s : State) (n : Nat) (a : Asid) : (s.putAsid n a).plan = s.plan := rfl
@[simp] theorem State.putAsid_wqs (s : State) (n : Nat) (a : Asid) : (s.putAsid n a).wqs = s.wqs := rfl
@[simp] theorem State.putAsid_asked (s : State) (n : Nat) (a : Asid) : (s.putAsid n a).asked = s.asked := rfl
@[simp] theorem State.putAsid_askPrio (s : State) (n : Nat) (a : Asid) : (s.putAsid n a).askPrio = s.askPrio := rfl
@[simp] theorem State.putAsid_limit (s : State) (n : Nat) (a : Asid) : (s.putAsid n a).limit = s.limit := rfl
@[simp] theorem State.putAsid_limitDue (s : State) (n : Nat) (a : Asid) : (s.putAsid n a).limitDue = s.limitDue := rfl
@[simp] theorem State.putAsid_routes (s : State) (n : Nat) (a : Asid) : (s.putAsid n a).routes = s.routes := rfl
@[simp] theorem State.putAsid_featack (s : State) (n : Nat) (a : Asid) : (s.putAsid n a).featack = s.featack := rfl
@[simp] theorem State.putAsid_boot (s : State) (n : Nat) (a : Asid) : (s.putAsid n a).boot = s.boot := rfl

/-! ### putTile -/

@[simp] theorem State.putTile_core (s : State) (n : Nat) (t : Tile) : (s.putTile n t).core = s.core := rfl
@[simp] theorem State.putTile_others (s : State) (n : Nat) (t : Tile) : (s.putTile n t).others = s.others := rfl
@[simp] theorem State.putTile_mem (s : State) (n : Nat) (t : Tile) : (s.putTile n t).mem = s.mem := rfl
@[simp] theorem State.putTile_args (s : State) (n : Nat) (t : Tile) : (s.putTile n t).args = s.args := rfl
@[simp] theorem State.putTile_clk (s : State) (n : Nat) (t : Tile) : (s.putTile n t).clk = s.clk := rfl
@[simp] theorem State.putTile_pktime (s : State) (n : Nat) (t : Tile) : (s.putTile n t).pktime = s.pktime := rfl
@[simp] theorem State.putTile_podtime (s : State) (n : Nat) (t : Tile) : (s.putTile n t).podtime = s.podtime := rfl
@[simp] theorem State.putTile_free (s : State) (n : Nat) (t : Tile) : (s.putTile n t).free = s.free := rfl
@[simp] theorem State.putTile_inbox (s : State) (n : Nat) (t : Tile) : (s.putTile n t).inbox = s.inbox := rfl
@[simp] theorem State.putTile_todo (s : State) (n : Nat) (t : Tile) : (s.putTile n t).todo = s.todo := rfl
@[simp] theorem State.putTile_timers (s : State) (n : Nat) (t : Tile) : (s.putTile n t).timers = s.timers := rfl
@[simp] theorem State.putTile_wakes (s : State) (n : Nat) (t : Tile) : (s.putTile n t).wakes = s.wakes := rfl
@[simp] theorem State.putTile_regions (s : State) (n : Nat) (t : Tile) : (s.putTile n t).regions = s.regions := rfl
@[simp] theorem State.putTile_programs (s : State) (n : Nat) (t : Tile) : (s.putTile n t).programs = s.programs := rfl
@[simp] theorem State.putTile_tasks (s : State) (n : Nat) (t : Tile) : (s.putTile n t).tasks = s.tasks := rfl
@[simp] theorem State.putTile_soruses (s : State) (n : Nat) (t : Tile) : (s.putTile n t).soruses = s.soruses := rfl
@[simp] theorem State.putTile_parts (s : State) (n : Nat) (t : Tile) : (s.putTile n t).parts = s.parts := rfl
@[simp] theorem State.putTile_asids (s : State) (n : Nat) (t : Tile) : (s.putTile n t).asids = s.asids := rfl
@[simp] theorem State.putTile_tiles (s : State) (n : Nat) (t : Tile) : (s.putTile n t).tiles = assocPut s.tiles n t := rfl
@[simp] theorem State.putTile_keys (s : State) (n : Nat) (t : Tile) : (s.putTile n t).keys = s.keys := rfl
@[simp] theorem State.putTile_buckets (s : State) (n : Nat) (t : Tile) : (s.putTile n t).buckets = s.buckets := rfl
@[simp] theorem State.putTile_ports (s : State) (n : Nat) (t : Tile) : (s.putTile n t).ports = s.ports := rfl
@[simp] theorem State.putTile_links (s : State) (n : Nat) (t : Tile) : (s.putTile n t).links = s.links := rfl
@[simp] theorem State.putTile_nets (s : State) (n : Nat) (t : Tile) : (s.putTile n t).nets = s.nets := rfl
@[simp] theorem State.putTile_dir (s : State) (n : Nat) (t : Tile) : (s.putTile n t).dir = s.dir := rfl
@[simp] theorem State.putTile_mcasts (s : State) (n : Nat) (t : Tile) : (s.putTile n t).mcasts = s.mcasts := rfl
@[simp] theorem State.putTile_flights (s : State) (n : Nat) (t : Tile) : (s.putTile n t).flights = s.flights := rfl
@[simp] theorem State.putTile_timeOut (s : State) (n : Nat) (t : Tile) : (s.putTile n t).timeOut = s.timeOut := rfl
@[simp] theorem State.putTile_fabOut (s : State) (n : Nat) (t : Tile) : (s.putTile n t).fabOut = s.fabOut := rfl
@[simp] theorem State.putTile_hostOut (s : State) (n : Nat) (t : Tile) : (s.putTile n t).hostOut = s.hostOut := rfl
@[simp] theorem State.putTile_scans (s : State) (n : Nat) (t : Tile) : (s.putTile n t).scans = s.scans := rfl
@[simp] theorem State.putTile_awaits (s : State) (n : Nat) (t : Tile) : (s.putTile n t).awaits = s.awaits := rfl
@[simp] theorem State.putTile_plan (s : State) (n : Nat) (t : Tile) : (s.putTile n t).plan = s.plan := rfl
@[simp] theorem State.putTile_wqs (s : State) (n : Nat) (t : Tile) : (s.putTile n t).wqs = s.wqs := rfl
@[simp] theorem State.putTile_asked (s : State) (n : Nat) (t : Tile) : (s.putTile n t).asked = s.asked := rfl
@[simp] theorem State.putTile_askPrio (s : State) (n : Nat) (t : Tile) : (s.putTile n t).askPrio = s.askPrio := rfl
@[simp] theorem State.putTile_limit (s : State) (n : Nat) (t : Tile) : (s.putTile n t).limit = s.limit := rfl
@[simp] theorem State.putTile_limitDue (s : State) (n : Nat) (t : Tile) : (s.putTile n t).limitDue = s.limitDue := rfl
@[simp] theorem State.putTile_routes (s : State) (n : Nat) (t : Tile) : (s.putTile n t).routes = s.routes := rfl
@[simp] theorem State.putTile_featack (s : State) (n : Nat) (t : Tile) : (s.putTile n t).featack = s.featack := rfl
@[simp] theorem State.putTile_boot (s : State) (n : Nat) (t : Tile) : (s.putTile n t).boot = s.boot := rfl

/-! ### writeG -/

@[simp] theorem Core.writeG_die (c : Core) (r : GReg) (w : Word) : (c.writeG r w).die = c.die := by unfold Core.writeG; split <;> rfl
@[simp] theorem Core.writeG_phys (c : Core) (r : GReg) (w : Word) : (c.writeG r w).phys = c.phys := by unfold Core.writeG; split <;> rfl
@[simp] theorem Core.writeG_lcore (c : Core) (r : GReg) (w : Word) : (c.writeG r w).lcore = c.lcore := by unfold Core.writeG; split <;> rfl
@[simp] theorem Core.writeG_spare (c : Core) (r : GReg) (w : Word) : (c.writeG r w).spare = c.spare := by unfold Core.writeG; split <;> rfl
@[simp] theorem Core.writeG_cond (c : Core) (r : GReg) (w : Word) : (c.writeG r w).cond = c.cond := by unfold Core.writeG; split <;> rfl
@[simp] theorem Core.writeG_v (c : Core) (r : GReg) (w : Word) : (c.writeG r w).v = c.v := by unfold Core.writeG; split <;> rfl
@[simp] theorem Core.writeG_k (c : Core) (r : GReg) (w : Word) : (c.writeG r w).k = c.k := by unfold Core.writeG; split <;> rfl
@[simp] theorem Core.writeG_loops (c : Core) (r : GReg) (w : Word) : (c.writeG r w).loops = c.loops := by unfold Core.writeG; split <;> rfl
@[simp] theorem Core.writeG_acc (c : Core) (r : GReg) (w : Word) : (c.writeG r w).acc = c.acc := by unfold Core.writeG; split <;> rfl
@[simp] theorem Core.writeG_accSat (c : Core) (r : GReg) (w : Word) : (c.writeG r w).accSat = c.accSat := by unfold Core.writeG; split <;> rfl
@[simp] theorem Core.writeG_accPois (c : Core) (r : GReg) (w : Word) : (c.writeG r w).accPois = c.accPois := by unfold Core.writeG; split <;> rfl
@[simp] theorem Core.writeG_rq (c : Core) (r : GReg) (w : Word) : (c.writeG r w).rq = c.rq := by unfold Core.writeG; split <;> rfl
@[simp] theorem Core.writeG_bf (c : Core) (r : GReg) (w : Word) : (c.writeG r w).bf = c.bf := by unfold Core.writeG; split <;> rfl
@[simp] theorem Core.writeG_pc (c : Core) (r : GReg) (w : Word) : (c.writeG r w).pc = c.pc := by unfold Core.writeG; split <;> rfl
@[simp] theorem Core.writeG_level (c : Core) (r : GReg) (w : Word) : (c.writeG r w).level = c.level := by unfold Core.writeG; split <;> rfl
@[simp] theorem Core.writeG_seq (c : Core) (r : GReg) (w : Word) : (c.writeG r w).seq = c.seq := by unfold Core.writeG; split <;> rfl
@[simp] theorem Core.writeG_laq (c : Core) (r : GReg) (w : Word) : (c.writeG r w).laq = c.laq := by unfold Core.writeG; split <;> rfl
@[simp] theorem Core.writeG_sldq (c : Core) (r : GReg) (w : Word) : (c.writeG r w).sldq = c.sldq := by unfold Core.writeG; split <;> rfl
@[simp] theorem Core.writeG_vldq (c : Core) (r : GReg) (w : Word) : (c.writeG r w).vldq = c.vldq := by unfold Core.writeG; split <;> rfl
@[simp] theorem Core.writeG_ssdq (c : Core) (r : GReg) (w : Word) : (c.writeG r w).ssdq = c.ssdq := by unfold Core.writeG; split <;> rfl
@[simp] theorem Core.writeG_vsdq (c : Core) (r : GReg) (w : Word) : (c.writeG r w).vsdq = c.vsdq := by unfold Core.writeG; split <;> rfl
@[simp] theorem Core.writeG_veq (c : Core) (r : GReg) (w : Word) : (c.writeG r w).veq = c.veq := by unfold Core.writeG; split <;> rfl
@[simp] theorem Core.writeG_meq (c : Core) (r : GReg) (w : Word) : (c.writeG r w).meq = c.meq := by unfold Core.writeG; split <;> rfl
@[simp] theorem Core.writeG_ceq (c : Core) (r : GReg) (w : Word) : (c.writeG r w).ceq = c.ceq := by unfold Core.writeG; split <;> rfl
@[simp] theorem Core.writeG_vbusy (c : Core) (r : GReg) (w : Word) : (c.writeG r w).vbusy = c.vbusy := by unfold Core.writeG; split <;> rfl
@[simp] theorem Core.writeG_fences (c : Core) (r : GReg) (w : Word) : (c.writeG r w).fences = c.fences := by unfold Core.writeG; split <;> rfl
@[simp] theorem Core.writeG_later (c : Core) (r : GReg) (w : Word) : (c.writeG r w).later = c.later := by unfold Core.writeG; split <;> rfl
@[simp] theorem Core.writeG_copies (c : Core) (r : GReg) (w : Word) : (c.writeG r w).copies = c.copies := by unfold Core.writeG; split <;> rfl
@[simp] theorem Core.writeG_rings (c : Core) (r : GReg) (w : Word) : (c.writeG r w).rings = c.rings := by unfold Core.writeG; split <;> rfl
@[simp] theorem Core.writeG_watches (c : Core) (r : GReg) (w : Word) : (c.writeG r w).watches = c.watches := by unfold Core.writeG; split <;> rfl
@[simp] theorem Core.writeG_wins (c : Core) (r : GReg) (w : Word) : (c.writeG r w).wins = c.wins := by unfold Core.writeG; split <;> rfl
@[simp] theorem Core.writeG_spad (c : Core) (r : GReg) (w : Word) : (c.writeG r w).spad = c.spad := by unfold Core.writeG; split <;> rfl
@[simp] theorem Core.writeG_banks (c : Core) (r : GReg) (w : Word) : (c.writeG r w).banks = c.banks := by unfold Core.writeG; split <;> rfl
@[simp] theorem Core.writeG_held (c : Core) (r : GReg) (w : Word) : (c.writeG r w).held = c.held := by unfold Core.writeG; split <;> rfl
@[simp] theorem Core.writeG_pend (c : Core) (r : GReg) (w : Word) : (c.writeG r w).pend = c.pend := by unfold Core.writeG; split <;> rfl
@[simp] theorem Core.writeG_irqs (c : Core) (r : GReg) (w : Word) : (c.writeG r w).irqs = c.irqs := by unfold Core.writeG; split <;> rfl
@[simp] theorem Core.writeG_vstat (c : Core) (r : GReg) (w : Word) : (c.writeG r w).vstat = c.vstat := by unfold Core.writeG; split <;> rfl
@[simp] theorem Core.writeG_mxstat (c : Core) (r : GReg) (w : Word) : (c.writeG r w).mxstat = c.mxstat := by unfold Core.writeG; split <;> rfl
@[simp] theorem Core.writeG_region (c : Core) (r : GReg) (w : Word) : (c.writeG r w).region = c.region := by unfold Core.writeG; split <;> rfl
@[simp] theorem Core.writeG_run (c : Core) (r : GReg) (w : Word) : (c.writeG r w).run = c.run := by unfold Core.writeG; split <;> rfl
@[simp] theorem Core.writeG_next (c : Core) (r : GReg) (w : Word) : (c.writeG r w).next = c.next := by unfold Core.writeG; split <;> rfl
@[simp] theorem Core.writeG_olds (c : Core) (r : GReg) (w : Word) : (c.writeG r w).olds = c.olds := by unfold Core.writeG; split <;> rfl
@[simp] theorem Core.writeG_mine (c : Core) (r : GReg) (w : Word) : (c.writeG r w).mine = c.mine := by unfold Core.writeG; split <;> rfl
@[simp] theorem Core.writeG_mark (c : Core) (r : GReg) (w : Word) : (c.writeG r w).mark = c.mark := by unfold Core.writeG; split <;> rfl

/-! ### writeK -/

@[simp] theorem Core.writeK_die (c : Core) (r : KReg) (m : MaskWord) : (c.writeK r m).die = c.die := by unfold Core.writeK; split <;> rfl
@[simp] theorem Core.writeK_phys (c : Core) (r : KReg) (m : MaskWord) : (c.writeK r m).phys = c.phys := by unfold Core.writeK; split <;> rfl
@[simp] theorem Core.writeK_lcore (c : Core) (r : KReg) (m : MaskWord) : (c.writeK r m).lcore = c.lcore := by unfold Core.writeK; split <;> rfl
@[simp] theorem Core.writeK_spare (c : Core) (r : KReg) (m : MaskWord) : (c.writeK r m).spare = c.spare := by unfold Core.writeK; split <;> rfl
@[simp] theorem Core.writeK_cond (c : Core) (r : KReg) (m : MaskWord) : (c.writeK r m).cond = c.cond := by unfold Core.writeK; split <;> rfl
@[simp] theorem Core.writeK_g (c : Core) (r : KReg) (m : MaskWord) : (c.writeK r m).g = c.g := by unfold Core.writeK; split <;> rfl
@[simp] theorem Core.writeK_v (c : Core) (r : KReg) (m : MaskWord) : (c.writeK r m).v = c.v := by unfold Core.writeK; split <;> rfl
@[simp] theorem Core.writeK_loops (c : Core) (r : KReg) (m : MaskWord) : (c.writeK r m).loops = c.loops := by unfold Core.writeK; split <;> rfl
@[simp] theorem Core.writeK_acc (c : Core) (r : KReg) (m : MaskWord) : (c.writeK r m).acc = c.acc := by unfold Core.writeK; split <;> rfl
@[simp] theorem Core.writeK_accSat (c : Core) (r : KReg) (m : MaskWord) : (c.writeK r m).accSat = c.accSat := by unfold Core.writeK; split <;> rfl
@[simp] theorem Core.writeK_accPois (c : Core) (r : KReg) (m : MaskWord) : (c.writeK r m).accPois = c.accPois := by unfold Core.writeK; split <;> rfl
@[simp] theorem Core.writeK_rq (c : Core) (r : KReg) (m : MaskWord) : (c.writeK r m).rq = c.rq := by unfold Core.writeK; split <;> rfl
@[simp] theorem Core.writeK_bf (c : Core) (r : KReg) (m : MaskWord) : (c.writeK r m).bf = c.bf := by unfold Core.writeK; split <;> rfl
@[simp] theorem Core.writeK_pc (c : Core) (r : KReg) (m : MaskWord) : (c.writeK r m).pc = c.pc := by unfold Core.writeK; split <;> rfl
@[simp] theorem Core.writeK_level (c : Core) (r : KReg) (m : MaskWord) : (c.writeK r m).level = c.level := by unfold Core.writeK; split <;> rfl
@[simp] theorem Core.writeK_seq (c : Core) (r : KReg) (m : MaskWord) : (c.writeK r m).seq = c.seq := by unfold Core.writeK; split <;> rfl
@[simp] theorem Core.writeK_laq (c : Core) (r : KReg) (m : MaskWord) : (c.writeK r m).laq = c.laq := by unfold Core.writeK; split <;> rfl
@[simp] theorem Core.writeK_sldq (c : Core) (r : KReg) (m : MaskWord) : (c.writeK r m).sldq = c.sldq := by unfold Core.writeK; split <;> rfl
@[simp] theorem Core.writeK_vldq (c : Core) (r : KReg) (m : MaskWord) : (c.writeK r m).vldq = c.vldq := by unfold Core.writeK; split <;> rfl
@[simp] theorem Core.writeK_ssdq (c : Core) (r : KReg) (m : MaskWord) : (c.writeK r m).ssdq = c.ssdq := by unfold Core.writeK; split <;> rfl
@[simp] theorem Core.writeK_vsdq (c : Core) (r : KReg) (m : MaskWord) : (c.writeK r m).vsdq = c.vsdq := by unfold Core.writeK; split <;> rfl
@[simp] theorem Core.writeK_veq (c : Core) (r : KReg) (m : MaskWord) : (c.writeK r m).veq = c.veq := by unfold Core.writeK; split <;> rfl
@[simp] theorem Core.writeK_meq (c : Core) (r : KReg) (m : MaskWord) : (c.writeK r m).meq = c.meq := by unfold Core.writeK; split <;> rfl
@[simp] theorem Core.writeK_ceq (c : Core) (r : KReg) (m : MaskWord) : (c.writeK r m).ceq = c.ceq := by unfold Core.writeK; split <;> rfl
@[simp] theorem Core.writeK_vbusy (c : Core) (r : KReg) (m : MaskWord) : (c.writeK r m).vbusy = c.vbusy := by unfold Core.writeK; split <;> rfl
@[simp] theorem Core.writeK_fences (c : Core) (r : KReg) (m : MaskWord) : (c.writeK r m).fences = c.fences := by unfold Core.writeK; split <;> rfl
@[simp] theorem Core.writeK_later (c : Core) (r : KReg) (m : MaskWord) : (c.writeK r m).later = c.later := by unfold Core.writeK; split <;> rfl
@[simp] theorem Core.writeK_copies (c : Core) (r : KReg) (m : MaskWord) : (c.writeK r m).copies = c.copies := by unfold Core.writeK; split <;> rfl
@[simp] theorem Core.writeK_rings (c : Core) (r : KReg) (m : MaskWord) : (c.writeK r m).rings = c.rings := by unfold Core.writeK; split <;> rfl
@[simp] theorem Core.writeK_watches (c : Core) (r : KReg) (m : MaskWord) : (c.writeK r m).watches = c.watches := by unfold Core.writeK; split <;> rfl
@[simp] theorem Core.writeK_wins (c : Core) (r : KReg) (m : MaskWord) : (c.writeK r m).wins = c.wins := by unfold Core.writeK; split <;> rfl
@[simp] theorem Core.writeK_spad (c : Core) (r : KReg) (m : MaskWord) : (c.writeK r m).spad = c.spad := by unfold Core.writeK; split <;> rfl
@[simp] theorem Core.writeK_banks (c : Core) (r : KReg) (m : MaskWord) : (c.writeK r m).banks = c.banks := by unfold Core.writeK; split <;> rfl
@[simp] theorem Core.writeK_held (c : Core) (r : KReg) (m : MaskWord) : (c.writeK r m).held = c.held := by unfold Core.writeK; split <;> rfl
@[simp] theorem Core.writeK_pend (c : Core) (r : KReg) (m : MaskWord) : (c.writeK r m).pend = c.pend := by unfold Core.writeK; split <;> rfl
@[simp] theorem Core.writeK_irqs (c : Core) (r : KReg) (m : MaskWord) : (c.writeK r m).irqs = c.irqs := by unfold Core.writeK; split <;> rfl
@[simp] theorem Core.writeK_vstat (c : Core) (r : KReg) (m : MaskWord) : (c.writeK r m).vstat = c.vstat := by unfold Core.writeK; split <;> rfl
@[simp] theorem Core.writeK_mxstat (c : Core) (r : KReg) (m : MaskWord) : (c.writeK r m).mxstat = c.mxstat := by unfold Core.writeK; split <;> rfl
@[simp] theorem Core.writeK_region (c : Core) (r : KReg) (m : MaskWord) : (c.writeK r m).region = c.region := by unfold Core.writeK; split <;> rfl
@[simp] theorem Core.writeK_run (c : Core) (r : KReg) (m : MaskWord) : (c.writeK r m).run = c.run := by unfold Core.writeK; split <;> rfl
@[simp] theorem Core.writeK_next (c : Core) (r : KReg) (m : MaskWord) : (c.writeK r m).next = c.next := by unfold Core.writeK; split <;> rfl
@[simp] theorem Core.writeK_olds (c : Core) (r : KReg) (m : MaskWord) : (c.writeK r m).olds = c.olds := by unfold Core.writeK; split <;> rfl
@[simp] theorem Core.writeK_mine (c : Core) (r : KReg) (m : MaskWord) : (c.writeK r m).mine = c.mine := by unfold Core.writeK; split <;> rfl
@[simp] theorem Core.writeK_mark (c : Core) (r : KReg) (m : MaskWord) : (c.writeK r m).mark = c.mark := by unfold Core.writeK; split <;> rfl
@[simp] theorem Core.writeK_early (c : Core) (r : KReg) (m : MaskWord) : (c.writeK r m).early = c.early := by unfold Core.writeK; split <;> rfl

/-! ### pushG -/

@[simp] theorem Core.pushG_die (c : Core) (d : Option Word) : (c.pushG d).die = c.die := by unfold Core.pushG; split <;> rfl
@[simp] theorem Core.pushG_phys (c : Core) (d : Option Word) : (c.pushG d).phys = c.phys := by unfold Core.pushG; split <;> rfl
@[simp] theorem Core.pushG_lcore (c : Core) (d : Option Word) : (c.pushG d).lcore = c.lcore := by unfold Core.pushG; split <;> rfl
@[simp] theorem Core.pushG_spare (c : Core) (d : Option Word) : (c.pushG d).spare = c.spare := by unfold Core.pushG; split <;> rfl
@[simp] theorem Core.pushG_cond (c : Core) (d : Option Word) : (c.pushG d).cond = c.cond := by unfold Core.pushG; split <;> rfl
@[simp] theorem Core.pushG_g (c : Core) (d : Option Word) : (c.pushG d).g = c.g := by unfold Core.pushG; split <;> rfl
@[simp] theorem Core.pushG_v (c : Core) (d : Option Word) : (c.pushG d).v = c.v := by unfold Core.pushG; split <;> rfl
@[simp] theorem Core.pushG_k (c : Core) (d : Option Word) : (c.pushG d).k = c.k := by unfold Core.pushG; split <;> rfl
@[simp] theorem Core.pushG_loops (c : Core) (d : Option Word) : (c.pushG d).loops = c.loops := by unfold Core.pushG; split <;> rfl
@[simp] theorem Core.pushG_acc (c : Core) (d : Option Word) : (c.pushG d).acc = c.acc := by unfold Core.pushG; split <;> rfl
@[simp] theorem Core.pushG_accSat (c : Core) (d : Option Word) : (c.pushG d).accSat = c.accSat := by unfold Core.pushG; split <;> rfl
@[simp] theorem Core.pushG_accPois (c : Core) (d : Option Word) : (c.pushG d).accPois = c.accPois := by unfold Core.pushG; split <;> rfl
@[simp] theorem Core.pushG_rq (c : Core) (d : Option Word) : (c.pushG d).rq = c.rq := by unfold Core.pushG; split <;> rfl
@[simp] theorem Core.pushG_bf (c : Core) (d : Option Word) : (c.pushG d).bf = c.bf := by unfold Core.pushG; split <;> rfl
@[simp] theorem Core.pushG_pc (c : Core) (d : Option Word) : (c.pushG d).pc = c.pc := by unfold Core.pushG; split <;> rfl
@[simp] theorem Core.pushG_level (c : Core) (d : Option Word) : (c.pushG d).level = c.level := by unfold Core.pushG; split <;> rfl
@[simp] theorem Core.pushG_seq (c : Core) (d : Option Word) : (c.pushG d).seq = c.seq := by unfold Core.pushG; split <;> rfl
@[simp] theorem Core.pushG_sldq (c : Core) (d : Option Word) : (c.pushG d).sldq = c.sldq := by unfold Core.pushG; split <;> rfl
@[simp] theorem Core.pushG_vldq (c : Core) (d : Option Word) : (c.pushG d).vldq = c.vldq := by unfold Core.pushG; split <;> rfl
@[simp] theorem Core.pushG_vsdq (c : Core) (d : Option Word) : (c.pushG d).vsdq = c.vsdq := by unfold Core.pushG; split <;> rfl
@[simp] theorem Core.pushG_veq (c : Core) (d : Option Word) : (c.pushG d).veq = c.veq := by unfold Core.pushG; split <;> rfl
@[simp] theorem Core.pushG_meq (c : Core) (d : Option Word) : (c.pushG d).meq = c.meq := by unfold Core.pushG; split <;> rfl
@[simp] theorem Core.pushG_ceq (c : Core) (d : Option Word) : (c.pushG d).ceq = c.ceq := by unfold Core.pushG; split <;> rfl
@[simp] theorem Core.pushG_vbusy (c : Core) (d : Option Word) : (c.pushG d).vbusy = c.vbusy := by unfold Core.pushG; split <;> rfl
@[simp] theorem Core.pushG_fences (c : Core) (d : Option Word) : (c.pushG d).fences = c.fences := by unfold Core.pushG; split <;> rfl
@[simp] theorem Core.pushG_later (c : Core) (d : Option Word) : (c.pushG d).later = c.later := by unfold Core.pushG; split <;> rfl
@[simp] theorem Core.pushG_copies (c : Core) (d : Option Word) : (c.pushG d).copies = c.copies := by unfold Core.pushG; split <;> rfl
@[simp] theorem Core.pushG_rings (c : Core) (d : Option Word) : (c.pushG d).rings = c.rings := by unfold Core.pushG; split <;> rfl
@[simp] theorem Core.pushG_watches (c : Core) (d : Option Word) : (c.pushG d).watches = c.watches := by unfold Core.pushG; split <;> rfl
@[simp] theorem Core.pushG_wins (c : Core) (d : Option Word) : (c.pushG d).wins = c.wins := by unfold Core.pushG; split <;> rfl
@[simp] theorem Core.pushG_spad (c : Core) (d : Option Word) : (c.pushG d).spad = c.spad := by unfold Core.pushG; split <;> rfl
@[simp] theorem Core.pushG_banks (c : Core) (d : Option Word) : (c.pushG d).banks = c.banks := by unfold Core.pushG; split <;> rfl
@[simp] theorem Core.pushG_held (c : Core) (d : Option Word) : (c.pushG d).held = c.held := by unfold Core.pushG; split <;> rfl
@[simp] theorem Core.pushG_pend (c : Core) (d : Option Word) : (c.pushG d).pend = c.pend := by unfold Core.pushG; split <;> rfl
@[simp] theorem Core.pushG_irqs (c : Core) (d : Option Word) : (c.pushG d).irqs = c.irqs := by unfold Core.pushG; split <;> rfl
@[simp] theorem Core.pushG_vstat (c : Core) (d : Option Word) : (c.pushG d).vstat = c.vstat := by unfold Core.pushG; split <;> rfl
@[simp] theorem Core.pushG_mxstat (c : Core) (d : Option Word) : (c.pushG d).mxstat = c.mxstat := by unfold Core.pushG; split <;> rfl
@[simp] theorem Core.pushG_region (c : Core) (d : Option Word) : (c.pushG d).region = c.region := by unfold Core.pushG; split <;> rfl
@[simp] theorem Core.pushG_run (c : Core) (d : Option Word) : (c.pushG d).run = c.run := by unfold Core.pushG; split <;> rfl
@[simp] theorem Core.pushG_next (c : Core) (d : Option Word) : (c.pushG d).next = c.next := by unfold Core.pushG; split <;> rfl
@[simp] theorem Core.pushG_olds (c : Core) (d : Option Word) : (c.pushG d).olds = c.olds := by unfold Core.pushG; split <;> rfl
@[simp] theorem Core.pushG_mark (c : Core) (d : Option Word) : (c.pushG d).mark = c.mark := by unfold Core.pushG; split <;> rfl
@[simp] theorem Core.pushG_early (c : Core) (d : Option Word) : (c.pushG d).early = c.early := by unfold Core.pushG; split <;> rfl

/-! ### pushV -/

@[simp] theorem Core.pushV_die (c : Core) (d : Option VWord) : (c.pushV d).die = c.die := by unfold Core.pushV; split <;> rfl
@[simp] theorem Core.pushV_phys (c : Core) (d : Option VWord) : (c.pushV d).phys = c.phys := by unfold Core.pushV; split <;> rfl
@[simp] theorem Core.pushV_lcore (c : Core) (d : Option VWord) : (c.pushV d).lcore = c.lcore := by unfold Core.pushV; split <;> rfl
@[simp] theorem Core.pushV_spare (c : Core) (d : Option VWord) : (c.pushV d).spare = c.spare := by unfold Core.pushV; split <;> rfl
@[simp] theorem Core.pushV_cond (c : Core) (d : Option VWord) : (c.pushV d).cond = c.cond := by unfold Core.pushV; split <;> rfl
@[simp] theorem Core.pushV_g (c : Core) (d : Option VWord) : (c.pushV d).g = c.g := by unfold Core.pushV; split <;> rfl
@[simp] theorem Core.pushV_v (c : Core) (d : Option VWord) : (c.pushV d).v = c.v := by unfold Core.pushV; split <;> rfl
@[simp] theorem Core.pushV_k (c : Core) (d : Option VWord) : (c.pushV d).k = c.k := by unfold Core.pushV; split <;> rfl
@[simp] theorem Core.pushV_loops (c : Core) (d : Option VWord) : (c.pushV d).loops = c.loops := by unfold Core.pushV; split <;> rfl
@[simp] theorem Core.pushV_acc (c : Core) (d : Option VWord) : (c.pushV d).acc = c.acc := by unfold Core.pushV; split <;> rfl
@[simp] theorem Core.pushV_accSat (c : Core) (d : Option VWord) : (c.pushV d).accSat = c.accSat := by unfold Core.pushV; split <;> rfl
@[simp] theorem Core.pushV_accPois (c : Core) (d : Option VWord) : (c.pushV d).accPois = c.accPois := by unfold Core.pushV; split <;> rfl
@[simp] theorem Core.pushV_rq (c : Core) (d : Option VWord) : (c.pushV d).rq = c.rq := by unfold Core.pushV; split <;> rfl
@[simp] theorem Core.pushV_bf (c : Core) (d : Option VWord) : (c.pushV d).bf = c.bf := by unfold Core.pushV; split <;> rfl
@[simp] theorem Core.pushV_pc (c : Core) (d : Option VWord) : (c.pushV d).pc = c.pc := by unfold Core.pushV; split <;> rfl
@[simp] theorem Core.pushV_level (c : Core) (d : Option VWord) : (c.pushV d).level = c.level := by unfold Core.pushV; split <;> rfl
@[simp] theorem Core.pushV_seq (c : Core) (d : Option VWord) : (c.pushV d).seq = c.seq := by unfold Core.pushV; split <;> rfl
@[simp] theorem Core.pushV_sldq (c : Core) (d : Option VWord) : (c.pushV d).sldq = c.sldq := by unfold Core.pushV; split <;> rfl
@[simp] theorem Core.pushV_vldq (c : Core) (d : Option VWord) : (c.pushV d).vldq = c.vldq := by unfold Core.pushV; split <;> rfl
@[simp] theorem Core.pushV_ssdq (c : Core) (d : Option VWord) : (c.pushV d).ssdq = c.ssdq := by unfold Core.pushV; split <;> rfl
@[simp] theorem Core.pushV_veq (c : Core) (d : Option VWord) : (c.pushV d).veq = c.veq := by unfold Core.pushV; split <;> rfl
@[simp] theorem Core.pushV_meq (c : Core) (d : Option VWord) : (c.pushV d).meq = c.meq := by unfold Core.pushV; split <;> rfl
@[simp] theorem Core.pushV_ceq (c : Core) (d : Option VWord) : (c.pushV d).ceq = c.ceq := by unfold Core.pushV; split <;> rfl
@[simp] theorem Core.pushV_vbusy (c : Core) (d : Option VWord) : (c.pushV d).vbusy = c.vbusy := by unfold Core.pushV; split <;> rfl
@[simp] theorem Core.pushV_fences (c : Core) (d : Option VWord) : (c.pushV d).fences = c.fences := by unfold Core.pushV; split <;> rfl
@[simp] theorem Core.pushV_later (c : Core) (d : Option VWord) : (c.pushV d).later = c.later := by unfold Core.pushV; split <;> rfl
@[simp] theorem Core.pushV_copies (c : Core) (d : Option VWord) : (c.pushV d).copies = c.copies := by unfold Core.pushV; split <;> rfl
@[simp] theorem Core.pushV_rings (c : Core) (d : Option VWord) : (c.pushV d).rings = c.rings := by unfold Core.pushV; split <;> rfl
@[simp] theorem Core.pushV_watches (c : Core) (d : Option VWord) : (c.pushV d).watches = c.watches := by unfold Core.pushV; split <;> rfl
@[simp] theorem Core.pushV_wins (c : Core) (d : Option VWord) : (c.pushV d).wins = c.wins := by unfold Core.pushV; split <;> rfl
@[simp] theorem Core.pushV_spad (c : Core) (d : Option VWord) : (c.pushV d).spad = c.spad := by unfold Core.pushV; split <;> rfl
@[simp] theorem Core.pushV_banks (c : Core) (d : Option VWord) : (c.pushV d).banks = c.banks := by unfold Core.pushV; split <;> rfl
@[simp] theorem Core.pushV_held (c : Core) (d : Option VWord) : (c.pushV d).held = c.held := by unfold Core.pushV; split <;> rfl
@[simp] theorem Core.pushV_pend (c : Core) (d : Option VWord) : (c.pushV d).pend = c.pend := by unfold Core.pushV; split <;> rfl
@[simp] theorem Core.pushV_irqs (c : Core) (d : Option VWord) : (c.pushV d).irqs = c.irqs := by unfold Core.pushV; split <;> rfl
@[simp] theorem Core.pushV_vstat (c : Core) (d : Option VWord) : (c.pushV d).vstat = c.vstat := by unfold Core.pushV; split <;> rfl
@[simp] theorem Core.pushV_mxstat (c : Core) (d : Option VWord) : (c.pushV d).mxstat = c.mxstat := by unfold Core.pushV; split <;> rfl
@[simp] theorem Core.pushV_region (c : Core) (d : Option VWord) : (c.pushV d).region = c.region := by unfold Core.pushV; split <;> rfl
@[simp] theorem Core.pushV_run (c : Core) (d : Option VWord) : (c.pushV d).run = c.run := by unfold Core.pushV; split <;> rfl
@[simp] theorem Core.pushV_next (c : Core) (d : Option VWord) : (c.pushV d).next = c.next := by unfold Core.pushV; split <;> rfl
@[simp] theorem Core.pushV_olds (c : Core) (d : Option VWord) : (c.pushV d).olds = c.olds := by unfold Core.pushV; split <;> rfl
@[simp] theorem Core.pushV_mark (c : Core) (d : Option VWord) : (c.pushV d).mark = c.mark := by unfold Core.pushV; split <;> rfl
@[simp] theorem Core.pushV_early (c : Core) (d : Option VWord) : (c.pushV d).early = c.early := by unfold Core.pushV; split <;> rfl

/-! ### putBank -/

@[simp] theorem Core.putBank_die (c : Core) (l : Nat) (b : TrapBank) : (c.putBank l b).die = c.die := rfl
@[simp] theorem Core.putBank_phys (c : Core) (l : Nat) (b : TrapBank) : (c.putBank l b).phys = c.phys := rfl
@[simp] theorem Core.putBank_lcore (c : Core) (l : Nat) (b : TrapBank) : (c.putBank l b).lcore = c.lcore := rfl
@[simp] theorem Core.putBank_spare (c : Core) (l : Nat) (b : TrapBank) : (c.putBank l b).spare = c.spare := rfl
@[simp] theorem Core.putBank_cond (c : Core) (l : Nat) (b : TrapBank) : (c.putBank l b).cond = c.cond := rfl
@[simp] theorem Core.putBank_g (c : Core) (l : Nat) (b : TrapBank) : (c.putBank l b).g = c.g := rfl
@[simp] theorem Core.putBank_v (c : Core) (l : Nat) (b : TrapBank) : (c.putBank l b).v = c.v := rfl
@[simp] theorem Core.putBank_k (c : Core) (l : Nat) (b : TrapBank) : (c.putBank l b).k = c.k := rfl
@[simp] theorem Core.putBank_loops (c : Core) (l : Nat) (b : TrapBank) : (c.putBank l b).loops = c.loops := rfl
@[simp] theorem Core.putBank_acc (c : Core) (l : Nat) (b : TrapBank) : (c.putBank l b).acc = c.acc := rfl
@[simp] theorem Core.putBank_accSat (c : Core) (l : Nat) (b : TrapBank) : (c.putBank l b).accSat = c.accSat := rfl
@[simp] theorem Core.putBank_accPois (c : Core) (l : Nat) (b : TrapBank) : (c.putBank l b).accPois = c.accPois := rfl
@[simp] theorem Core.putBank_rq (c : Core) (l : Nat) (b : TrapBank) : (c.putBank l b).rq = c.rq := rfl
@[simp] theorem Core.putBank_bf (c : Core) (l : Nat) (b : TrapBank) : (c.putBank l b).bf = c.bf := rfl
@[simp] theorem Core.putBank_pc (c : Core) (l : Nat) (b : TrapBank) : (c.putBank l b).pc = c.pc := rfl
@[simp] theorem Core.putBank_level (c : Core) (l : Nat) (b : TrapBank) : (c.putBank l b).level = c.level := rfl
@[simp] theorem Core.putBank_seq (c : Core) (l : Nat) (b : TrapBank) : (c.putBank l b).seq = c.seq := rfl
@[simp] theorem Core.putBank_laq (c : Core) (l : Nat) (b : TrapBank) : (c.putBank l b).laq = c.laq := rfl
@[simp] theorem Core.putBank_sldq (c : Core) (l : Nat) (b : TrapBank) : (c.putBank l b).sldq = c.sldq := rfl
@[simp] theorem Core.putBank_vldq (c : Core) (l : Nat) (b : TrapBank) : (c.putBank l b).vldq = c.vldq := rfl
@[simp] theorem Core.putBank_ssdq (c : Core) (l : Nat) (b : TrapBank) : (c.putBank l b).ssdq = c.ssdq := rfl
@[simp] theorem Core.putBank_vsdq (c : Core) (l : Nat) (b : TrapBank) : (c.putBank l b).vsdq = c.vsdq := rfl
@[simp] theorem Core.putBank_veq (c : Core) (l : Nat) (b : TrapBank) : (c.putBank l b).veq = c.veq := rfl
@[simp] theorem Core.putBank_meq (c : Core) (l : Nat) (b : TrapBank) : (c.putBank l b).meq = c.meq := rfl
@[simp] theorem Core.putBank_ceq (c : Core) (l : Nat) (b : TrapBank) : (c.putBank l b).ceq = c.ceq := rfl
@[simp] theorem Core.putBank_vbusy (c : Core) (l : Nat) (b : TrapBank) : (c.putBank l b).vbusy = c.vbusy := rfl
@[simp] theorem Core.putBank_fences (c : Core) (l : Nat) (b : TrapBank) : (c.putBank l b).fences = c.fences := rfl
@[simp] theorem Core.putBank_later (c : Core) (l : Nat) (b : TrapBank) : (c.putBank l b).later = c.later := rfl
@[simp] theorem Core.putBank_copies (c : Core) (l : Nat) (b : TrapBank) : (c.putBank l b).copies = c.copies := rfl
@[simp] theorem Core.putBank_rings (c : Core) (l : Nat) (b : TrapBank) : (c.putBank l b).rings = c.rings := rfl
@[simp] theorem Core.putBank_watches (c : Core) (l : Nat) (b : TrapBank) : (c.putBank l b).watches = c.watches := rfl
@[simp] theorem Core.putBank_wins (c : Core) (l : Nat) (b : TrapBank) : (c.putBank l b).wins = c.wins := rfl
@[simp] theorem Core.putBank_spad (c : Core) (l : Nat) (b : TrapBank) : (c.putBank l b).spad = c.spad := rfl
@[simp] theorem Core.putBank_held (c : Core) (l : Nat) (b : TrapBank) : (c.putBank l b).held = c.held := rfl
@[simp] theorem Core.putBank_pend (c : Core) (l : Nat) (b : TrapBank) : (c.putBank l b).pend = c.pend := rfl
@[simp] theorem Core.putBank_irqs (c : Core) (l : Nat) (b : TrapBank) : (c.putBank l b).irqs = c.irqs := rfl
@[simp] theorem Core.putBank_vstat (c : Core) (l : Nat) (b : TrapBank) : (c.putBank l b).vstat = c.vstat := rfl
@[simp] theorem Core.putBank_mxstat (c : Core) (l : Nat) (b : TrapBank) : (c.putBank l b).mxstat = c.mxstat := rfl
@[simp] theorem Core.putBank_region (c : Core) (l : Nat) (b : TrapBank) : (c.putBank l b).region = c.region := rfl
@[simp] theorem Core.putBank_run (c : Core) (l : Nat) (b : TrapBank) : (c.putBank l b).run = c.run := rfl
@[simp] theorem Core.putBank_next (c : Core) (l : Nat) (b : TrapBank) : (c.putBank l b).next = c.next := rfl
@[simp] theorem Core.putBank_olds (c : Core) (l : Nat) (b : TrapBank) : (c.putBank l b).olds = c.olds := rfl
@[simp] theorem Core.putBank_mine (c : Core) (l : Nat) (b : TrapBank) : (c.putBank l b).mine = c.mine := rfl
@[simp] theorem Core.putBank_mark (c : Core) (l : Nat) (b : TrapBank) : (c.putBank l b).mark = c.mark := rfl
@[simp] theorem Core.putBank_early (c : Core) (l : Nat) (b : TrapBank) : (c.putBank l b).early = c.early := rfl

/-! ### Register files -/

/-- A g register after a write: the value, where the register is written and not g0. -/
theorem Core.writeG_get (c : Core) (r : GReg) (w : Word) (n : Fin 64) :
    (c.writeG r w).g.get n = if r ≠ 0 ∧ n.val = r.toNat then w else c.g.get n := by
  unfold Core.writeG
  split
  · next h => simp [h]
  · next h =>
    have e (v : Vector Word 64) : v.get n = v[n.val] := rfl
    rw [e, e, Vector.getElem_set]
    by_cases hn : r.toNat = n.val
    · rw [if_pos hn, if_pos ⟨h, hn.symm⟩]
    · rw [if_neg hn, if_neg fun x => hn x.2.symm]

/-- g0 discards. -/
@[simp] theorem Core.writeG_zero (c : Core) (w : Word) : c.writeG 0 w = c := rfl
/-- k0 discards. -/
@[simp] theorem Core.writeK_zero (c : Core) (m : MaskWord) : c.writeK 0 m = c := rfl
/-- g0 reads zero. -/
@[simp] theorem Core.gVal_zero (c : Core) : c.gVal 0 = 0 := rfl
/-- k0 reads all ones. -/
@[simp] theorem Core.kVal_zero (c : Core) : c.kVal 0 = BitVec.allOnes 256 := rfl

end Sys2Proof.Machine
end

