-- ==== Sys2Proof/Laws/Ops.lean ====
section
/-!
SUPPORT. What each shared operation can do, said once: the cases of a register read, of a write, of a transfer and of a trap entry; what
a write of memory leaves, and that every such operation keeps memory canonical.
-/

namespace Sys2Proof.Machine

/-! ### Outcomes -/

@[simp] theorem done_next (s : State) : done s = .next s := rfl
@[simp] theorem done_inj (s t : State) : (done s = .next t) = (s = t) := by simp [done]
/-- A stall changes the mark alone. -/
theorem stall_next (s : State) : stall s = .next { s with core := { s.core with mark := .stall } } := rfl

/-! ### Reading g registers -/

/-- Any register but the queue port is read where it stands. -/
theorem getG_reg {r : GReg} (h : r ≠ 63) (s : State) (k : Word → State → Outcome) : getG r s k = k (s.core.gVal r) s := if_neg h

/-- The queue port with an entry that is there, with nothing queued before it that pops. -/
theorem getG_pop {s : State} {e : DataEntry 64} {r : List (DataEntry 64)} {w : Word} (hq : s.core.sldq = e :: r) (hp : s.core.gPops = 0)
    (hv : e.val = some w) (hb : e.poison = false) (k : Word → State → Outcome) :
    getG 63 s k = k w { s with core := { s.core with sldq := r } } := by
  simp [getG, popG, hq, hp, hv, hb]

/-- All that a read of a g source can come to: the value of the register, the popped entry, a wait that changes the mark alone,
or one of two traps. -/
theorem getG_cases (r : GReg) (s : State) (k : Word → State → Outcome) :
    (r ≠ 63 ∧ getG r s k = k (s.core.gVal r) s) ∨
    (∃ e q w, r = 63 ∧ s.core.sldq = e :: q ∧ e.val = some w ∧ e.poison = false ∧
      getG r s k = k w { s with core := { s.core with sldq := q } }) ∨
    (r = 63 ∧ getG r s k = stall s) ∨ (∃ q, r = 63 ∧ getG r s k = trap 0x005 q 0 s) ∨ (∃ a, r = 63 ∧ getG r s k = trap 0x01A a 0 s) := by
  by_cases hr : r = 63
  · right
    have hg : getG r s k = popG s k := if_pos hr
    rw [hg]
    unfold popG
    cases hq : s.core.sldq with
    | nil => exact .inr (.inr (.inl ⟨1, hr, rfl⟩))
    | cons e q =>
      by_cases hp : s.core.gPops = 0
      · cases hv : e.val with
        | none =>
          cases hx : s.core.stuckStore e.id with
          | none => exact .inr (.inl ⟨hr, by simp only [hp, hv, hx, ne_eq, not_true_eq_false, if_false]⟩)
          | some n => exact .inr (.inr (.inl ⟨BitVec.ofNat 64 n, hr, by simp only [hp, hv, hx, ne_eq, not_true_eq_false, if_false]⟩))
        | some w =>
          cases hb : e.poison with
          | false =>
            exact .inl ⟨e, q, w, hr, rfl, hv, hb, by simp only [hp, hv, hb, ne_eq, not_true_eq_false, if_false, Bool.false_eq_true]⟩
          | true => exact .inr (.inr (.inr ⟨e.addr, hr, by simp only [hp, hv, hb, ne_eq, not_true_eq_false, if_false, if_true]⟩))
      · exact .inr (.inl ⟨hr, by simp only [ne_eq, hp, not_false_eq_true, if_true]⟩)
  · exact .inl ⟨hr, if_neg hr⟩

/-- g0 reads zero. -/
@[simp] theorem gVal_zero (c : Core) : c.gVal 0 = 0 := rfl
/-- k0 reads all ones. -/
@[simp] theorem kVal_zero (c : Core) : c.kVal 0 = BitVec.allOnes 256 := rfl
/-- With nothing written earlier in the bundle, a register reads as it stands. -/
theorem gVal_plain {c : Core} {r : GReg} (h : r ≠ 0) (he : c.early = []) : c.gVal r = c.g.get ⟨r.toNat, r.isLt⟩ := by
  simp only [Core.gVal, if_neg h, he, overlay, Option.getD_none]

/-! ### Writing g, k and v registers -/

/-- An entry of a vector of registers after one is set. -/
theorem get_set {α : Type} {n : Nat} (v : Vector α n) (i j : Nat) (hi : i < n) (hj : j < n) (x : α) :
    (v.set i x hi).get ⟨j, hj⟩ = if i = j then x else v.get ⟨j, hj⟩ := by
  change (v.set i x hi)[j] = _
  rw [Vector.getElem_set]
  rfl


/-- g0 discards. -/
@[simp] theorem writeG_zero (c : Core) (w : Word) : c.writeG 0 w = c := rfl
/-- A written register holds the word. -/
theorem writeG_self {c : Core} {r : GReg} (h : r ≠ 0) (w : Word) : (c.writeG r w).g.get ⟨r.toNat, r.isLt⟩ = w := by
  rw [Core.writeG, if_neg h]; simp only [get_set, if_true]
/-- Every other register stands. -/
theorem writeG_other {c : Core} {r x : GReg} (h : x ≠ r) (w : Word) :
    (c.writeG r w).g.get ⟨x.toNat, x.isLt⟩ = c.g.get ⟨x.toNat, x.isLt⟩ := by
  have hn : r.toNat ≠ x.toNat := fun e => h (BitVec.eq_of_toNat_eq e.symm)
  by_cases hr : r = 0
  · subst hr; rfl
  · rw [Core.writeG, if_neg hr]; simp only [get_set, if_neg hn]
/-- What a write of a g register leaves of the core. -/
theorem writeG_frame (c : Core) (r : GReg) (w : Word) :
    (c.writeG r w).v = c.v ∧ (c.writeG r w).k = c.k ∧ (c.writeG r w).acc = c.acc ∧ (c.writeG r w).spad = c.spad ∧
    (c.writeG r w).banks = c.banks ∧ (c.writeG r w).level = c.level ∧ (c.writeG r w).pc = c.pc ∧ (c.writeG r w).loops = c.loops ∧
    (c.writeG r w).id = c.id ∧ (c.writeG r w).mark = c.mark := by
  by_cases h : r = 0
  · subst h; exact ⟨rfl, rfl, rfl, rfl, rfl, rfl, rfl, rfl, rfl, rfl⟩
  · rw [Core.writeG, if_neg h]; exact ⟨rfl, rfl, rfl, rfl, rfl, rfl, rfl, rfl, rfl, rfl⟩
/-- k0 discards. -/
@[simp] theorem writeK_zero (c : Core) (m : MaskWord) : c.writeK 0 m = c := rfl
/-- A written mask holds the word. -/
theorem writeK_self {c : Core} {r : KReg} (h : r ≠ 0) (m : MaskWord) : (c.writeK r m).k.get ⟨r.toNat, r.isLt⟩ = m := by
  rw [Core.writeK, if_neg h]; simp only [get_set, if_true]
/-- A written vector register holds the word. -/
theorem writeV_self (c : Core) (r : VReg) (v : VWord) : (c.writeV r v).v.get ⟨r.toNat, r.isLt⟩ = v :=
  by simp only [Core.writeV, get_set, if_true]

/-- A g destination that is no queue port. -/
theorem setG_reg {r : GReg} (h : r ≠ 63) (w : Word) (s : State) : setG r w s = .next { s with core := s.core.writeG r w } := by
  rw [setG, if_neg h, done]
/-- The queue port with room and no push queued before it. -/
theorem setG_push {s : State} (hp : s.core.gPushes = 0) (hr : s.core.ssdq.length < 32) (w : Word) :
    setG 63 w s = .next { s with core := s.core.pushG (some w) } := by
  simp [setG, hp, Nat.not_le.2 hr, done]

/-! ### Transfers -/

/-- A valid target is the next bundle; any other traps and nothing else happens. -/
theorem transfer_cases (t : Word) (s : State) (k : State → Outcome) :
    (validTarget t = true ∧ transfer t s k = k { s with core := { s.core with next := t } }) ∨
    (validTarget t = false ∧ transfer t s k = trap 0x006 t 0 s) := by
  by_cases h : validTarget t = true
  · exact .inl ⟨h, by simp [transfer, h]⟩
  · exact .inr ⟨by simpa using h, by simp [transfer, h]⟩

/-! ### Traps -/

/-- A trap of a front slot changes nothing but what its entry, or the wait for it, changes. -/
theorem trap_next (code : Nat) (x y : Word) (s : State) :
    trap code x y s = .next (let t := s.preciseTrap code x y; { takeTrap t s with core := { (takeTrap t s).core with mark := .trap t } }) := rfl

/-- A trap taken while an engine still works waits for it. -/
theorem takeTrap_waits {s : State} (h : s.core.drained = false) (t : Trap) :
    takeTrap t s = { s with core := { s.core with pend := some t } } := by simp [takeTrap, h]

/-- Entering a trap leaves memory, every g, v and k register and every other core as they are. -/
theorem enterTrap_frame (t : Trap) (s : State) :
    (enterTrap t s).mem = s.mem ∧ (enterTrap t s).core.g = s.core.g ∧ (enterTrap t s).core.v = s.core.v ∧
    (enterTrap t s).core.k = s.core.k ∧ (enterTrap t s).core.acc = s.core.acc ∧ (enterTrap t s).core.spad = s.core.spad ∧
    (enterTrap t s).others = s.others := by
  unfold enterTrap
  split
  · simp [Core.putBank]
  · exact ⟨rfl, rfl, rfl, rfl, rfl, rfl, rfl⟩

/-! ### Cores -/

@[simp] theorem coreAt_self (s : State) : s.coreAt s.core.id = s.core := by simp [State.coreAt]
@[simp] theorem focus_self (s : State) : s.focus s.core.id = s := by simp [State.focus]
@[simp] theorem focus_mem (s : State) (n : Nat) : (s.focus n).mem = s.mem := by unfold State.focus; split <;> rfl
@[simp] theorem putCore_mem (s : State) (c : Core) : (s.putCore c).mem = s.mem := by unfold State.putCore; split <;> rfl
@[simp] theorem mapCores_mem (s : State) (f : Core → Core) : (s.mapCores f).mem = s.mem := rfl
/-- A core put back is the one found there. -/
theorem coreAt_putCore (s : State) (c : Core) : (s.putCore c).coreAt c.id = c := by
  unfold State.putCore State.coreAt
  split
  · simp
  · simp [assocGet_assocPut_self]
/-- A focused core is the current one. -/
theorem focus_core {s : State} {n : Nat} (h : n ≠ s.core.id) : (s.focus n).core = s.coreAt n := by simp [State.focus, h]

/-! ### Writing memory -/

@[simp] theorem noteDirty_mem (s : State) (pa : Nat) : (s.noteDirty pa).mem = s.mem := by
  simp only [State.noteDirty]; split <;> split <;> rfl
@[simp] theorem seeGlobal_spad (lo hi : Nat) (c : Core) : (c.seeGlobal lo hi).spad = c.spad := by
  unfold Core.seeGlobal Core.wakeWatch; split <;> (try split) <;> rfl
@[simp] theorem seeSpad_spad (lo hi : Nat) (c : Core) : (c.seeSpad lo hi).spad = c.spad := by
  unfold Core.seeSpad Core.wakeWatch; split <;> (try split) <;> rfl
@[simp] theorem seeGlobal_g (lo hi : Nat) (c : Core) : (c.seeGlobal lo hi).g = c.g := by
  unfold Core.seeGlobal Core.wakeWatch; split <;> (try split) <;> rfl
@[simp] theorem seeGlobal_v (lo hi : Nat) (c : Core) : (c.seeGlobal lo hi).v = c.v := by
  unfold Core.seeGlobal Core.wakeWatch; split <;> (try split) <;> rfl
@[simp] theorem noteDirty_core (s : State) (pa : Nat) : (s.noteDirty pa).core = s.core := by
  simp only [State.noteDirty]; split <;> split <;> rfl

/-- All that the bytes of a write do to memory: they are there, unless there are none or the host is dark. -/
theorem writeRaw_mem (s : State) (pa : Nat) (bs : List Byte) :
    (s.writeRaw pa bs).mem = if (bs.isEmpty || (s.mem.dark && inHost pa)) = true then s.mem else s.mem.write pa bs := by
  unfold State.writeRaw
  split
  · rfl
  · simp
/-- They leave the core's registers and its scratchpad. -/
theorem writeRaw_core (s : State) (pa : Nat) (bs : List Byte) :
    (s.writeRaw pa bs).core.g = s.core.g ∧ (s.writeRaw pa bs).core.v = s.core.v ∧ (s.writeRaw pa bs).core.spad = s.core.spad := by
  unfold State.writeRaw
  split
  · exact ⟨rfl, rfl, rfl⟩
  · simp [State.mapCores]
/-- A fill of a tile: nothing when it is in the cache; else it comes in, and where the tag check fails its other bits are installed, and no byte
changes. -/
theorem fillTile_cases (s : State) (n : Nat) :
    (s.tileOf n).inCache = true ∧ s.fillTile n = (s, false) ∨
    (s.tileOf n).inCache = false ∧ ∃ t, (s.fillTile n).1.tiles = assocPut s.tiles n t ∧ t.inCache = true ∧
      ((s.fillTile n).2 = false ∧ (s.fillTile n).1.mem = s.mem ∨
        (s.fillTile n).2 = true ∧ (s.fillTile n).1.mem = s.mem.setTileBits n ([], (List.range 128).map fun i => 128 * n + i, true)) := by
  unfold State.fillTile
  cases h : (s.tileOf n).inCache
  · refine .inr ⟨rfl, ?_⟩
    simp only [h, Bool.false_eq_true, if_false]
    split
    · exact ⟨_, rfl, rfl, .inr ⟨rfl, rfl⟩⟩
    · exact ⟨_, rfl, rfl, .inl ⟨rfl, rfl⟩⟩
  · exact .inl ⟨rfl, by simp [h]⟩
/-- Tiles that are in the cache, or no device memory, are not touched. -/
theorem touchTiles_cached (s : State) : ∀ l : List Nat, (∀ n ∈ l, inDevice (n * 4096) = true → (s.tileOf n).inCache = true) →
    s.touchTiles l = (s, false)
  | [], _ => rfl
  | n :: l, h => by
    have hf : (if inDevice (n * 4096) then s.fillTile n else (s, false)) = (s, false) := by
      split
      · next hd => simp [State.fillTile, h n (.head _) hd]
      · rfl
    simp only [State.touchTiles, hf, Bool.false_eq_true, if_false, touchTiles_cached s l fun m hm => h m (.tail _ hm), Bool.or_self]
/-- A write whose tiles are in the cache is the write of its bytes. -/
theorem writePhys_cached (s : State) (pa : Nat) (bs : List Byte)
    (h : ∀ n ∈ tilesIn pa bs.length, inDevice (n * 4096) = true → (s.tileOf n).inCache = true) : s.writePhys pa bs = s.writeRaw pa bs := by
  simp only [State.writePhys, State.touchRange, touchTiles_cached s _ h]
/-- A write of the scratchpad leaves memory. -/
@[simp] theorem writeSpad_mem (s : State) (a : Nat) (bs : List Byte) : (s.writeSpad a bs).mem = s.mem := by
  unfold State.writeSpad; split <;> rfl
/-- All that it does to the scratchpad. -/
theorem writeSpad_spad (s : State) (a : Nat) (bs : List Byte) :
    (s.writeSpad a bs).core.spad = if bs.isEmpty then s.core.spad else s.core.spad.write a bs := by
  unfold State.writeSpad; split <;> simp_all
@[simp] theorem postWakes_mem (s : State) (sp : Bool) (l : List (Nat × Bool)) : (s.postWakes sp l).mem = s.mem := rfl
@[simp] theorem postWakes_core (s : State) (sp : Bool) (l : List (Nat × Bool)) : (s.postWakes sp l).core = s.core := rfl
/-- A full/empty bit of memory is given, and that bit alone. -/
theorem putFe_mem (s : State) (a : Nat) (v : Bool) : (s.putFe false a v).mem = s.mem.setFe a v := by simp [State.putFe]
/-- One of the scratchpad leaves memory. -/
@[simp] theorem putFe_true_mem (s : State) (a : Nat) (v : Bool) : (s.putFe true a v).mem = s.mem := rfl
/-- Setting a full/empty bit gives the word that bit, and may post a wake. -/
theorem setFeAt_cases (s : State) (sp : Bool) (a : Nat) (v : Bool) :
    s.setFeAt sp a v = s.putFe sp a v ∨ s.setFeAt sp a v = (s.putFe sp a v).postWakes sp [(wordNo a, v)] := by
  unfold State.setFeAt
  generalize (if sp = true then s.core.spad else s.mem).fe a = b
  by_cases h : b = v
  · exact .inl (if_pos h)
  · exact .inr (if_neg h)
/-- Of memory that bit alone is set. -/
theorem setFeAt_mem (s : State) (a : Nat) (v : Bool) : (s.setFeAt false a v).mem = s.mem.setFe a v := by
  rcases setFeAt_cases s false a v with h | h <;> simp [h, putFe_mem]
/-- Setting one of the scratchpad leaves memory. -/
@[simp] theorem setFeAt_true_mem (s : State) (a : Nat) (v : Bool) : (s.setFeAt true a v).mem = s.mem := by
  rcases setFeAt_cases s true a v with h | h <;> simp [h]
/-- And sets that bit of the scratchpad alone. -/
theorem setFeAt_spad (s : State) (a : Nat) (v : Bool) : (s.setFeAt true a v).core.spad = s.core.spad.setFe a v := by
  rcases setFeAt_cases s true a v with h | h <;> simp [h, State.putFe]

/-! ### Canonical form -/

theorem wf_writeRaw {s : State} (h : Memory.wf s.mem = true) (pa : Nat) (bs : List Byte) : Memory.wf (s.writeRaw pa bs).mem = true := by
  rw [writeRaw_mem]; split
  · exact h
  · exact Memory.wf_write h pa bs
theorem wf_fillTile {s : State} (h : Memory.wf s.mem = true) (n : Nat) : Memory.wf (s.fillTile n).1.mem = true := by
  rcases fillTile_cases s n with ⟨-, hf⟩ | ⟨-, t, -, -, ⟨-, hm⟩ | ⟨-, hm⟩⟩
  · rw [hf]; exact h
  · rw [hm]; exact h
  · rw [hm]; exact Memory.wf_setTileBits h n _
theorem wf_writeSpad {s : State} (h : Memory.wf s.core.spad = true) (a : Nat) (bs : List Byte) :
    Memory.wf (s.writeSpad a bs).core.spad = true := by
  rw [writeSpad_spad]; split
  · exact h
  · exact Memory.wf_write h a bs
theorem wf_setFeAt {s : State} (h : Memory.wf s.mem = true) (sp : Bool) (a : Nat) (v : Bool) : Memory.wf (s.setFeAt sp a v).mem = true := by
  cases sp
  · rw [setFeAt_mem]; exact Memory.wf_setFe h a v
  · rw [setFeAt_true_mem]; exact h
theorem wf_poisonAt {s : State} (h : Memory.wf s.mem = true) (sp : Bool) (a : Nat) : Memory.wf (s.poisonAt sp a).mem = true := by
  cases sp
  · simp only [State.poisonAt, Bool.false_eq_true, if_false]; split
    · exact h
    · exact Memory.wf_setPoison h a true
  · exact h

/-- A word just written to memory that answers is read back. -/
theorem writeRaw_read {s : State} (h : Memory.wf s.mem = true) {pa : Nat} {bs : List Byte} (hb : bs ≠ []) (hd : (s.mem.dark && inHost pa) = false) :
    (s.writeRaw pa bs).mem.read pa bs.length = bs := by
  rw [writeRaw_mem, if_neg (by simp [hb, hd])]
  exact Store.read_write h bs pa

/-- Memory, the scratchpad and every field list of reset are canonical. -/
theorem wf_reset : Memory.wf State.reset.mem = true ∧ Memory.wf State.reset.core.spad = true := ⟨rfl, rfl⟩

end Sys2Proof.Machine
end

