-- ==== Sys2Proof/Laws/PerInstr.lean ====
section
/-!
SUPPORT. The family RoundTrip: every well-formed instruction with a word decodes back from it, one lemma per constructor.
-/

namespace Sys2Proof.Laws.RoundTrip

set_option Elab.async false

open Sys2Proof Sys2Proof.Forms Sys2Proof.Laws

/-- A well-formed instruction's word decodes to it, or to the row whose word it shares; a step has no word. -/
def Statement (i : Instr) : Prop := WellFormed i = true → ∀ w, encode i = some w → decodeSlot w = .ok (wordRow i)

theorem add (d : GReg) (a : GReg) (b : GReg) : Statement (.add d a b) := fun _ _ he => decodeSlot_of_encode he rfl
theorem sub (d : GReg) (a : GReg) (b : GReg) : Statement (.sub d a b) := fun _ _ he => decodeSlot_of_encode he rfl
theorem mul (d : GReg) (a : GReg) (b : GReg) : Statement (.mul d a b) := fun _ _ he => decodeSlot_of_encode he rfl
theorem mulh (d : GReg) (a : GReg) (b : GReg) : Statement (.mulh d a b) := fun _ _ he => decodeSlot_of_encode he rfl
theorem mulhw (d : GReg) (a : GReg) (b : GReg) : Statement (.mulhw d a b) := fun _ _ he => decodeSlot_of_encode he rfl
theorem div (d : GReg) (a : GReg) (b : GReg) : Statement (.div d a b) := fun _ _ he => decodeSlot_of_encode he rfl
theorem divw (d : GReg) (a : GReg) (b : GReg) : Statement (.divw d a b) := fun _ _ he => decodeSlot_of_encode he rfl
theorem rem (d : GReg) (a : GReg) (b : GReg) : Statement (.rem d a b) := fun _ _ he => decodeSlot_of_encode he rfl
theorem remw (d : GReg) (a : GReg) (b : GReg) : Statement (.remw d a b) := fun _ _ he => decodeSlot_of_encode he rfl
theorem and (d : GReg) (a : GReg) (b : GReg) : Statement (.and d a b) := fun _ _ he => decodeSlot_of_encode he rfl
theorem or (d : GReg) (a : GReg) (b : GReg) : Statement (.or d a b) := fun _ _ he => decodeSlot_of_encode he rfl
theorem xor (d : GReg) (a : GReg) (b : GReg) : Statement (.xor d a b) := fun _ _ he => decodeSlot_of_encode he rfl
theorem shl (d : GReg) (a : GReg) (b : GReg) : Statement (.shl d a b) := fun _ _ he => decodeSlot_of_encode he rfl
theorem shr (d : GReg) (a : GReg) (b : GReg) : Statement (.shr d a b) := fun _ _ he => decodeSlot_of_encode he rfl
theorem sha (d : GReg) (a : GReg) (b : GReg) : Statement (.sha d a b) := fun _ _ he => decodeSlot_of_encode he rfl
theorem min (d : GReg) (a : GReg) (b : GReg) : Statement (.min d a b) := fun _ _ he => decodeSlot_of_encode he rfl
theorem max (d : GReg) (a : GReg) (b : GReg) : Statement (.max d a b) := fun _ _ he => decodeSlot_of_encode he rfl
theorem minw (d : GReg) (a : GReg) (b : GReg) : Statement (.minw d a b) := fun _ _ he => decodeSlot_of_encode he rfl
theorem maxw (d : GReg) (a : GReg) (b : GReg) : Statement (.maxw d a b) := fun _ _ he => decodeSlot_of_encode he rfl
theorem clz (d : GReg) (a : GReg) : Statement (.clz d a) := fun _ _ he => decodeSlot_of_encode he rfl
theorem ctz (d : GReg) (a : GReg) : Statement (.ctz d a) := fun _ _ he => decodeSlot_of_encode he rfl
theorem popc (d : GReg) (a : GReg) : Statement (.popc d a) := fun _ _ he => decodeSlot_of_encode he rfl
theorem sext (d : GReg) (a : GReg) (w : ExtWidth) : Statement (.sext d a w) := by
  intro h w he
  refine decodeSlot_of_encode he ?_
  change need _ _ = _
  simp [wordRow]
theorem zext (d : GReg) (a : GReg) (w : ExtWidth) : Statement (.zext d a w) := by
  intro h w he
  refine decodeSlot_of_encode he ?_
  change need _ _ = _
  simp [wordRow]
theorem bfx (d : GReg) (a : GReg) (b : GReg) (signed : Bool) : Statement (.bfx d a b signed) := by
  intro _ w he
  refine decodeSlot_of_encode he ?_
  cases signed <;> simp [decodeFields, decodeS, onX, wordRow]
theorem bfi (d : GReg) (a : GReg) (b : GReg) : Statement (.bfi d a b) := fun _ _ he => decodeSlot_of_encode he rfl
theorem sel (d : GReg) (a : GReg) (b : GReg) : Statement (.sel d a b) := fun _ _ he => decodeSlot_of_encode he rfl
theorem cmp (d : GReg) (a : GReg) (b : GReg) (c : Cond) : Statement (.cmp d a b c) := by
  intro h w he
  refine decodeSlot_of_encode he ?_
  change need _ _ = _
  simp [wordRow]
theorem addi (d : GReg) (a : GReg) (imm : BitVec 9) : Statement (.addi d a imm) := by
  intro h w he
  refine decodeSlot_of_encode he ?_
  change Except.ok _ = _
  simp [wordRow]
theorem andi (d : GReg) (a : GReg) (imm : BitVec 9) : Statement (.andi d a imm) := by
  intro h w he
  refine decodeSlot_of_encode he ?_
  change Except.ok _ = _
  simp [wordRow]
theorem ori (d : GReg) (a : GReg) (imm : BitVec 9) : Statement (.ori d a imm) := by
  intro h w he
  refine decodeSlot_of_encode he ?_
  change Except.ok _ = _
  simp [wordRow]
theorem xori (d : GReg) (a : GReg) (imm : BitVec 9) : Statement (.xori d a imm) := by
  intro h w he
  refine decodeSlot_of_encode he ?_
  change Except.ok _ = _
  simp [wordRow]
theorem shli (d : GReg) (a : GReg) (n : BitVec 6) : Statement (.shli d a n) := by
  intro _ w he
  refine decodeSlot_of_encode he ?_
  change @onField _ _ _ = _
  have := n.isLt
  simp [onField, wordRow]; omega
theorem shri (d : GReg) (a : GReg) (n : BitVec 6) : Statement (.shri d a n) := by
  intro _ w he
  refine decodeSlot_of_encode he ?_
  change @onField _ _ _ = _
  have := n.isLt
  simp [onField, wordRow]; omega
theorem shai (d : GReg) (a : GReg) (n : BitVec 6) : Statement (.shai d a n) := by
  intro _ w he
  refine decodeSlot_of_encode he ?_
  change @onField _ _ _ = _
  have := n.isLt
  simp [onField, wordRow]; omega
theorem cmpiEq (d : GReg) (a : GReg) (imm : BitVec 9) : Statement (.cmpiEq d a imm) := by
  intro h w he
  refine decodeSlot_of_encode he ?_
  change Except.ok _ = _
  simp [wordRow]
theorem cmpiNe (d : GReg) (a : GReg) (imm : BitVec 9) : Statement (.cmpiNe d a imm) := by
  intro h w he
  refine decodeSlot_of_encode he ?_
  change Except.ok _ = _
  simp [wordRow]
theorem cmpiLt (d : GReg) (a : GReg) (imm : BitVec 9) : Statement (.cmpiLt d a imm) := by
  intro h w he
  refine decodeSlot_of_encode he ?_
  change Except.ok _ = _
  simp [wordRow]
theorem cmpiGe (d : GReg) (a : GReg) (imm : BitVec 9) : Statement (.cmpiGe d a imm) := by
  intro h w he
  refine decodeSlot_of_encode he ?_
  change Except.ok _ = _
  simp [wordRow]
theorem cmpiLtw (d : GReg) (a : GReg) (imm : BitVec 9) : Statement (.cmpiLtw d a imm) := by
  intro h w he
  refine decodeSlot_of_encode he ?_
  change Except.ok _ = _
  simp [wordRow]
theorem cmpiGew (d : GReg) (a : GReg) (imm : BitVec 9) : Statement (.cmpiGew d a imm) := by
  intro h w he
  refine decodeSlot_of_encode he ?_
  change Except.ok _ = _
  simp [wordRow]
theorem movi (d : GReg) (imm : BitVec 15) : Statement (.movi d imm) := by
  intro h w he
  refine decodeSlot_of_encode he ?_
  change Except.ok _ = _
  simp [wordRow]
theorem movhi (d : GReg) (imm : BitVec 15) : Statement (.movhi d imm) := by
  intro h w he
  refine decodeSlot_of_encode he ?_
  change Except.ok _ = _
  simp [wordRow]
theorem br (off : BitVec 21) : Statement (.br off) := by
  intro h w he
  refine decodeSlot_of_encode he ?_
  change Except.ok _ = _
  simp [wordRow]
theorem call (off : BitVec 21) : Statement (.call off) := by
  intro h w he
  refine decodeSlot_of_encode he ?_
  change Except.ok _ = _
  simp [wordRow]
theorem brcZ (d : GReg) (off : BitVec 15) : Statement (.brcZ d off) := by
  intro h w he
  refine decodeSlot_of_encode he ?_
  change Except.ok _ = _
  simp [wordRow]
theorem brcNz (d : GReg) (off : BitVec 15) : Statement (.brcNz d off) := by
  intro h w he
  refine decodeSlot_of_encode he ?_
  change Except.ok _ = _
  simp [wordRow]
theorem jmp (a : GReg) : Statement (.jmp a) := fun _ _ he => decodeSlot_of_encode he rfl
theorem loop (n : LoopLevel) (a : GReg) (dist : BitVec 9) : Statement (.loop n a dist) := by
  intro h w he
  refine decodeSlot_of_encode he ?_
  change @onField _ _ _ = _
  have := n.isLt
  simp [onField, wordRow, WellFormed] at h ⊢
  exact ⟨by omega, h⟩
theorem loopi (n : LoopLevel) (count : BitVec 8) (dist : BitVec 7) : Statement (.loopi n count dist) := by
  intro h w he
  refine decodeSlot_of_encode he ?_
  change @onField _ _ _ = _
  have := n.isLt
  simp [onField, wordRow, WellFormed, extract_high count dist, extract_low count dist] at h ⊢
  exact ⟨by omega, h⟩
theorem rdsr (d : GReg) (n : BitVec 12) : Statement (.rdsr d n) := by
  intro _ w he
  refine decodeSlot_of_encode he ?_
  change @onField _ _ _ = _
  have := n.isLt
  simp [onField, wordRow]; omega
theorem wrsr (d : GReg) (n : BitVec 12) : Statement (.wrsr d n) := by
  intro h w he
  refine decodeSlot_of_encode he ?_
  change @onField _ _ _ = _
  have := n.isLt
  simp [onField, wordRow, WellFormed] at h ⊢
  rw [if_pos (by omega)]; simp [wrInstr, h]
theorem trap (code : BitVec 15) : Statement (.trap code) := by
  intro h w he
  refine decodeSlot_of_encode he ?_
  change Except.ok _ = _
  simp [wordRow]
theorem sysc (code : BitVec 15) : Statement (.sysc code) := by
  intro h w he
  refine decodeSlot_of_encode he ?_
  change Except.ok _ = _
  simp [wordRow]
theorem brk (code : BitVec 15) : Statement (.brk code) := by
  intro h w he
  refine decodeSlot_of_encode he ?_
  change Except.ok _ = _
  simp [wordRow]
theorem accFlip (a : GReg) (b : GReg) : Statement (.accFlip a b) := fun _ _ he => decodeSlot_of_encode he rfl
theorem spadFlip (a : GReg) (b : GReg) : Statement (.spadFlip a b) := fun _ _ he => decodeSlot_of_encode he rfl
theorem sectorPoison (a : GReg) (b : GReg) : Statement (.sectorPoison a b) := fun _ _ he => decodeSlot_of_encode he rfl
theorem tagBreak (a : GReg) (b : GReg) : Statement (.tagBreak a b) := fun _ _ he => decodeSlot_of_encode he rfl
theorem raise (a : GReg) (b : GReg) : Statement (.raise a b) := fun _ _ he => decodeSlot_of_encode he rfl
theorem ldw (d : GReg) (a : GReg) (imm : BitVec 9) (sp : Bool) : Statement (.ldw d a imm sp) := by
  intro h w he
  refine decodeSlot_of_encode he ?_
  cases sp <;> (change Except.ok _ = _; simp [wordRow])
theorem ldc (d : GReg) (a : GReg) (imm : BitVec 9) (sp : Bool) : Statement (.ldc d a imm sp) := by
  intro h w he
  refine decodeSlot_of_encode he ?_
  cases sp <;> (change Except.ok _ = _; simp [wordRow])
theorem stf (d : GReg) (a : GReg) (imm : BitVec 9) (sp : Bool) : Statement (.stf d a imm sp) := by
  intro h w he
  refine decodeSlot_of_encode he ?_
  cases sp <;> (change Except.ok _ = _; simp [wordRow])
theorem sts (d : GReg) (a : GReg) (imm : BitVec 9) (sp : Bool) : Statement (.sts d a imm sp) := by
  intro h w he
  refine decodeSlot_of_encode he ?_
  cases sp <;> (change Except.ok _ = _; simp [wordRow])
theorem feq (d : GReg) (a : GReg) (imm : BitVec 9) (sp : Bool) : Statement (.feq d a imm sp) := by
  intro h w he
  refine decodeSlot_of_encode he ?_
  cases sp <;> (change Except.ok _ = _; simp [wordRow])
theorem feset (a : GReg) (imm : BitVec 9) (sp : Bool) : Statement (.feset a imm sp) := by
  intro h w he
  refine decodeSlot_of_encode he ?_
  cases sp <;> (change Except.ok _ = _; simp [wordRow])
theorem feclr (a : GReg) (imm : BitVec 9) (sp : Bool) : Statement (.feclr a imm sp) := by
  intro h w he
  refine decodeSlot_of_encode he ?_
  cases sp <;> (change Except.ok _ = _; simp [wordRow])
theorem spawn (d : GReg) (a : GReg) (b : GReg) : Statement (.spawn d a b) := fun _ _ he => decodeSlot_of_encode he rfl
theorem park (a : GReg) : Statement (.park a) := fun _ _ he => decodeSlot_of_encode he rfl
theorem dcset (a : GReg) (b : GReg) : Statement (.dcset a b) := fun _ _ he => decodeSlot_of_encode he rfl
theorem dcdec (a : GReg) : Statement (.dcdec a) := fun _ _ he => decodeSlot_of_encode he rfl
theorem mon (n : BitVec 4) (a : GReg) (imm : BitVec 9) (sp : Bool) : Statement (.mon n a imm sp) := by
  intro _ w he
  refine decodeSlot_of_encode he ?_
  cases sp <;> (change @onField _ _ _ = _; have := n.isLt; simp [onField, wordRow]; omega)
theorem waitm (d : GReg) (a : GReg) : Statement (.waitm d a) := fun _ _ he => decodeSlot_of_encode he rfl
theorem acq (sc : Scope) : Statement (.acq sc) := by
  intro h w he
  refine decodeSlot_of_encode he ?_
  change need _ _ = _
  simp [wordRow]
theorem rel (sc : Scope) : Statement (.rel sc) := by
  intro h w he
  refine decodeSlot_of_encode he ?_
  change need _ _ = _
  simp [wordRow]
theorem fence (sc : Scope) : Statement (.fence sc) := by
  intro h w he
  refine decodeSlot_of_encode he ?_
  change need _ _ = _
  simp [wordRow]
theorem fenceX (mask : BitVec 6) (sc : Scope) : Statement (.fenceX mask sc) := by
  intro h w he
  refine decodeSlot_of_encode he ?_
  change need _ _ = _
  simp [show pathsOk mask = true from h, wordRow]
theorem promote (a : GReg) (sc : Scope) : Statement (.promote a sc) := by
  intro h w he
  refine decodeSlot_of_encode he ?_
  change need _ _ = _
  simp [wordRow]
theorem barwt (a : GReg) (b : GReg) : Statement (.barwt a b) := fun _ _ he => decodeSlot_of_encode he rfl
theorem wdecl (d : GReg) (a : GReg) (b : GReg) : Statement (.wdecl d a b) := fun _ _ he => decodeSlot_of_encode he rfl
theorem wdrop (a : GReg) : Statement (.wdrop a) := fun _ _ he => decodeSlot_of_encode he rfl
theorem acqt (a : GReg) (sc : Scope) : Statement (.acqt a sc) := by
  intro h w he
  refine decodeSlot_of_encode he ?_
  change need _ _ = _
  simp [wordRow]
theorem relt (a : GReg) (sc : Scope) : Statement (.relt a sc) := by
  intro h w he
  refine decodeSlot_of_encode he ?_
  change need _ _ = _
  simp [wordRow]
theorem ptbindCores (a : GReg) (b : GReg) : Statement (.ptbindCores a b) := fun _ _ he => decodeSlot_of_encode he rfl
theorem ptbindEngines (a : GReg) (b : GReg) : Statement (.ptbindEngines a b) := fun _ _ he => decodeSlot_of_encode he rfl
theorem ptbindMemports (a : GReg) (b : GReg) : Statement (.ptbindMemports a b) := fun _ _ he => decodeSlot_of_encode he rfl
theorem ptbindQueues (a : GReg) (b : GReg) : Statement (.ptbindQueues a b) := fun _ _ he => decodeSlot_of_encode he rfl
theorem ptbindS2root (a : GReg) (b : GReg) : Statement (.ptbindS2root a b) := fun _ _ he => decodeSlot_of_encode he rfl
theorem ptbindKey (a : GReg) (b : GReg) : Statement (.ptbindKey a b) := fun _ _ he => decodeSlot_of_encode he rfl
theorem ptbindDump (a : GReg) (b : GReg) : Statement (.ptbindDump a b) := fun _ _ he => decodeSlot_of_encode he rfl
theorem ptbindFaper (a : GReg) (b : GReg) : Statement (.ptbindFaper a b) := fun _ _ he => decodeSlot_of_encode he rfl
theorem ptbindNaper (a : GReg) (b : GReg) : Statement (.ptbindNaper a b) := fun _ _ he => decodeSlot_of_encode he rfl
theorem ptbindPeer (a : GReg) (b : GReg) : Statement (.ptbindPeer a b) := fun _ _ he => decodeSlot_of_encode he rfl
theorem ptbindKport (a : GReg) (b : GReg) : Statement (.ptbindKport a b) := fun _ _ he => decodeSlot_of_encode he rfl
theorem ptbindRwin (a : GReg) (b : GReg) : Statement (.ptbindRwin a b) := fun _ _ he => decodeSlot_of_encode he rfl
theorem ptbindIntr (a : GReg) (b : GReg) : Statement (.ptbindIntr a b) := fun _ _ he => decodeSlot_of_encode he rfl
theorem ptbindInj (a : GReg) (b : GReg) : Statement (.ptbindInj a b) := fun _ _ he => decodeSlot_of_encode he rfl
theorem ptquotaSlice (a : GReg) (b : GReg) : Statement (.ptquotaSlice a b) := fun _ _ he => decodeSlot_of_encode he rfl
theorem ptquotaPrio (a : GReg) (b : GReg) : Statement (.ptquotaPrio a b) := fun _ _ he => decodeSlot_of_encode he rfl
theorem ptquotaRate (a : GReg) (b : GReg) : Statement (.ptquotaRate a b) := fun _ _ he => decodeSlot_of_encode he rfl
theorem ptquotaActiveq (a : GReg) (b : GReg) : Statement (.ptquotaActiveq a b) := fun _ _ he => decodeSlot_of_encode he rfl
theorem ptsealSeal (a : GReg) : Statement (.ptsealSeal a) := fun _ _ he => decodeSlot_of_encode he rfl
theorem ptsealStop (a : GReg) : Statement (.ptsealStop a) := fun _ _ he => decodeSlot_of_encode he rfl
theorem ptsealFree (a : GReg) : Statement (.ptsealFree a) := fun _ _ he => decodeSlot_of_encode he rfl
theorem la (a : GReg) (imm : BitVec 9) (sz : BitVec 2) (sp : Bool) : Statement (.la a imm sz sp) := by
  intro h w he
  refine decodeSlot_of_encode he ?_
  obtain rfl | rfl | rfl | rfl := two_bits sz <;> cases sp <;> (change Except.ok _ = _; simp [wordRow])
theorem lav (a : GReg) (imm : BitVec 9) (sz : BitVec 2) (sp : Bool) : Statement (.lav a imm sz sp) := by
  intro h w he
  refine decodeSlot_of_encode he ?_
  obtain rfl | rfl | rfl | rfl := two_bits sz <;> cases sp <;> (change Except.ok _ = _; simp [wordRow])
theorem sa (a : GReg) (imm : BitVec 9) (sz : BitVec 2) (sp : Bool) : Statement (.sa a imm sz sp) := by
  intro h w he
  refine decodeSlot_of_encode he ?_
  obtain rfl | rfl | rfl | rfl := two_bits sz <;> cases sp <;> (change Except.ok _ = _; simp [wordRow])
theorem sav (a : GReg) (imm : BitVec 9) (sz : BitVec 2) (sp : Bool) : Statement (.sav a imm sz sp) := by
  intro h w he
  refine decodeSlot_of_encode he ?_
  obtain rfl | rfl | rfl | rfl := two_bits sz <;> cases sp <;> (change Except.ok _ = _; simp [wordRow])
theorem laxIndex (a : GReg) (b : GReg) (sz : BitVec 3) (sp : Bool) : Statement (.laxIndex a b sz sp) := by
  intro h w he
  refine decodeSlot_of_encode he ?_
  cases sp <;> (change Except.ok _ = _; simp [wordRow])
theorem laxIncrement (a : GReg) (b : GReg) (sz : BitVec 3) (sp : Bool) : Statement (.laxIncrement a b sz sp) := by
  intro h w he
  refine decodeSlot_of_encode he ?_
  cases sp <;> (change Except.ok _ = _; simp [wordRow])
theorem saxIndex (a : GReg) (b : GReg) (sz : BitVec 3) (sp : Bool) : Statement (.saxIndex a b sz sp) := by
  intro h w he
  refine decodeSlot_of_encode he ?_
  cases sp <;> (change Except.ok _ = _; simp [wordRow])
theorem saxIncrement (a : GReg) (b : GReg) (sz : BitVec 3) (sp : Bool) : Statement (.saxIncrement a b sz sp) := by
  intro h w he
  refine decodeSlot_of_encode he ?_
  cases sp <;> (change Except.ok _ = _; simp [wordRow])
theorem lavStrided (a : GReg) (b : GReg) (es : BitVec 2) (sp : Bool) : Statement (.lavStrided a b es sp) := by
  intro _ w he
  refine decodeSlot_of_encode he ?_
  cases sp <;> (change @onX _ _ _ = _; have := es.isLt; simp [onX, wordRow]; omega)
theorem savStrided (a : GReg) (b : GReg) (es : BitVec 2) (sp : Bool) : Statement (.savStrided a b es sp) := by
  intro _ w he
  refine decodeSlot_of_encode he ?_
  cases sp <;> (change @onX _ _ _ = _; have := es.isLt; simp [onX, wordRow]; omega)
theorem lagv (a : GReg) (b : VReg) (es : BitVec 2) (sp : Bool) : Statement (.lagv a b es sp) := by
  intro _ w he
  refine decodeSlot_of_encode he ?_
  cases sp <;> (change @onX _ _ _ = _; have := es.isLt; simp [onX, wordRow]; omega)
theorem sasv (a : GReg) (b : VReg) (es : BitVec 2) (sp : Bool) : Statement (.sasv a b es sp) := by
  intro _ w he
  refine decodeSlot_of_encode he ?_
  cases sp <;> (change @onX _ _ _ = _; have := es.isLt; simp [onX, wordRow]; omega)
theorem pref (a : GReg) (imm : BitVec 9) : Statement (.pref a imm) := by
  intro h w he
  refine decodeSlot_of_encode he ?_
  change Except.ok _ = _
  simp [wordRow]
theorem amoAdd (a : GReg) (b : GReg) (eight : Bool) (sp : Bool) : Statement (.amoAdd a b eight sp) := by
  intro _ w he
  cases eight <;> cases sp <;> exact decodeSlot_of_encode he rfl
theorem amoAnd (a : GReg) (b : GReg) (eight : Bool) (sp : Bool) : Statement (.amoAnd a b eight sp) := by
  intro _ w he
  cases eight <;> cases sp <;> exact decodeSlot_of_encode he rfl
theorem amoOr (a : GReg) (b : GReg) (eight : Bool) (sp : Bool) : Statement (.amoOr a b eight sp) := by
  intro _ w he
  cases eight <;> cases sp <;> exact decodeSlot_of_encode he rfl
theorem amoXor (a : GReg) (b : GReg) (eight : Bool) (sp : Bool) : Statement (.amoXor a b eight sp) := by
  intro _ w he
  cases eight <;> cases sp <;> exact decodeSlot_of_encode he rfl
theorem amoSwap (a : GReg) (b : GReg) (eight : Bool) (sp : Bool) : Statement (.amoSwap a b eight sp) := by
  intro _ w he
  cases eight <;> cases sp <;> exact decodeSlot_of_encode he rfl
theorem amoSmin (a : GReg) (b : GReg) (eight : Bool) (sp : Bool) : Statement (.amoSmin a b eight sp) := by
  intro _ w he
  cases eight <;> cases sp <;> exact decodeSlot_of_encode he rfl
theorem amoSmax (a : GReg) (b : GReg) (eight : Bool) (sp : Bool) : Statement (.amoSmax a b eight sp) := by
  intro _ w he
  cases eight <;> cases sp <;> exact decodeSlot_of_encode he rfl
theorem amoUmin (a : GReg) (b : GReg) (eight : Bool) (sp : Bool) : Statement (.amoUmin a b eight sp) := by
  intro _ w he
  cases eight <;> cases sp <;> exact decodeSlot_of_encode he rfl
theorem amoUmax (a : GReg) (b : GReg) (eight : Bool) (sp : Bool) : Statement (.amoUmax a b eight sp) := by
  intro _ w he
  refine decodeSlot_of_encode he ?_
  cases eight <;> cases sp <;> simp [amoOp, decodeFields, decodeA, dIs63, wordRow]
theorem amoFadd (a : GReg) (b : GReg) (sp : Bool) : Statement (.amoFadd a b sp) := by
  intro _ w he
  cases sp <;> exact decodeSlot_of_encode he rfl
theorem cas (a : GReg) (b : GReg) (eight : Bool) (sp : Bool) : Statement (.cas a b eight sp) := by
  intro h w he
  refine decodeSlot_of_encode he ?_
  cases eight <;> cases sp <;> (change onPair _ (Except.ok _) = _; simp [onPair, show pairOk b = true from h, wordRow])
theorem laLand (a : GReg) (b : GReg) (sz : BitVec 2) (sp : Bool) : Statement (.laLand a b sz sp) := by
  intro _ w he
  refine decodeSlot_of_encode he ?_
  cases sp <;> (change Except.ok _ = _; have := sz.isLt; simp [wordRow]; omega)
theorem lavLand (a : GReg) (b : GReg) (sz : BitVec 2) (sp : Bool) : Statement (.lavLand a b sz sp) := by
  intro _ w he
  refine decodeSlot_of_encode he ?_
  obtain rfl | rfl | rfl | rfl := two_bits sz <;> cases sp <;> (change Except.ok _ = _; simp [wordRow])
theorem vadd (d : VReg) (a : VReg) (b : VReg) (t : VTy) : Statement (.vadd d a b t) := by
  intro h w he
  refine decodeSlot_of_encode he ?_
  change need _ _ = _
  simp [wordRow]
theorem vaddMasked (d : VReg) (k : KReg) (b : VReg) (t : VTy) : Statement (.vaddMasked d k b t) := by
  intro h w he
  have hk : k ≠ 0 := by rintro rfl; simp [WellFormed] at h
  refine decodeSlot_of_encode he ?_
  cases t <;> (change onMask _ (need _ _) = _; simp [wordRow, onMask_of hk])
theorem vsub (d : VReg) (a : VReg) (b : VReg) (t : VTy) : Statement (.vsub d a b t) := by
  intro h w he
  refine decodeSlot_of_encode he ?_
  change need _ _ = _
  simp [wordRow]
theorem vsubMasked (d : VReg) (k : KReg) (b : VReg) (t : VTy) : Statement (.vsubMasked d k b t) := by
  intro h w he
  have hk : k ≠ 0 := by rintro rfl; simp [WellFormed] at h
  refine decodeSlot_of_encode he ?_
  cases t <;> (change onMask _ (need _ _) = _; simp [wordRow, onMask_of hk])
theorem vmul (d : VReg) (a : VReg) (b : VReg) (t : VTy) : Statement (.vmul d a b t) := by
  intro h w he
  refine decodeSlot_of_encode he ?_
  change need _ _ = _
  simp [wordRow]
theorem vmulMasked (d : VReg) (k : KReg) (b : VReg) (t : VTy) : Statement (.vmulMasked d k b t) := by
  intro h w he
  have hk : k ≠ 0 := by rintro rfl; simp [WellFormed] at h
  refine decodeSlot_of_encode he ?_
  cases t <;> (change onMask _ (need _ _) = _; simp [wordRow, onMask_of hk])
theorem vmulh (d : VReg) (a : VReg) (b : VReg) (t : VTy) : Statement (.vmulh d a b t) := by
  intro h w he
  cases t <;> first | exact decodeSlot_of_encode he rfl | simp [WellFormed, intTy] at h
theorem vmulhMasked (d : VReg) (k : KReg) (b : VReg) (t : VTy) : Statement (.vmulhMasked d k b t) := by
  intro h w he
  have hk : k ≠ 0 := by rintro rfl; simp [WellFormed] at h
  refine decodeSlot_of_encode he ?_
  change onMask _ (need _ _) = _
  simp only [WellFormed, Bool.and_eq_true] at h
  simp [onMask_of hk, Option.filter, h.2, wordRow]
theorem vmin (d : VReg) (a : VReg) (b : VReg) (t : VTy) : Statement (.vmin d a b t) := by
  intro h w he
  refine decodeSlot_of_encode he ?_
  change need _ _ = _
  simp [wordRow]
theorem vminMasked (d : VReg) (k : KReg) (b : VReg) (t : VTy) : Statement (.vminMasked d k b t) := by
  intro h w he
  have hk : k ≠ 0 := by rintro rfl; simp [WellFormed] at h
  refine decodeSlot_of_encode he ?_
  cases t <;> (change onMask _ (need _ _) = _; simp [wordRow, onMask_of hk])
theorem vmax (d : VReg) (a : VReg) (b : VReg) (t : VTy) : Statement (.vmax d a b t) := by
  intro h w he
  refine decodeSlot_of_encode he ?_
  change need _ _ = _
  simp [wordRow]
theorem vmaxMasked (d : VReg) (k : KReg) (b : VReg) (t : VTy) : Statement (.vmaxMasked d k b t) := by
  intro h w he
  have hk : k ≠ 0 := by rintro rfl; simp [WellFormed] at h
  refine decodeSlot_of_encode he ?_
  cases t <;> (change onMask _ (need _ _) = _; simp [wordRow, onMask_of hk])
theorem vand (d : VReg) (a : VReg) (b : VReg) : Statement (.vand d a b) := fun _ _ he => decodeSlot_of_encode he rfl
theorem vandMasked (d : VReg) (k : KReg) (b : VReg) : Statement (.vandMasked d k b) := by
  intro h w he
  have hk : k ≠ 0 := by rintro rfl; simp [WellFormed] at h
  refine decodeSlot_of_encode he ?_
  change onMask _ (Except.ok _) = _
  simp [wordRow, onMask_of hk]
theorem vor (d : VReg) (a : VReg) (b : VReg) : Statement (.vor d a b) := fun _ _ he => decodeSlot_of_encode he rfl
theorem vorMasked (d : VReg) (k : KReg) (b : VReg) : Statement (.vorMasked d k b) := by
  intro h w he
  have hk : k ≠ 0 := by rintro rfl; simp [WellFormed] at h
  refine decodeSlot_of_encode he ?_
  change onMask _ (Except.ok _) = _
  simp [wordRow, onMask_of hk]
theorem vxor (d : VReg) (a : VReg) (b : VReg) : Statement (.vxor d a b) := fun _ _ he => decodeSlot_of_encode he rfl
theorem vxorMasked (d : VReg) (k : KReg) (b : VReg) : Statement (.vxorMasked d k b) := by
  intro h w he
  have hk : k ≠ 0 := by rintro rfl; simp [WellFormed] at h
  refine decodeSlot_of_encode he ?_
  change onMask _ (Except.ok _) = _
  simp [wordRow, onMask_of hk]
theorem vshl (d : VReg) (a : VReg) (b : VReg) (t : VTy) : Statement (.vshl d a b t) := by
  intro h w he
  cases t <;> first | exact decodeSlot_of_encode he rfl | simp [WellFormed, unsignedTy] at h
theorem vshlMasked (d : VReg) (k : KReg) (b : VReg) (t : VTy) : Statement (.vshlMasked d k b t) := by
  intro h w he
  have hk : k ≠ 0 := by rintro rfl; simp [WellFormed] at h
  refine decodeSlot_of_encode he ?_
  change onMask _ (need _ _) = _
  simp only [WellFormed, Bool.and_eq_true] at h
  simp [onMask_of hk, Option.filter, h.2, wordRow]
theorem vshr (d : VReg) (a : VReg) (b : VReg) (t : VTy) : Statement (.vshr d a b t) := by
  intro h w he
  cases t <;> first | exact decodeSlot_of_encode he rfl | simp [WellFormed, unsignedTy] at h
theorem vshrMasked (d : VReg) (k : KReg) (b : VReg) (t : VTy) : Statement (.vshrMasked d k b t) := by
  intro h w he
  have hk : k ≠ 0 := by rintro rfl; simp [WellFormed] at h
  refine decodeSlot_of_encode he ?_
  change onMask _ (need _ _) = _
  simp only [WellFormed, Bool.and_eq_true] at h
  simp [onMask_of hk, Option.filter, h.2, wordRow]
theorem vsha (d : VReg) (a : VReg) (b : VReg) (t : VTy) : Statement (.vsha d a b t) := by
  intro h w he
  cases t <;> first | exact decodeSlot_of_encode he rfl | simp [WellFormed, signedTy] at h
theorem vshaMasked (d : VReg) (k : KReg) (b : VReg) (t : VTy) : Statement (.vshaMasked d k b t) := by
  intro h w he
  have hk : k ≠ 0 := by rintro rfl; simp [WellFormed] at h
  refine decodeSlot_of_encode he ?_
  change onMask _ (need _ _) = _
  simp only [WellFormed, Bool.and_eq_true] at h
  simp [onMask_of hk, Option.filter, h.2, wordRow]
theorem vperm (d : VReg) (a : VReg) (b : VReg) (t : VTy) : Statement (.vperm d a b t) := by
  intro h w he
  cases t <;> first | exact decodeSlot_of_encode he rfl | simp [WellFormed, unsignedTy] at h
theorem vpermMasked (d : VReg) (k : KReg) (b : VReg) (t : VTy) : Statement (.vpermMasked d k b t) := by
  intro h w he
  have hk : k ≠ 0 := by rintro rfl; simp [WellFormed] at h
  refine decodeSlot_of_encode he ?_
  change onMask _ (need _ _) = _
  simp only [WellFormed, Bool.and_eq_true] at h
  simp [onMask_of hk, Option.filter, h.2, wordRow]
theorem vpack (d : VReg) (a : VReg) (b : VReg) (t : NTy) : Statement (.vpack d a b t) := by
  intro h w he
  refine decodeSlot_of_encode he ?_
  change need _ _ = _
  simp [wordRow]
theorem vpackMasked (d : VReg) (k : KReg) (b : VReg) (t : NTy) : Statement (.vpackMasked d k b t) := by
  intro h w he
  have hk : k ≠ 0 := by rintro rfl; simp [WellFormed] at h
  refine decodeSlot_of_encode he ?_
  change onMask _ (need _ _) = _
  simp [wordRow, onMask_of hk]
theorem vabs (d : VReg) (a : VReg) (k : KReg) (t : VTy) : Statement (.vabs d a k t) := by
  intro h w he
  refine decodeSlot_of_encode he ?_
  change kField _ (need _ _) = _
  simp only [WellFormed] at h
  simp [Option.filter, h, wordRow]
theorem vneg (d : VReg) (a : VReg) (k : KReg) (t : VTy) : Statement (.vneg d a k t) := by
  intro h w he
  refine decodeSlot_of_encode he ?_
  change kField _ (need _ _) = _
  simp only [WellFormed] at h
  simp [Option.filter, h, wordRow]
theorem vnot (d : VReg) (a : VReg) (k : KReg) : Statement (.vnot d a k) := by
  intro h w he
  refine decodeSlot_of_encode he ?_
  change kField _ (Except.ok _) = _
  simp [wordRow]
theorem vrcp (d : VReg) (a : VReg) (k : KReg) (t : VTy) : Statement (.vrcp d a k t) := by
  intro h w he
  refine decodeSlot_of_encode he ?_
  change kField _ (need _ _) = _
  simp only [WellFormed] at h
  simp [Option.filter, h, wordRow]
theorem vrsq (d : VReg) (a : VReg) (k : KReg) (t : VTy) : Statement (.vrsq d a k t) := by
  intro h w he
  refine decodeSlot_of_encode he ?_
  change kField _ (need _ _) = _
  simp only [WellFormed] at h
  simp [Option.filter, h, wordRow]
theorem vexp2 (d : VReg) (a : VReg) (k : KReg) (t : VTy) : Statement (.vexp2 d a k t) := by
  intro h w he
  refine decodeSlot_of_encode he ?_
  change kField _ (need _ _) = _
  simp only [WellFormed] at h
  simp [Option.filter, h, wordRow]
theorem vlog2 (d : VReg) (a : VReg) (k : KReg) (t : VTy) : Statement (.vlog2 d a k t) := by
  intro h w he
  refine decodeSlot_of_encode he ?_
  change kField _ (need _ _) = _
  simp only [WellFormed] at h
  simp [Option.filter, h, wordRow]
theorem vredSum (d : VReg) (a : VReg) (k : KReg) (t : VTy) : Statement (.vredSum d a k t) := by
  intro h w he
  refine decodeSlot_of_encode he ?_
  change kField _ (need _ _) = _
  simp [wordRow]
theorem vredMax (d : VReg) (a : VReg) (k : KReg) (t : VTy) : Statement (.vredMax d a k t) := by
  intro h w he
  refine decodeSlot_of_encode he ?_
  change kField _ (need _ _) = _
  simp [wordRow]
theorem vredMin (d : VReg) (a : VReg) (k : KReg) (t : VTy) : Statement (.vredMin d a k t) := by
  intro h w he
  refine decodeSlot_of_encode he ?_
  change kField _ (need _ _) = _
  simp [wordRow]
theorem vscan (d : VReg) (a : VReg) (k : KReg) (t : VTy) : Statement (.vscan d a k t) := by
  intro h w he
  refine decodeSlot_of_encode he ?_
  change kField _ (need _ _) = _
  simp [wordRow]
theorem vmov (d : VReg) (a : VReg) (k : KReg) : Statement (.vmov d a k) := by
  intro h w he
  refine decodeSlot_of_encode he ?_
  change kField _ (Except.ok _) = _
  simp [wordRow]
theorem vsat (d : VReg) (a : VReg) (k : KReg) (t : NTy) : Statement (.vsat d a k t) := by
  intro h w he
  refine decodeSlot_of_encode he ?_
  change kField _ (need _ _) = _
  simp [wordRow]
theorem vunpkLo (d : VReg) (a : VReg) (k : KReg) (t : NTy) : Statement (.vunpkLo d a k t) := by
  intro h w he
  refine decodeSlot_of_encode he ?_
  change kField _ (need _ _) = _
  simp [wordRow]
theorem vunpkHi (d : VReg) (a : VReg) (k : KReg) (t : NTy) : Statement (.vunpkHi d a k t) := by
  intro h w he
  refine decodeSlot_of_encode he ?_
  change kField _ (need _ _) = _
  simp [wordRow]
theorem vbcast (d : VReg) (a : GReg) (k : KReg) (t : VTy) : Statement (.vbcast d a k t) := by
  intro h w he
  refine decodeSlot_of_encode he ?_
  change kField _ (need _ _) = _
  simp [wordRow]
theorem vfmaF32 (d : VReg) (a : VReg) (b : VReg) (k : KReg) : Statement (.vfmaF32 d a b k) := by
  intro _ w he
  change some (slot 2 (bit (k.getLsbD 3) 0x30) d a b (k.setWidth 3)) = some w at he
  cases h3 : k.getLsbD 3 <;> rw [h3] at he <;> refine decodeSlot_of_encode he ?_
  · change Except.ok (Instr.vfmaF32 d a b (0#1 ++ k.setWidth 3)) = _; rw [mask_low h3]; rfl
  · change Except.ok (Instr.vfmaF32 d a b (1#1 ++ k.setWidth 3)) = _; rw [mask_high h3]; rfl
theorem vfmaF16 (d : VReg) (a : VReg) (b : VReg) (k : KReg) : Statement (.vfmaF16 d a b k) := by
  intro _ w he
  change some (slot 2 (bit (k.getLsbD 3) 0x32) d a b (k.setWidth 3)) = some w at he
  cases h3 : k.getLsbD 3 <;> rw [h3] at he <;> refine decodeSlot_of_encode he ?_
  · change Except.ok (Instr.vfmaF16 d a b (0#1 ++ k.setWidth 3)) = _; rw [mask_low h3]; rfl
  · change Except.ok (Instr.vfmaF16 d a b (1#1 ++ k.setWidth 3)) = _; rw [mask_high h3]; rfl
theorem vfmaB16 (d : VReg) (a : VReg) (b : VReg) (k : KReg) : Statement (.vfmaB16 d a b k) := by
  intro _ w he
  change some (slot 2 (bit (k.getLsbD 3) 0x34) d a b (k.setWidth 3)) = some w at he
  cases h3 : k.getLsbD 3 <;> rw [h3] at he <;> refine decodeSlot_of_encode he ?_
  · change Except.ok (Instr.vfmaB16 d a b (0#1 ++ k.setWidth 3)) = _; rw [mask_low h3]; rfl
  · change Except.ok (Instr.vfmaB16 d a b (1#1 ++ k.setWidth 3)) = _; rw [mask_high h3]; rfl
theorem vfmsF32 (d : VReg) (a : VReg) (b : VReg) (k : KReg) : Statement (.vfmsF32 d a b k) := by
  intro _ w he
  change some (slot 2 (bit (k.getLsbD 3) 0x36) d a b (k.setWidth 3)) = some w at he
  cases h3 : k.getLsbD 3 <;> rw [h3] at he <;> refine decodeSlot_of_encode he ?_
  · change Except.ok (Instr.vfmsF32 d a b (0#1 ++ k.setWidth 3)) = _; rw [mask_low h3]; rfl
  · change Except.ok (Instr.vfmsF32 d a b (1#1 ++ k.setWidth 3)) = _; rw [mask_high h3]; rfl
theorem vfmsF16 (d : VReg) (a : VReg) (b : VReg) (k : KReg) : Statement (.vfmsF16 d a b k) := by
  intro _ w he
  change some (slot 2 (bit (k.getLsbD 3) 0x38) d a b (k.setWidth 3)) = some w at he
  cases h3 : k.getLsbD 3 <;> rw [h3] at he <;> refine decodeSlot_of_encode he ?_
  · change Except.ok (Instr.vfmsF16 d a b (0#1 ++ k.setWidth 3)) = _; rw [mask_low h3]; rfl
  · change Except.ok (Instr.vfmsF16 d a b (1#1 ++ k.setWidth 3)) = _; rw [mask_high h3]; rfl
theorem vfmsB16 (d : VReg) (a : VReg) (b : VReg) (k : KReg) : Statement (.vfmsB16 d a b k) := by
  intro _ w he
  change some (slot 2 (bit (k.getLsbD 3) 0x3A) d a b (k.setWidth 3)) = some w at he
  cases h3 : k.getLsbD 3 <;> rw [h3] at he <;> refine decodeSlot_of_encode he ?_
  · change Except.ok (Instr.vfmsB16 d a b (0#1 ++ k.setWidth 3)) = _; rw [mask_low h3]; rfl
  · change Except.ok (Instr.vfmsB16 d a b (1#1 ++ k.setWidth 3)) = _; rw [mask_high h3]; rfl
theorem vfnmaF32 (d : VReg) (a : VReg) (b : VReg) (k : KReg) : Statement (.vfnmaF32 d a b k) := by
  intro _ w he
  change some (slot 2 (bit (k.getLsbD 3) 0x3C) d a b (k.setWidth 3)) = some w at he
  cases h3 : k.getLsbD 3 <;> rw [h3] at he <;> refine decodeSlot_of_encode he ?_
  · change Except.ok (Instr.vfnmaF32 d a b (0#1 ++ k.setWidth 3)) = _; rw [mask_low h3]; rfl
  · change Except.ok (Instr.vfnmaF32 d a b (1#1 ++ k.setWidth 3)) = _; rw [mask_high h3]; rfl
theorem vfnmaF16 (d : VReg) (a : VReg) (b : VReg) (k : KReg) : Statement (.vfnmaF16 d a b k) := by
  intro _ w he
  change some (slot 2 (bit (k.getLsbD 3) 0x3E) d a b (k.setWidth 3)) = some w at he
  cases h3 : k.getLsbD 3 <;> rw [h3] at he <;> refine decodeSlot_of_encode he ?_
  · change Except.ok (Instr.vfnmaF16 d a b (0#1 ++ k.setWidth 3)) = _; rw [mask_low h3]; rfl
  · change Except.ok (Instr.vfnmaF16 d a b (1#1 ++ k.setWidth 3)) = _; rw [mask_high h3]; rfl
theorem vfnmaB16 (d : VReg) (a : VReg) (b : VReg) (k : KReg) : Statement (.vfnmaB16 d a b k) := by
  intro _ w he
  change some (slot 2 (bit (k.getLsbD 3) 0x40) d a b (k.setWidth 3)) = some w at he
  cases h3 : k.getLsbD 3 <;> rw [h3] at he <;> refine decodeSlot_of_encode he ?_
  · change Except.ok (Instr.vfnmaB16 d a b (0#1 ++ k.setWidth 3)) = _; rw [mask_low h3]; rfl
  · change Except.ok (Instr.vfnmaB16 d a b (1#1 ++ k.setWidth 3)) = _; rw [mask_high h3]; rfl
theorem vdot4I8 (d : VReg) (a : VReg) (b : VReg) (k : KReg) : Statement (.vdot4I8 d a b k) := by
  intro _ w he
  change some (slot 2 (bit (k.getLsbD 3) 0x42) d a b (k.setWidth 3)) = some w at he
  cases h3 : k.getLsbD 3 <;> rw [h3] at he <;> refine decodeSlot_of_encode he ?_
  · change Except.ok (Instr.vdot4I8 d a b (0#1 ++ k.setWidth 3)) = _; rw [mask_low h3]; rfl
  · change Except.ok (Instr.vdot4I8 d a b (1#1 ++ k.setWidth 3)) = _; rw [mask_high h3]; rfl
theorem vdot4W8 (d : VReg) (a : VReg) (b : VReg) (k : KReg) : Statement (.vdot4W8 d a b k) := by
  intro _ w he
  change some (slot 2 (bit (k.getLsbD 3) 0x44) d a b (k.setWidth 3)) = some w at he
  cases h3 : k.getLsbD 3 <;> rw [h3] at he <;> refine decodeSlot_of_encode he ?_
  · change Except.ok (Instr.vdot4W8 d a b (0#1 ++ k.setWidth 3)) = _; rw [mask_low h3]; rfl
  · change Except.ok (Instr.vdot4W8 d a b (1#1 ++ k.setWidth 3)) = _; rw [mask_high h3]; rfl
theorem vsel (d : VReg) (a : VReg) (b : VReg) (k : KReg) : Statement (.vsel d a b k) := by
  intro _ w he
  change some (slot 2 (bit (k.getLsbD 3) 0x46) d a b (k.setWidth 3)) = some w at he
  cases h3 : k.getLsbD 3 <;> rw [h3] at he <;> refine decodeSlot_of_encode he ?_
  · change Except.ok (Instr.vsel d a b (0#1 ++ k.setWidth 3)) = _; rw [mask_low h3]; rfl
  · change Except.ok (Instr.vsel d a b (1#1 ++ k.setWidth 3)) = _; rw [mask_high h3]; rfl
theorem vcmpEq (d : KReg) (a : VReg) (b : VReg) (t : VTy) : Statement (.vcmpEq d a b t) := by
  intro h w he
  refine decodeSlot_of_encode he ?_
  change kField _ (need _ _) = _
  simp [wordRow]
theorem vcmpNe (d : KReg) (a : VReg) (b : VReg) (t : VTy) : Statement (.vcmpNe d a b t) := by
  intro h w he
  refine decodeSlot_of_encode he ?_
  change kField _ (need _ _) = _
  simp [wordRow]
theorem vcmpLt (d : KReg) (a : VReg) (b : VReg) (t : VTy) : Statement (.vcmpLt d a b t) := by
  intro h w he
  refine decodeSlot_of_encode he ?_
  change kField _ (need _ _) = _
  simp [wordRow]
theorem vcmpLe (d : KReg) (a : VReg) (b : VReg) (t : VTy) : Statement (.vcmpLe d a b t) := by
  intro h w he
  refine decodeSlot_of_encode he ?_
  change kField _ (need _ _) = _
  simp [wordRow]
theorem vcvt (d : VReg) (a : VReg) (selector : BitVec 6) (r : CvtRound) : Statement (.vcvt d a selector r) := by
  intro h w he
  have hs : selector ≠ 63 := by rintro rfl; simp [WellFormed] at h
  refine decodeSlot_of_encode he ?_
  change @onFieldE _ _ (need _ _) = _
  simp only [onFieldE, if_pos hs, roundOf_code, need_some, wordRow]
theorem vshuf (d : VReg) (a : VReg) (kind : BitVec 3) (p : BitVec 6) : Statement (.vshuf d a kind p) := by
  intro h w he
  refine decodeSlot_of_encode he ?_
  change @onField _ _ _ = _
  simp [onField, wordRow, extract_high kind p, extract_low kind p]
  exact h
theorem vins (d : VReg) (a : GReg) (b : GReg) (t : VTy) : Statement (.vins d a b t) := by
  intro h w he
  refine decodeSlot_of_encode he ?_
  change need _ _ = _
  simp [wordRow]
theorem vext (d : GReg) (a : VReg) (b : GReg) (t : VTy) : Statement (.vext d a b t) := by
  intro h w he
  refine decodeSlot_of_encode he ?_
  change need _ _ = _
  simp [wordRow]
theorem vmovi (d : VReg) (imm : BitVec 15) : Statement (.vmovi d imm) := by
  intro h w he
  refine decodeSlot_of_encode he ?_
  change Except.ok _ = _
  simp [wordRow]
theorem kand (d : KReg) (a : KReg) (b : KReg) : Statement (.kand d a b) := by
  intro h w he
  refine decodeSlot_of_encode he ?_
  change kField _ (kField _ (kField _ (Except.ok _))) = _
  simp [wordRow]
theorem kor (d : KReg) (a : KReg) (b : KReg) : Statement (.kor d a b) := by
  intro h w he
  refine decodeSlot_of_encode he ?_
  change kField _ (kField _ (kField _ (Except.ok _))) = _
  simp [wordRow]
theorem knot (d : KReg) (a : KReg) : Statement (.knot d a) := by
  intro h w he
  refine decodeSlot_of_encode he ?_
  change kField _ (kField _ (Except.ok _)) = _
  simp [wordRow]
theorem kpop (d : GReg) (a : KReg) : Statement (.kpop d a) := by
  intro h w he
  refine decodeSlot_of_encode he ?_
  change kField _ (Except.ok _) = _
  simp [wordRow]
theorem vacr (d : VReg) (a : AccReg) (u : BitVec 4) : Statement (.vacr d a u) := by
  intro _ w he
  refine decodeSlot_of_encode he ?_
  change kField _ (rowSel _ _ _) = _
  have := u.isLt
  simp [rowSel, wordRow]; omega
theorem vacrRow (d : VReg) (a : AccReg) (i : BitVec 5) : Statement (.vacrRow d a i) := by
  intro _ w he
  refine decodeSlot_of_encode he ?_
  change kField _ (rowSel _ _ _) = _
  have hi := i.isLt
  have hv : (0x100 + i.setWidth 9 : BitVec 9).toNat = 256 + i.toNat := by simp; omega
  have hb : ∀ i : BitVec 5, (0x100 + i.setWidth 9 : BitVec 9).setWidth 5 = i := by decide
  rw [kField_of, imm9_of, rowSel, if_neg (by omega), if_pos (by omega), hb i]
  simp [wordRow]
theorem vacw (d : AccReg) (a : VReg) (u : BitVec 4) : Statement (.vacw d a u) := by
  intro _ w he
  refine decodeSlot_of_encode he ?_
  change kField _ (rowSel _ _ _) = _
  have := u.isLt
  simp [rowSel, wordRow]; omega
theorem vacwRow (d : AccReg) (a : VReg) (i : BitVec 5) : Statement (.vacwRow d a i) := by
  intro _ w he
  refine decodeSlot_of_encode he ?_
  change kField _ (rowSel _ _ _) = _
  have hi := i.isLt
  have hv : (0x100 + i.setWidth 9 : BitVec 9).toNat = 256 + i.toNat := by simp; omega
  have hb : ∀ i : BitVec 5, (0x100 + i.setWidth 9 : BitVec 9).setWidth 5 = i := by decide
  rw [kField_of, imm9_of, rowSel, if_neg (by omega), if_pos (by omega), hb i]
  simp [wordRow]
theorem vqpop (d : VReg) (a : RqReg) : Statement (.vqpop d a) := by
  intro h w he
  refine decodeSlot_of_encode he ?_
  change rqField _ (Except.ok _) = _
  simp [wordRow]
theorem mma (d : AccReg) (a : GReg) (b : GReg) : Statement (.mma d a b) := by
  intro h w he
  refine decodeSlot_of_encode he ?_
  change onPair _ (kField _ _) = _
  simp [onPair, show pairOk a = true from h, rX0, wordRow]
theorem mmas (d : AccReg) (a : GReg) (b : GReg) : Statement (.mmas d a b) := by
  intro h w he
  refine decodeSlot_of_encode he ?_
  change kField _ (Except.ok _) = _
  simp [wordRow]
theorem mzero (d : AccReg) : Statement (.mzero d) := by
  intro h w he
  refine decodeSlot_of_encode he ?_
  change kField _ (Except.ok _) = _
  simp [wordRow]
theorem mdrn (d : RqReg) (a : AccReg) : Statement (.mdrn d a) := by
  intro h w he
  refine decodeSlot_of_encode he ?_
  change rqField _ (kField _ (Except.ok _)) = _
  simp [wordRow]
theorem mchk (d : AccReg) (a : GReg) (b : GReg) : Statement (.mchk d a b) := by
  intro h w he
  refine decodeSlot_of_encode he ?_
  change onPair _ (kField _ _) = _
  simp [onPair, show pairOk a = true from h, rX0, wordRow]
theorem mstat (d : GReg) : Statement (.mstat d) := fun _ _ he => decodeSlot_of_encode he rfl
theorem cpy (a : GReg) (b : GReg) (m : FeMode) : Statement (.cpy a b m) := by
  intro h w he
  refine decodeSlot_of_encode he ?_
  change need _ _ = _
  simp [wordRow]
theorem cpyn (a : GReg) (b : GReg) (m : FeMode) : Statement (.cpyn a b m) := by
  intro h w he
  refine decodeSlot_of_encode he ?_
  change need _ _ = _
  simp [wordRow]
theorem cpyp (a : GReg) (b : GReg) (m : FeMode) : Statement (.cpyp a b m) := by
  intro h w he
  refine decodeSlot_of_encode he ?_
  change need _ _ = _
  simp [wordRow]
theorem cpym (a : GReg) (b : GReg) (m : FeMode) : Statement (.cpym a b m) := by
  intro h w he
  refine decodeSlot_of_encode he ?_
  change need _ _ = _
  simp [wordRow]
theorem cpyg (a : GReg) (b : GReg) (m : FeMode) : Statement (.cpyg a b m) := by
  intro h w he
  refine decodeSlot_of_encode he ?_
  change need _ _ = _
  simp [wordRow]
theorem cpyq (a : RqReg) (b : GReg) (m : FeMode) : Statement (.cpyq a b m) := by
  intro h w he
  refine decodeSlot_of_encode he ?_
  change rqField _ (need _ _) = _
  simp [wordRow]
theorem rngset (a : GReg) (b : GReg) : Statement (.rngset a b) := fun _ _ he => decodeSlot_of_encode he rfl
theorem rngadvRelease (a : GReg) (b : GReg) : Statement (.rngadvRelease a b) := fun _ _ he => decodeSlot_of_encode he rfl
theorem rngadvCommit (a : GReg) (b : GReg) : Statement (.rngadvCommit a b) := fun _ _ he => decodeSlot_of_encode he rfl
theorem barinit (a : GReg) (b : GReg) : Statement (.barinit a b) := fun _ _ he => decodeSlot_of_encode he rfl
theorem barexp (a : GReg) (b : GReg) : Statement (.barexp a b) := fun _ _ he => decodeSlot_of_encode he rfl
theorem tfetch (a : GReg) (b : GReg) : Statement (.tfetch a b) := fun _ _ he => decodeSlot_of_encode he rfl
theorem lnkSendPut (a : GReg) (b : GReg) : Statement (.lnkSendPut a b) := fun _ _ he => decodeSlot_of_encode he rfl
theorem lnkSendGet (a : GReg) (b : GReg) : Statement (.lnkSendGet a b) := fun _ _ he => decodeSlot_of_encode he rfl
theorem lnkSendAtomic (a : GReg) (b : GReg) : Statement (.lnkSendAtomic a b) := fun _ _ he => decodeSlot_of_encode he rfl
theorem lnkSendMessage (a : GReg) (b : GReg) : Statement (.lnkSendMessage a b) := fun _ _ he => decodeSlot_of_encode he rfl
theorem lnkRecv (a : GReg) (b : GReg) : Statement (.lnkRecv a b) := fun _ _ he => decodeSlot_of_encode he rfl
theorem lnkRadd (a : GReg) (b : GReg) : Statement (.lnkRadd a b) := fun _ _ he => decodeSlot_of_encode he rfl
theorem lnkRed (a : GReg) (b : GReg) : Statement (.lnkRed a b) := fun _ _ he => decodeSlot_of_encode he rfl
theorem netPost (a : GReg) (b : GReg) : Statement (.netPost a b) := fun _ _ he => decodeSlot_of_encode he rfl
theorem netArm (a : GReg) (b : GReg) : Statement (.netArm a b) := fun _ _ he => decodeSlot_of_encode he rfl
theorem netCqr (d : GReg) (a : GReg) : Statement (.netCqr d a) := fun _ _ he => decodeSlot_of_encode he rfl
theorem launch (d : GReg) : Statement (.launch d) := by
  intro _ w he
  refine decodeSlot_of_encode he ?_
  rw [wrsr_fields _ _ (by decide)]
  rfl
theorem genraise (d : GReg) : Statement (.genraise d) := by
  intro _ w he
  refine decodeSlot_of_encode he ?_
  rw [wrsr_fields _ _ (by decide)]
  rfl
theorem s2genraise (d : GReg) : Statement (.s2genraise d) := by
  intro _ w he
  refine decodeSlot_of_encode he ?_
  rw [wrsr_fields _ _ (by decide)]
  rfl
theorem bankFormatRegister (d : GReg) (bank : BitVec 9) : Statement (.bankFormatRegister d bank) := by
  intro h w he
  refine decodeSlot_of_encode he ?_
  change @onField _ _ _ = _
  have hb : bank.toNat < 384 := by simpa [WellFormed] using h
  have hv : (2048 + bank.setWidth 15 : BitVec 15).toNat = 2048 + bank.toNat := by simp; omega
  have hn : ((2048 + bank.setWidth 15 : BitVec 15).setWidth 12).toNat = 2048 + bank.toNat := by rw [BitVec.toNat_setWidth, hv]; omega
  have hr : wrRow ((2048 + bank.setWidth 15 : BitVec 15).setWidth 12) = .bank := by
    rw [wrRow, hn]; split <;> first | omega | rfl | (rw [if_pos]; omega)
  rw [imm15_of, onField, if_pos (by omega), wrInstr, hr]
  simp [wordRow]
  apply BitVec.eq_of_toNat_eq; simp; omega
theorem sgbase (d : GReg) : Statement (.sgbase d) := by
  intro _ w he
  refine decodeSlot_of_encode he ?_
  rw [wrsr_fields _ _ (by decide)]
  rfl
theorem frqs (d : GReg) : Statement (.frqs d) := by
  intro _ w he
  refine decodeSlot_of_encode he ?_
  rw [wrsr_fields _ _ (by decide)]
  rfl
theorem frqh (d : GReg) : Statement (.frqh d) := by
  intro _ w he
  refine decodeSlot_of_encode he ?_
  rw [wrsr_fields _ _ (by decide)]
  rfl
theorem featack0 (d : GReg) : Statement (.featack0 d) := by
  intro _ w he
  refine decodeSlot_of_encode he ?_
  rw [wrsr_fields _ _ (by decide)]
  rfl
theorem rgnctlQuery (d : GReg) : Statement (.rgnctlQuery d) := by
  intro _ w he
  refine decodeSlot_of_encode he ?_
  rw [wrsr_fields _ _ (by decide)]
  rfl
theorem rgnctlPreempt (d : GReg) : Statement (.rgnctlPreempt d) := by
  intro _ w he
  refine decodeSlot_of_encode he ?_
  rw [wrsr_fields _ _ (by decide)]
  rfl
theorem rgnctlResume (d : GReg) : Statement (.rgnctlResume d) := by
  intro _ w he
  refine decodeSlot_of_encode he ?_
  rw [wrsr_fields _ _ (by decide)]
  rfl
theorem nop : Statement .nop := fun _ _ he => decodeSlot_of_encode he rfl
theorem ret : Statement .ret := fun _ _ he => decodeSlot_of_encode he rfl
theorem idle : Statement .idle := fun _ _ he => decodeSlot_of_encode he rfl
theorem rft : Statement .rft := fun _ _ he => decodeSlot_of_encode he rfl
theorem sstep : Statement .sstep := fun _ _ he => decodeSlot_of_encode he rfl
theorem tdone : Statement .tdone := fun _ _ he => decodeSlot_of_encode he rfl
theorem yield : Statement .yield := fun _ _ he => decodeSlot_of_encode he rfl
theorem mwait : Statement .mwait := fun _ _ he => decodeSlot_of_encode he rfl
theorem waitingFormRetry : Statement .waitingFormRetry := fun _ _ he => nomatch he
theorem waitmTimeout : Statement .waitmTimeout := fun _ _ he => nomatch he
theorem loadDataArrival : Statement .loadDataArrival := fun _ _ he => nomatch he
theorem storePerformed : Statement .storePerformed := fun _ _ he => nomatch he
theorem landing : Statement .landing := fun _ _ he => nomatch he
theorem landingLate : Statement .landingLate := fun _ _ he => nomatch he
theorem mmasFire : Statement .mmasFire := fun _ _ he => nomatch he
theorem copyChunk : Statement .copyChunk := fun _ _ he => nomatch he
theorem trapEntry : Statement .trapEntry := fun _ _ he => nomatch he
theorem intExt : Statement .intExt := fun _ _ he => nomatch he
theorem preempt : Statement .preempt := fun _ _ he => nomatch he
theorem barrierRelease : Statement .barrierRelease := fun _ _ he => nomatch he
theorem conductorSlotSend : Statement .conductorSlotSend := fun _ _ he => nomatch he
theorem computeStepStart : Statement .computeStepStart := fun _ _ he => nomatch he
theorem taskedBoundary : Statement .taskedBoundary := fun _ _ he => nomatch he
theorem deadlineOver : Statement .deadlineOver := fun _ _ he => nomatch he
theorem taskDispatch : Statement .taskDispatch := fun _ _ he => nomatch he
theorem taskAgeing : Statement .taskAgeing := fun _ _ he => nomatch he
theorem parkWake : Statement .parkWake := fun _ _ he => nomatch he
theorem completionRecord : Statement .completionRecord := fun _ _ he => nomatch he
theorem verdict : Statement .verdict := fun _ _ he => nomatch he
theorem wqEntryLaunch : Statement .wqEntryLaunch := fun _ _ he => nomatch he
theorem leaseAcquisition : Statement .leaseAcquisition := fun _ _ he => nomatch he
theorem pageFaultResponse : Statement .pageFaultResponse := fun _ _ he => nomatch he
theorem queueInactive : Statement .queueInactive := fun _ _ he => nomatch he
theorem dbtail : Statement .dbtail := fun _ _ he => nomatch he
theorem wqcfg : Statement .wqcfg := fun _ _ he => nomatch he
theorem tileFill : Statement .tileFill := fun _ _ he => nomatch he
theorem tileWriteback : Statement .tileWriteback := fun _ _ he => nomatch he
theorem keyRotationEnd : Statement .keyRotationEnd := fun _ _ he => nomatch he
theorem pageMigration : Statement .pageMigration := fun _ _ he => nomatch he
theorem multicastArrival : Statement .multicastArrival := fun _ _ he => nomatch he
theorem gets : Statement .gets := fun _ _ he => nomatch he
theorem getm : Statement .getm := fun _ _ he => nomatch he
theorem drop : Statement .drop := fun _ _ he => nomatch he
theorem noticeEToM : Statement .noticeEToM := fun _ _ he => nomatch he
theorem invalidation : Statement .invalidation := fun _ _ he => nomatch he
theorem windowFill : Statement .windowFill := fun _ _ he => nomatch he
theorem packageLost : Statement .packageLost := fun _ _ he => nomatch he
theorem flitReplay : Statement .flitReplay := fun _ _ he => nomatch he
theorem lnkDown : Statement .lnkDown := fun _ _ he => nomatch he
theorem lossBeyondReplay : Statement .lossBeyondReplay := fun _ _ he => nomatch he
theorem remoteWrite : Statement .remoteWrite := fun _ _ he => nomatch he
theorem remoteAtomic : Statement .remoteAtomic := fun _ _ he => nomatch he
theorem atomicResend : Statement .atomicResend := fun _ _ he => nomatch he
theorem messageArrival : Statement .messageArrival := fun _ _ he => nomatch he
theorem reductionDelivery : Statement .reductionDelivery := fun _ _ he => nomatch he
theorem timeMessage : Statement .timeMessage := fun _ _ he => nomatch he
theorem circuitSlotStart : Statement .circuitSlotStart := fun _ _ he => nomatch he
theorem packetPlacement : Statement .packetPlacement := fun _ _ he => nomatch he
theorem selectiveAck : Statement .selectiveAck := fun _ _ he => nomatch he
theorem retransmitTimeout : Statement .retransmitTimeout := fun _ _ he => nomatch he
theorem sliceEnd : Statement .sliceEnd := fun _ _ he => nomatch he
theorem sliceStart : Statement .sliceStart := fun _ _ he => nomatch he
theorem graceEnd : Statement .graceEnd := fun _ _ he => nomatch he
theorem forcedSaveComplete : Statement .forcedSaveComplete := fun _ _ he => nomatch he
theorem regionHalt : Statement .regionHalt := fun _ _ he => nomatch he
theorem stopComplete : Statement .stopComplete := fun _ _ he => nomatch he
theorem scanSlot : Statement .scanSlot := fun _ _ he => nomatch he
theorem swap : Statement .swap := fun _ _ he => nomatch he
theorem swapTimeout : Statement .swapTimeout := fun _ _ he => nomatch he
theorem scanEnd : Statement .scanEnd := fun _ _ he => nomatch he
theorem memUncorr : Statement .memUncorr := fun _ _ he => nomatch he
theorem hostMemAccess : Statement .hostMemAccess := fun _ _ he => nomatch he
theorem hostSnoop : Statement .hostSnoop := fun _ _ he => nomatch he
theorem tdispMessage : Statement .tdispMessage := fun _ _ he => nomatch he
theorem hostLinkDown : Statement .hostLinkDown := fun _ _ he => nomatch he
theorem clockPlanInstall : Statement .clockPlanInstall := fun _ _ he => nomatch he
theorem getVersion : Statement .getVersion := fun _ _ he => nomatch he
theorem getCapabilities : Statement .getCapabilities := fun _ _ he => nomatch he
theorem negotiateAlgorithms : Statement .negotiateAlgorithms := fun _ _ he => nomatch he
theorem getDigests : Statement .getDigests := fun _ _ he => nomatch he
theorem getCertificate : Statement .getCertificate := fun _ _ he => nomatch he
theorem challenge : Statement .challenge := fun _ _ he => nomatch he
theorem getMeasurements : Statement .getMeasurements := fun _ _ he => nomatch he
theorem keyExchange : Statement .keyExchange := fun _ _ he => nomatch he
theorem finish : Statement .finish := fun _ _ he => nomatch he
theorem firmwareUpdate : Statement .firmwareUpdate := fun _ _ he => nomatch he
theorem packageReset : Statement .packageReset := fun _ _ he => nomatch he
theorem thermalTrip : Statement .thermalTrip := fun _ _ he => nomatch he
theorem tokenAccrual : Statement .tokenAccrual := fun _ _ he => nomatch he
theorem linkTraining : Statement .linkTraining := fun _ _ he => nomatch he
theorem acknowledgement : Statement .acknowledgement := fun _ _ he => nomatch he
theorem ageingReport : Statement .ageingReport := fun _ _ he => nomatch he
theorem managementRequest : Statement .managementRequest := fun _ _ he => nomatch he

end Sys2Proof.Laws.RoundTrip
end

