-- ==== Sys2Proof/Safety.lean ====
section
/-!
DEFINITION. What a safe run is: a run of which no step stops, and the one form of the stores that every step keeps.
-/

namespace Sys2Proof.Machine

/-- The next step answers a state. -/
def State.goes (s : State) : Prop := ∃ t, step s = .next t

/-- The next k steps answer states. -/
def State.safe : Nat → State → Prop
  | 0, _ => True
  | k + 1, s => ∃ t, step s = .next t ∧ t.safe k

/-- States that a run from s reaches. -/
inductive State.reaches (s : State) : State → Prop where
  | here : State.reaches s s
  | next (t u : State) : State.reaches s t → step t = .next u → State.reaches s u

/-- Every store is in canonical form: addresses strictly rise and no listed byte is the unlisted one. -/
def State.storesCanonical (s : State) : Prop :=
  Memory.wf s.mem = true ∧ (∀ c ∈ s.allCores, Memory.wf c.spad = true) ∧ ∀ r ∈ s.regions, ∀ x ∈ r.images, Memory.wf x.2.spad = true

end Sys2Proof.Machine
end

