-- ==== Sys2Proof/Tests/Slice0.lean ====
section
/-!
SUPPORT. Tests of the model: ill-formed instructions that WellFormed refuses, words of the opcode table, worked examples of the spec, and for
every obligation a state and operands that meet its hypotheses.
-/

set_option maxRecDepth 100000
set_option Elab.async false

namespace Sys2Proof.Tests

open Sys2Proof Sys2Proof.Machine

/-! ### Ill-formed instructions, one for each check of WellFormed -/

/-- A loop's end lies at least one slot behind it (R83). -/
theorem test_wf_loop : WellFormed (.loop 1 5 0) = false ∧ WellFormed (.loopi 1 3 0) = false ∧ WellFormed (.loop 1 5 1) = true := by decide
/-- A special register with a row of its own is no plain WRSR. -/
theorem test_wf_wrsr : WellFormed (.wrsr 5 0x187) = false ∧ WellFormed (.wrsr 5 0x20A) = false ∧ WellFormed (.wrsr 5 0x80A) = false ∧
    WellFormed (.wrsr 5 0x140) = true := by decide
/-- There are 384 bank format registers (R210). -/
theorem test_wf_bank : WellFormed (.bankFormatRegister 5 384) = false ∧ WellFormed (.bankFormatRegister 5 383) = true := by decide
/-- A FENCE.X mask names at least two paths (R62). -/
theorem test_wf_fenceX : WellFormed (.fenceX 8 .core) = false ∧ WellFormed (.fenceX 9 .core) = true := by decide
/-- A pair is named by its even register, at most g60 (R64). -/
theorem test_wf_cas : WellFormed (.cas 5 7 false false) = false ∧ WellFormed (.cas 5 62 true false) = false ∧
    WellFormed (.cas 5 60 true false) = true := by decide
/-- A masked form names k1 to k15 (R66). -/
theorem test_wf_masked : WellFormed (.vaddMasked 1 0 2 .i32) = false ∧ WellFormed (.vandMasked 1 0 2) = false ∧
    WellFormed (.vpackMasked 1 0 2 .i8) = false ∧ WellFormed (.vaddMasked 1 15 2 .i32) = true := by decide
/-- VMULH takes integer types (R148). -/
theorem test_wf_vmulh : WellFormed (.vmulh 1 2 3 .f32) = false ∧ WellFormed (.vmulhMasked 1 2 3 .b16) = false ∧
    WellFormed (.vmulh 1 2 3 .w16) = true := by decide
/-- VSHL, VSHR and VPERM take unsigned types, VSHA signed ones (R148). -/
theorem test_wf_shifts : WellFormed (.vshl 1 2 3 .i32) = false ∧ WellFormed (.vshrMasked 1 2 3 .f16) = false ∧
    WellFormed (.vperm 1 2 3 .i16) = false ∧ WellFormed (.vsha 1 2 3 .w32) = false ∧ WellFormed (.vshaMasked 1 2 3 .w16) = false := by decide
/-- VABS and VNEG take signed and floating types, the special functions floating ones (R153). -/
theorem test_wf_unary : WellFormed (.vabs 1 2 3 .w32) = false ∧ WellFormed (.vneg 1 2 3 .w16) = false ∧
    WellFormed (.vrcp 1 2 3 .i32) = false ∧ WellFormed (.vlog2 1 2 3 .w16) = false ∧ WellFormed (.vexp2 1 2 3 .b16) = true := by decide
/-- VCVT selector 63 and VSHUF kinds 6 and 7 are reserved, and a width code is at most 3 (R158, R164). -/
theorem test_wf_moves : WellFormed (.vcvt 1 2 63 .status) = false ∧ WellFormed (.vshuf 1 2 6 0) = false ∧
    WellFormed (.vshuf 1 2 2 4) = false ∧ WellFormed (.vshuf 1 2 2 3) = true := by decide
/-- MMA and MCHK name an even register of a pair (R67). -/
theorem test_wf_mma : WellFormed (.mma 1 9 10) = false ∧ WellFormed (.mchk 1 62 10) = false ∧ WellFormed (.mma 1 8 10) = true := by decide

/-! ### Reserved encodings are refused by name -/

/-- A unit, an opcode, a field and an X value that the map reserves (R39, R57, R60 to R68). -/
theorem test_reserved : decodeSlot 0x50000000 = .error .reservedUnit ∧ decodeSlot 0x0FE00000 = .error .reservedOpcode ∧
    decodeSlot 0x00008000 = .error .reservedField ∧ decodeSlot 0x00200001 = .error .reservedX ∧
    decodeBytes [0, 0, 0] = .error .truncated := by decide

/-! ### The words of the opcode table -/

/-- Words of the S unit, part 1. -/
def wordsS1 : List (SlotWord × Instr) :=
  [(0x00000000, .nop), (0x00228C38, .add 5 6 7), (0x00428C38, .sub 5 6 7), (0x00628C38, .mul 5 6 7), (0x00828C38, .mulh 5 6 7),
   (0x00A28C38, .mulhw 5 6 7), (0x00C28C38, .div 5 6 7), (0x00E28C38, .divw 5 6 7), (0x01028C38, .rem 5 6 7), (0x01228C38, .remw 5 6 7),
   (0x01428C38, .and 5 6 7), (0x01628C38, .or 5 6 7), (0x01828C38, .xor 5 6 7), (0x01A28C38, .shl 5 6 7), (0x01C28C38, .shr 5 6 7),
   (0x01E28C38, .sha 5 6 7), (0x02028C38, .min 5 6 7), (0x02228C38, .max 5 6 7), (0x02428C38, .minw 5 6 7), (0x02628C38, .maxw 5 6 7),
   (0x02828C00, .clz 5 6), (0x02A28C00, .ctz 5 6), (0x02C28C00, .popc 5 6), (0x02E28C01, .sext 5 6 .w16)]
/-- The opcode table gives each of them this word, and each word this row. -/
theorem test_words_S1 : ∀ x ∈ wordsS1, decodeSlot x.1 = .ok (wordRow x.2) ∧ encode x.2 = some x.1 := by decide

/-- Words of the S unit, part 2. -/
def wordsS2 : List (SlotWord × Instr) :=
  [(0x03028C01, .zext 5 6 .w16), (0x03228C39, .bfx 5 6 7 true), (0x03428C38, .bfi 5 6 7), (0x03628C38, .sel 5 6 7),
   (0x03828C3C, .cmp 5 6 7 .ltw), (0x04028D55, .addi 5 6 341), (0x04228D55, .andi 5 6 341), (0x04428D55, .ori 5 6 341),
   (0x04628D55, .xori 5 6 341), (0x04828C09, .shli 5 6 9), (0x04A28C09, .shri 5 6 9), (0x04C28C09, .shai 5 6 9), (0x05028D55, .cmpiEq 5 6 341),
   (0x05228D55, .cmpiNe 5 6 341), (0x05428D55, .cmpiLt 5 6 341), (0x05628D55, .cmpiGe 5 6 341), (0x05828D55, .cmpiLtw 5 6 341),
   (0x05A28D55, .cmpiGew 5 6 341), (0x05C2C321, .movi 5 17185), (0x05E2C321, .movhi 5 17185), (0x061F1234, .br 2036276),
   (0x063F1234, .call 2036276), (0x06429234, .brcZ 5 4660), (0x06629234, .brcNz 5 4660)]
/-- The opcode table gives each of them this word, and each word this row. -/
theorem test_words_S2 : ∀ x ∈ wordsS2, decodeSlot x.1 = .ok (wordRow x.2) ∧ encode x.2 = some x.1 := by decide

/-- Words of the S unit, part 3. -/
def wordsS3 : List (SlotWord × Instr) :=
  [(0x06800C00, .jmp 6), (0x06A00000, .ret), (0x06C10C45, .loop 2 6 69), (0x06E152C5, .loopi 2 165 69), (0x07000000, .idle),
   (0x08028123, .rdsr 5 291), (0x08228123, .wrsr 5 291), (0x08401234, .trap 4660), (0x08601234, .sysc 4660), (0x08801234, .brk 4660),
   (0x08A00000, .rft), (0x08C00C38, .accFlip 6 7), (0x08C00C38, .spadFlip 6 7), (0x08C00C38, .sectorPoison 6 7), (0x08C00C38, .tagBreak 6 7),
   (0x08C00C38, .raise 6 7), (0x09228D55, .ldw 5 6 341 true), (0x09628D55, .ldc 5 6 341 true), (0x09A28D55, .stf 5 6 341 true),
   (0x09E28D55, .sts 5 6 341 true), (0x0A228D55, .feq 5 6 341 true), (0x0A600D55, .feset 6 341 true), (0x0AA00D55, .feclr 6 341 true),
   (0x0B000000, .sstep)]
/-- The opcode table gives each of them this word, and each word this row. -/
theorem test_words_S3 : ∀ x ∈ wordsS3, decodeSlot x.1 = .ok (wordRow x.2) ∧ encode x.2 = some x.1 := by decide

/-- Words of the S unit, part 4. -/
def wordsS4 : List (SlotWord × Instr) :=
  [(0x0B228C38, .spawn 5 6 7), (0x0B400000, .tdone), (0x0B600C00, .park 6), (0x0B800000, .yield), (0x0BA00C38, .dcset 6 7),
   (0x0BC00C00, .dcdec 6), (0x0C248D55, .mon 9 6 341 true), (0x0C428C00, .waitm 5 6), (0x0C60004D, .acq (.group 9)),
   (0x0C80004D, .rel (.group 9)), (0x0CA0004D, .fence (.group 9)), (0x0CC00A4D, .fenceX 5 (.group 9)), (0x0CE00C4D, .promote 6 (.group 9)),
   (0x0D000C38, .barwt 6 7), (0x0D828C38, .wdecl 5 6 7), (0x0DA00C00, .wdrop 6), (0x0DC00C4D, .acqt 6 (.group 9)),
   (0x0DE00C4D, .relt 6 (.group 9)), (0x0E000C38, .ptbindCores 6 7), (0x0E000C38, .ptbindEngines 6 7), (0x0E000C38, .ptbindMemports 6 7),
   (0x0E000C38, .ptbindQueues 6 7), (0x0E000C38, .ptbindS2root 6 7), (0x0E000C38, .ptbindKey 6 7)]
/-- The opcode table gives each of them this word, and each word this row. -/
theorem test_words_S4 : ∀ x ∈ wordsS4, decodeSlot x.1 = .ok (wordRow x.2) ∧ encode x.2 = some x.1 := by decide

/-- Words of the S unit, part 5. -/
def wordsS5 : List (SlotWord × Instr) :=
  [(0x0E000C38, .ptbindDump 6 7), (0x0E000C38, .ptbindFaper 6 7), (0x0E000C38, .ptbindNaper 6 7), (0x0E000C38, .ptbindPeer 6 7),
   (0x0E000C38, .ptbindKport 6 7), (0x0E000C38, .ptbindRwin 6 7), (0x0E000C38, .ptbindIntr 6 7), (0x0E000C38, .ptbindInj 6 7),
   (0x0E200C38, .ptquotaSlice 6 7), (0x0E200C38, .ptquotaPrio 6 7), (0x0E200C38, .ptquotaRate 6 7), (0x0E200C38, .ptquotaActiveq 6 7),
   (0x0E400C00, .ptsealSeal 6), (0x0E400C00, .ptsealStop 6), (0x0E400C00, .ptsealFree 6), (0x08228187, .launch 5), (0x08228185, .sgbase 5),
   (0x08228205, .genraise 5), (0x0822820A, .s2genraise 5), (0x08228050, .frqs 5), (0x08228051, .frqh 5), (0x08228304, .featack0 5),
   (0x0822830B, .rgnctlQuery 5), (0x0822830B, .rgnctlPreempt 5)]
/-- The opcode table gives each of them this word, and each word this row. -/
theorem test_words_S5 : ∀ x ∈ wordsS5, decodeSlot x.1 = .ok (wordRow x.2) ∧ encode x.2 = some x.1 := by decide

/-- Words of the S unit, part 6. -/
def wordsS6 : List (SlotWord × Instr) :=
  [(0x0822830B, .rgnctlResume 5), (0x0822884D, .bankFormatRegister 5 77)]
/-- The opcode table gives each of them this word, and each word this row. -/
theorem test_words_S6 : ∀ x ∈ wordsS6, decodeSlot x.1 = .ok (wordRow x.2) ∧ encode x.2 = some x.1 := by decide

/-- Words of the A unit, part 1. -/
def wordsA1 : List (SlotWord × Instr) :=
  [(0x115F8D55, .la 6 341 2 true), (0x11DF8D55, .lav 6 341 2 true), (0x13400D55, .sa 6 341 2 true), (0x13C00D55, .sav 6 341 2 true),
   (0x143F8C3D, .laxIndex 6 7 5 true), (0x147F8C3D, .laxIncrement 6 7 5 true), (0x14A00C3D, .saxIndex 6 7 5 true),
   (0x14E00C3D, .saxIncrement 6 7 5 true), (0x153F8C3B, .lavStrided 6 7 3 true), (0x15600C3B, .savStrided 6 7 3 true),
   (0x15BF8C3B, .lagv 6 7 3 true), (0x15E00C3B, .sasv 6 7 3 true), (0x16000D55, .pref 6 341), (0x177F8C38, .amoAdd 6 7 true true),
   (0x177F8C39, .amoAnd 6 7 true true), (0x177F8C3A, .amoOr 6 7 true true), (0x177F8C3B, .amoXor 6 7 true true),
   (0x177F8C3C, .amoSwap 6 7 true true), (0x177F8C3D, .amoSmin 6 7 true true), (0x177F8C3E, .amoSmax 6 7 true true),
   (0x177F8C3F, .amoUmin 6 7 true true), (0x17FF8C38, .amoUmax 6 7 true true), (0x17BF8C39, .amoFadd 6 7 true), (0x187F8C40, .cas 6 8 true true)]
/-- The opcode table gives each of them this word, and each word this row. -/
theorem test_words_A1 : ∀ x ∈ wordsA1, decodeSlot x.1 = .ok (wordRow x.2) ∧ encode x.2 = some x.1 := by decide

/-- Words of the A unit, part 2. -/
def wordsA2 : List (SlotWord × Instr) :=
  [(0x18BF8C3A, .laLand 6 7 2 true), (0x18BF8C3E, .lavLand 6 7 2 true)]
/-- The opcode table gives each of them this word, and each word this row. -/
theorem test_words_A2 : ∀ x ∈ wordsA2, decodeSlot x.1 = .ok (wordRow x.2) ∧ encode x.2 = some x.1 := by decide

/-- Words of the V unit, part 1. -/
def wordsV1 : List (SlotWord × Instr) :=
  [(0x20028C3D, .vadd 5 6 7 .f16), (0x2022863D, .vaddMasked 5 3 7 .f16), (0x20428C3D, .vsub 5 6 7 .f16), (0x2062863D, .vsubMasked 5 3 7 .f16),
   (0x20828C3D, .vmul 5 6 7 .f16), (0x20A2863D, .vmulMasked 5 3 7 .f16), (0x20C28C3A, .vmulh 5 6 7 .i16), (0x20E2863A, .vmulhMasked 5 3 7 .i16),
   (0x21028C3D, .vmin 5 6 7 .f16), (0x2122863D, .vminMasked 5 3 7 .f16), (0x21428C3D, .vmax 5 6 7 .f16), (0x2162863D, .vmaxMasked 5 3 7 .f16),
   (0x21828C38, .vand 5 6 7), (0x21A28638, .vandMasked 5 3 7), (0x21C28C38, .vor 5 6 7), (0x21E28638, .vorMasked 5 3 7),
   (0x22028C38, .vxor 5 6 7), (0x22228638, .vxorMasked 5 3 7), (0x22428C3B, .vshl 5 6 7 .w16), (0x2262863B, .vshlMasked 5 3 7 .w16),
   (0x22828C3B, .vshr 5 6 7 .w16), (0x22A2863B, .vshrMasked 5 3 7 .w16), (0x22C28C3A, .vsha 5 6 7 .i16), (0x22E2863A, .vshaMasked 5 3 7 .i16)]
/-- The opcode table gives each of them this word, and each word this row. -/
theorem test_words_V1 : ∀ x ∈ wordsV1, decodeSlot x.1 = .ok (wordRow x.2) ∧ encode x.2 = some x.1 := by decide

/-- Words of the V unit, part 2. -/
def wordsV2 : List (SlotWord × Instr) :=
  [(0x23028C3B, .vperm 5 6 7 .w16), (0x2322863B, .vpermMasked 5 3 7 .w16), (0x23428C39, .vpack 5 6 7 .w8), (0x23628639, .vpackMasked 5 3 7 .w8),
   (0x24028C1D, .vabs 5 6 3 .f16), (0x24228C1D, .vneg 5 6 3 .f16), (0x24428C18, .vnot 5 6 3), (0x24628C1D, .vrcp 5 6 3 .f16),
   (0x24828C1D, .vrsq 5 6 3 .f16), (0x24A28C1D, .vexp2 5 6 3 .f16), (0x24C28C1D, .vlog2 5 6 3 .f16), (0x24E28C1D, .vredSum 5 6 3 .f16),
   (0x25028C1D, .vredMax 5 6 3 .f16), (0x25228C1D, .vredMin 5 6 3 .f16), (0x25428C1D, .vscan 5 6 3 .f16), (0x25628C18, .vmov 5 6 3),
   (0x25828C19, .vsat 5 6 3 .w8), (0x25A28C19, .vunpkLo 5 6 3 .w8), (0x25C28C19, .vunpkHi 5 6 3 .w8), (0x25E28C1D, .vbcast 5 6 3 .f16),
   (0x26228C3B, .vfmaF32 5 6 7 11), (0x26628C3B, .vfmaF16 5 6 7 11), (0x26A28C3B, .vfmaB16 5 6 7 11), (0x26E28C3B, .vfmsF32 5 6 7 11)]
/-- The opcode table gives each of them this word, and each word this row. -/
theorem test_words_V2 : ∀ x ∈ wordsV2, decodeSlot x.1 = .ok (wordRow x.2) ∧ encode x.2 = some x.1 := by decide

/-- Words of the V unit, part 3. -/
def wordsV3 : List (SlotWord × Instr) :=
  [(0x27228C3B, .vfmsF16 5 6 7 11), (0x27628C3B, .vfmsB16 5 6 7 11), (0x27A28C3B, .vfnmaF32 5 6 7 11), (0x27E28C3B, .vfnmaF16 5 6 7 11),
   (0x28228C3B, .vfnmaB16 5 6 7 11), (0x28628C3B, .vdot4I8 5 6 7 11), (0x28A28C3B, .vdot4W8 5 6 7 11), (0x28E28C3B, .vsel 5 6 7 11),
   (0x29028C3D, .vcmpEq 5 6 7 .f16), (0x29228C3D, .vcmpNe 5 6 7 .f16), (0x29428C3D, .vcmpLt 5 6 7 .f16), (0x29628C3D, .vcmpLe 5 6 7 .f16),
   (0x29828C4B, .vcvt 5 6 9 .up), (0x29A28C83, .vshuf 5 6 2 3), (0x29C28C3D, .vins 5 6 7 .f16), (0x29E28C3D, .vext 5 6 7 .f16),
   (0x2A02C321, .vmovi 5 17185), (0x2B028C38, .kand 5 6 7), (0x2B228C38, .kor 5 6 7), (0x2B428C00, .knot 5 6), (0x2B628C00, .kpop 5 6),
   (0x2C028C09, .vacr 5 6 9), (0x2C028D15, .vacrRow 5 6 21), (0x2C228C09, .vacw 5 6 9)]
/-- The opcode table gives each of them this word, and each word this row. -/
theorem test_words_V3 : ∀ x ∈ wordsV3, decodeSlot x.1 = .ok (wordRow x.2) ∧ encode x.2 = some x.1 := by decide

/-- Words of the V unit, part 4. -/
def wordsV4 : List (SlotWord × Instr) :=
  [(0x2C228D15, .vacwRow 5 6 21), (0x2C428C00, .vqpop 5 6)]
/-- The opcode table gives each of them this word, and each word this row. -/
theorem test_words_V4 : ∀ x ∈ wordsV4, decodeSlot x.1 = .ok (wordRow x.2) ∧ encode x.2 = some x.1 := by decide

/-- Words of the M unit, part 1. -/
def wordsM1 : List (SlotWord × Instr) :=
  [(0x30029038, .mma 5 8 7), (0x30228C38, .mmas 5 6 7), (0x30428000, .mzero 5), (0x30628C00, .mdrn 5 6), (0x30829038, .mchk 5 8 7),
   (0x30A00000, .mwait), (0x30C28000, .mstat 5)]
/-- The opcode table gives each of them this word, and each word this row. -/
theorem test_words_M1 : ∀ x ∈ wordsM1, decodeSlot x.1 = .ok (wordRow x.2) ∧ encode x.2 = some x.1 := by decide

/-- Words of the C unit, part 1. -/
def wordsC1 : List (SlotWord × Instr) :=
  [(0x40000C3A, .cpy 6 7 .feempty), (0x40200C3A, .cpyn 6 7 .feempty), (0x40400C3A, .cpyp 6 7 .feempty), (0x40600C3A, .cpym 6 7 .feempty),
   (0x40800C3A, .cpyg 6 7 .feempty), (0x40A00C3A, .cpyq 6 7 .feempty), (0x41000C38, .rngset 6 7), (0x41200C38, .rngadvRelease 6 7),
   (0x41200C38, .rngadvCommit 6 7), (0x41800C38, .barinit 6 7), (0x41A00C38, .barexp 6 7), (0x42000C38, .tfetch 6 7),
   (0x44000C38, .lnkSendPut 6 7), (0x44000C38, .lnkSendGet 6 7), (0x44000C38, .lnkSendAtomic 6 7), (0x44000C38, .lnkSendMessage 6 7),
   (0x44200C38, .lnkRecv 6 7), (0x44400C38, .lnkRadd 6 7), (0x44600C38, .lnkRed 6 7), (0x46000C38, .netPost 6 7), (0x46200C38, .netArm 6 7),
   (0x46428C00, .netCqr 5 6)]
/-- The opcode table gives each of them this word, and each word this row. -/
theorem test_words_C1 : ∀ x ∈ wordsC1, decodeSlot x.1 = .ok (wordRow x.2) ∧ encode x.2 = some x.1 := by decide

/-! ### Small states -/

/-- The state with its core changed. -/
def on (f : Core → Core) (s : State) : State := { s with core := f s.core }
/-- The outcome is a next state with p. -/
def gives (o : Outcome) (p : State → Bool) : Bool := match o with | .next u => p u | _ => false
/-- The outcome is a trap with this code and TVAL, at the slot that issues. -/
def traps (o : Outcome) (code : Nat) (tval : Word) : Bool :=
  gives o fun u => match u.core.mark with | .trap t => t.code == code && t.tval == tval | _ => false
/-- A core that runs at level 3 with g1 to g8 at 1 to 8, the bundle address 0x4000 and 99 in its scalar load-data queue. -/
def base : State := on (fun c => { c with
  run := .running, level := 3, pc := 0x4000, next := 0x4004, sldq := [{ id := 0, val := some 99 }],
  g := (((((((c.g.set 1 1).set 2 2).set 3 3).set 4 4).set 5 5).set 6 6).set 7 7).set 8 8 }) State.reset
/-- The core with g[r] set. -/
def setReg (r : GReg) (w : Word) (s : State) : State := on (fun c => { c with g := c.g.set r.toNat w r.isLt }) s

/-- What g[r] holds. -/
def now (s : State) (r : GReg) : Word := s.core.g.get ⟨r.toNat, r.isLt⟩

/-! ### Scalar slots -/

/-- Every scalar compute slot completes with the value of its rule, with a plain destination. -/
theorem witness_scalarResults : ∀ i ∈ [Instr.add 5 6 7, .sub 5 6 7, .mul 5 6 7, .mulh 5 6 7, .mulhw 5 6 7, .div 5 6 7, .divw 5 6 0,
      .rem 5 6 7, .remw 5 6 0, .and 5 6 7, .or 5 6 7, .xor 5 6 7, .shl 5 6 7, .shr 5 6 7, .sha 5 6 7, .min 5 6 7, .max 5 6 7,
      .minw 5 6 7, .maxw 5 6 7, .clz 5 6, .ctz 5 6, .popc 5 6, .sext 5 6 .w8, .zext 5 6 .w32, .bfx 5 6 7 true, .bfi 5 6 7, .sel 5 6 7,
      .cmp 5 6 7 .ltw, .addi 5 6 (-1), .andi 5 6 3, .ori 5 6 0x155, .xori 5 6 1, .shli 5 6 2, .shri 5 6 1, .shai 5 6 1, .cmpiEq 5 6 6,
      .cmpiNe 5 6 6, .cmpiLt 5 6 7, .cmpiGe 5 6 7, .cmpiLtw 5 6 7, .cmpiGew 5 6 7, .movi 5 (-2), .movhi 5 0x7FFF],
    ((Spec.scalarForm i).any fun x => (Spec.readsAll x.2.1 base).any fun y => (Spec.writes x.1 (x.2.2 y.1) y.2).isSome &&
      gives (exec i base) fun t => now t 5 == x.2.2 y.1) = true := by decide +kernel
/-- A source g63 pops, a destination g63 pushes and a destination g0 discards (R25). -/
theorem witness_scalarQueues : (∃ s1 t, Spec.readsAll [63, 7] base = some ([99, 7], s1) ∧ Spec.writes 63 106 s1 = some t ∧
      exec (.add 63 63 7) base = .next t ∧ t.core.sldq = [] ∧ t.core.ssdq = [some 106]) ∧
    Spec.writes 0 7 base = some base ∧ exec (.addi 0 7 0) base = .next base := ⟨⟨_, _, rfl, rfl, rfl, rfl, rfl⟩, rfl, rfl⟩
/-- A slot without a special function changes only its destination: hypotheses of the frame. -/
theorem witness_scalarFrame : ∃ f t, Spec.scalarForm (.add 5 6 7) = some (5, [6, 7], f) ∧ base.core.mark = .ok ∧
    exec (.add 5 6 7) base = .next t := ⟨_, _, rfl, rfl, rfl⟩
/-- MULH of the two extremes, a shift by a count above 63, and BFX of a field at the top (R73, R75, R77). -/
theorem test_scalarCorners :
    gives (exec (.mulh 5 6 7) (setReg 6 0x8000000000000000 (setReg 7 0x8000000000000000 base))) (fun t => now t 5 == 0x4000000000000000) = true ∧
    gives (exec (.shl 5 6 7) (setReg 7 65 base)) (fun t => now t 5 == 12) = true ∧
    gives (exec (.bfx 5 6 7 true) (setReg 6 0xF000000000000000 (setReg 7 0x83C base))) (fun t => now t 5 == -1) = true ∧
    gives (exec (.div 5 6 7) (setReg 6 0x8000000000000000 (setReg 7 (-1) base))) (fun t => now t 5 == 0x8000000000000000) = true := by
  decide +kernel

/-! ### Control -/

/-- Transfers to an aligned target below 2^57, both outcomes of a BRC (R80, R81). -/
theorem witness_transfersGo :
    Spec.goodTarget (base.core.pc + 4 * (2 : BitVec 21).signExtend 64) ∧ Spec.goodTarget (base.core.pc + 4 * (-1 : BitVec 15).signExtend 64) ∧
    (∃ t, Spec.writes 62 (Spec.after base) (Spec.goTo 0x4008 base) = some t ∧ exec (.call 2) base = .next t) ∧
    exec (.br 2) base = .next (Spec.goTo 0x4008 base) ∧ Spec.goodTarget (base.core.gVal 62) ∧ exec .ret base = .next (Spec.goTo 0 base) ∧
    Spec.reads 4 base = some (4, base) ∧ Spec.goodTarget 4 ∧ exec (.jmp 4) base = .next (Spec.goTo 4 base) ∧
    Spec.reads 0 base = some (0, base) ∧ exec (.brcZ 0 (-1)) base = .next (Spec.goTo 0x3FFC base) ∧ exec (.brcNz 0 1) base = .next base ∧
    exec (.brcZ 4 1) base = .next base ∧ exec (.brcNz 4 (-1)) base = .next (Spec.goTo 0x3FFC base) := by
  and_intros <;> first | decide +kernel | rfl | exact ⟨_, rfl, rfl⟩
/-- A target that is no multiple of 4, and the first address past 2^57 (R80). -/
theorem witness_badTargetTraps :
    let top := on (fun c => { c with pc := 0x1FFFFFFFFFFFFFC, g := c.g.set 62 0x200000000000000 }) base
    ¬ Spec.goodTarget (top.core.pc + 4 * (1 : BitVec 21).signExtend 64) ∧ traps (exec (.br 1) top) 0x006 0x200000000000000 = true ∧
    traps (exec (.call 1) top) 0x006 0x200000000000000 = true ∧ ¬ Spec.goodTarget (top.core.gVal 62) ∧
    traps (exec .ret top) 0x006 0x200000000000000 = true ∧ Spec.reads 6 base = some (6, base) ∧ ¬ Spec.goodTarget 6 ∧
    traps (exec (.jmp 6) base) 0x006 6 = true ∧ ¬ Spec.goodTarget (top.core.pc + 4 * (1 : BitVec 15).signExtend 64) ∧
    traps (exec (.brcZ 0 1) top) 0x006 0x200000000000000 = true ∧ traps (exec (.brcNz 1 1) top) 0x006 0x200000000000000 = true := by
  and_intros <;> first | decide +kernel | rfl | exact fun h => absurd h.1 (by decide) | exact fun h => absurd h.2 (by decide +kernel)
/-- The J form's offset counts slots of 4 bytes from the bundle address (R40). -/
theorem test_jForm : (0x40100 : Word) + 4 * (0x1FFFF8 : BitVec 21).signExtend 64 = 0x400E0 := by decide
/-- A state whose heap window maps the lowest memory, with a one-slot bundle of NOP at 0x4010. -/
def mapped : State := { on (fun c => { c with heapbase := 0x7, heaplim := 0x4000000000, heapoff := 0 }) base with
  mem := State.reset.mem.write 0x4010 [0, 0, 0, 0x80] }
/-- Level 1 set up at its end 0x4010 with a count of zero, the bundle there brought in. -/
def skipping (s : State) : State :=
  fetchTouch 8 0x4010 (on (fun c => { c with loops := { c.loops with ls := c.loops.ls.set 1 0x4004, le := c.loops.le.set 1 0x4010 } }) s)
/-- Loops with a count, and with a count of zero before an end bundle that can be framed or one that cannot (R83, R84). -/
theorem witness_loopSetUp : Spec.reads 2 mapped = some (2, mapped) ∧ (∃ t, exec (.loop 1 2 4) mapped = .next t ∧ t.core.loops.order = [1]) ∧
    Spec.reads 0 mapped = some (0, mapped) ∧ (∃ l, frame (skipping mapped) 0x4010 8 = .ok (l, true) ∧ l = [0x80000000]) ∧
    (∀ l : List SlotWord, frame (skipping base) 0x4010 8 ≠ .ok (l, true)) ∧ gives (exec (.loopi 1 0 4) base) (fun t => t.core.next == 0x4010) = true ∧ Spec.goodTarget 0x4014 ∧
    gives (exec (.loop 1 0 4) mapped) (fun t => t.core.next == 0x4014 && t.core.loops.order == []) = true ∧
    gives (exec (.loopi 3 255 4) mapped) (fun t => t.core.loops.lc.get 3 == 255 && t.core.loops.le.get 3 == 0x4010) = true ∧
    gives (exec (.loopi 3 0 4) mapped) (fun t => t.core.next == 0x4014) = true := by
  have no : (match frame (skipping base) 0x4010 8 with | .ok (_, b) => b | .error _ => false) = false := by decide +kernel
  and_intros <;> first | decide +kernel | rfl | exact ⟨_, rfl, rfl⟩ | exact fun l h => by rw [h] at no; cases no
/-- IDLE with a wake event pending, and without one (R88). -/
theorem witness_nopAndIdle :
    let woken := on (fun c => { c with irqs := [{ code := 0x0B1 }] }) base
    let asked : State := { on (fun c => { c with region := some 1 }) base with regions := [{ id := 1, block := 0x10000, asid := 0, part := 0, level := 3, root := 1, state := .requested 7 }] }
    exec .nop base = .next base ∧ woken.core.irqs ≠ [] ∧ exec .idle woken = .next woken ∧
    (asked.myRegion.map fun r => r.state) = some (.requested 7) ∧ exec .idle asked = .next asked ∧
    base.core.irqs = [] ∧ base.core.held = [] ∧ base.core.pend = none ∧ (∀ w ∈ base.core.watches.toList, w.reason = 0) ∧
    base.myRegion = none ∧ exec .idle base = .next (on (fun c => { c with run := .idle 0x4000 }) base) := by
  exact ⟨rfl, List.cons_ne_nil _ _, rfl, rfl, rfl, rfl, rfl, rfl, by decide +kernel, rfl, rfl⟩

/-! ### Traps and special registers -/

/-- A core at level 3 with handlers in all three banks. -/
def handled : State := on (fun c => { c with banks := c.banks.map fun b => { b with tvec := 0x8000 } }) base
/-- The bank of the handling level takes a record; one that is ACTIVE, or has no handler, passes it up, FW's last of all (R313, R315). -/
theorem witness_trapEntry :
    let t : Trap := { code := 0x00C, tpc := 0x4000, tnpc := 0x4004 }
    let nested := on (fun c => { c with banks := c.banks.set 2 { tvec := 0x8000, tstate := 1 } }) handled
    Spec.takes handled.core (Spec.firstLevel handled.core t) ∧ Spec.firstLevel handled.core t = 2 ∧
    (enterTrap t handled).core.level = 2 ∧ (enterTrap t handled).core.pc = 0x8000 ∧
    ¬ Spec.takes nested.core (Spec.firstLevel nested.core t) ∧ 0 < Spec.firstLevel nested.core t ∧
    (enterTrap t nested).core.level = 1 ∧ ((enterTrap t nested).core.bank 1).tcause.toNat % 512 = 0x01B ∧
    ¬ Spec.takes base.core (Spec.firstLevel base.core { t with level := some 0 }) ∧
    Spec.firstLevel base.core { t with level := some 0 } = 0 ∧ (enterTrap { t with level := some 0 } base).core.run = .stopped := by
  unfold Spec.takes; decide +kernel
/-- The cause word of the worked example of R318. -/
theorem test_causeWord : Spec.causeWord { code := 0x046, impr := true } 3 = 0x3446 := by decide
/-- A handler at SV that returns to level 3 (R318). -/
def inHandler : State :=
  let b : TrapBank := { tcause := 0x3000, tnpc := 0x4008, tstate := 5, tvec := 0x8000, lshlc := #v[0, 3, 0, 0] }
  on (fun c => { c with level := 2, banks := c.banks.set 2 b }) handled
/-- The drained handler of RFT, and an order that the shadow gives back (R93, R318). -/
theorem witness_returnFromTrap : inHandler.core.level.toNat ≤ 2 ∧ inHandler.core.drained = true ∧ inHandler.core.held = [] ∧
    inHandler.core.mark = .ok ∧ inHandler.core.level.toNat ≤ (inHandler.core.bank 2).tcause.toNat / 4096 % 4 ∧
    gives (exec .rft inHandler) (fun t => t.core.level == 3 && t.core.next == 0x4008 && t.core.loops.order == [1] &&
      (t.core.bank 2).tstate == 6) = true ∧
    gives (exec .rft (on (fun c => { c with later := [(1, { code := 0x00B }), (2, { code := 0x00C })] }) inHandler))
      (fun t => t.core.held.map (fun x => x.code) == [0x00B] && t.core.later.map (fun x => (x.1, x.2.code)) == [(1, 0x00C)]) = true ∧
    (let lc : Vector Word 4 := #v[1, 0, 2, 0]
     ([2, 0] : List LoopLevel).Nodup ∧ (∀ n : LoopLevel, n ∈ [2, 0] ↔ lc.get ⟨n.toNat, n.isLt⟩ ≠ 0) ∧ wordOrder (orderWord [2, 0]) lc = [2, 0]) := by
  and_intros <;> decide +kernel
/-- Software traps (R92). -/
theorem witness_trapInstructions : (∃ t, exec (.trap 7) base = .next t ∧ t.core.pend.map (·.code) = some 0x00B) ∧
    (∃ t, exec (.sysc 7) base = .next t ∧ t.core.pend.map (·.code) = some 0x00C) ∧ traps (exec (.brk 7) base) 0x00D 7 = true :=
  ⟨⟨_, rfl, rfl⟩, ⟨_, rfl, rfl⟩, by decide +kernel⟩
/-- The checks of R90, as a test. -/
def allowed (s : State) (n : Nat) (wr : Bool) : Bool :=
  match Spec.srRow n with
  | some (u, wl) => (decide (n < 0x1C0 ∨ 0x1C7 < n) || s.core.cond) && (decide (n < 0x800) || decide ((n - 0x800) * 1024 < s.spadSize)) &&
      decide (s.core.level.toNat ≤ u) && (!wr || wl.any fun l => decide (s.core.level.toNat ≤ l))
  | none => false
/-- What the test finds is what the statements ask. -/
theorem permits_of (s : State) (n : Nat) (wr : Bool) (h : allowed s n wr = true) : Spec.srPermits s n wr := by
  unfold allowed at h
  split at h
  · rename_i u wl e
    simp only [Bool.and_eq_true, Bool.or_eq_true, decide_eq_true_eq] at h
    obtain ⟨⟨⟨h1, h2⟩, h3⟩, h4⟩ := h
    refine ⟨u, wl, e, ⟨fun k => h1.resolve_left (by omega), fun k => h2.resolve_left (by omega)⟩, h3, fun w => ?_⟩
    rw [w] at h4
    cases wl <;> simp_all
  · cases h
/-- A register that level 3 reads (R90). -/
theorem witness_readSpecial : Spec.srPermits base 0x080 false ∧ Spec.srNow base 0x080 false ∧
    (∃ t, Spec.writes 5 (srRead base 0x080) base = some t ∧ exec (.rdsr 5 0x080) base = .next t) :=
  ⟨permits_of _ _ _ (by decide +kernel), ⟨fun h => absurd h.1 (by decide), fun h => absurd h (by decide)⟩, _, rfl, rfl⟩

/-- A conductor core at FW. -/
def conductor : State := on (fun c => { c with level := 0, cond := true }) base
/-- WRSR of every plain register, at the first and the last number of each range, with a value that its rule takes (R90, R127, R144, R176). -/
theorem witness_writeSpecial : ∀ n ∈ [0x040, 0x041, 0x042, 0x043, 0x044, 0x045, 0x046, 0x047, 0x048, 0x049, 0x060, 0x061, 0x062, 0x063, 0x064,
      0x065, 0x066, 0x067, 0x068, 0x069, 0x070, 0x07B, 0x07C, 0x080, 0x081, 0x100, 0x110, 0x181, 0x184, 0x1C0, 0x1C7, 0x200, 0x201, 0x202,
      0x203, 0x204, 0x206, 0x208, 0x209, 0x30A],
    let w : Word := if n = 0x184 then 0x1000 else if n ≤ 0x069 ∧ 0x060 ≤ n ∨ n ≤ 0x049 then 0x3000 else 0x4000F
    (Spec.srBits n).any (fun m => gives (exec (.wrsr 4 (BitVec.ofNat 12 n)) (setReg 4 w conductor)) fun t =>
      srRead t n &&& m == w &&& m && t.core.mark == .ok) = true ∧
    allowed conductor n true = true ∧ srDefined conductor n = true ∧ (srWriteLevel n).isSome = true ∧ (n = 0x100 → (fmtOf (w.toNat / 2 ^ 16 % 256)).isSome = true) ∧
    (n = 0x184 → w.toNat % 4096 = 0) := by decide +kernel
/-- The checks that it passes there, in the form of the statement. -/
theorem witness_writeSpecialNow : Spec.srBits 0x200 = some 0x1FFFFFFFFFFF007 ∧ Spec.srPermits conductor 0x200 true ∧
    Spec.srNow conductor 0x200 true ∧ Spec.srTakes 0x100 0x40000 ∧ Spec.srTakes 0x184 0x1000 ∧ Spec.reads 4 conductor = some (4, conductor) :=
  ⟨rfl, permits_of _ _ _ (by decide +kernel), ⟨fun h => absurd h.2 (by decide), fun _ _ e h => absurd h List.not_mem_nil⟩,
    ⟨fun _ => by decide, fun h => absurd h (by decide)⟩, ⟨fun h => absurd h (by decide), fun _ => by decide⟩, rfl⟩
/-- An undefined number, a level that may not read, and a register that is read only (R90). -/
theorem witness_specialChecks : srDefined base 0xFFF = false ∧ Spec.srRow 0xFFF = none ∧ Spec.srRow 0x081 = some (2, some 2) ∧ Spec.srRow 0x003 = some (3, none) ∧ traps (exec (.rdsr 5 0xFFF) base) 0x008 0xFFF = true ∧
    traps (exec (.wrsr 5 0xFFF) base) 0x008 0xFFF = true ∧ srDefined base 0x081 = true ∧ srLevel 0x081 < base.core.level.toNat ∧
    traps (exec (.rdsr 5 0x081) base) 0x003 0x081 = true ∧ traps (exec (.wrsr 5 0x081) base) 0x003 0x081 = true ∧
    srDefined base 0x003 = true ∧ base.core.level.toNat ≤ srLevel 0x003 ∧ (srWriteLevel 0x003).all (fun l => decide (l < 3)) = true ∧
    traps (exec (.wrsr 5 0x003) base) 0x009 0x003 = true := by decide +kernel
/-- Firmware, with the heap window over the lowest memory. -/
def fw : State := on (fun c => { c with level := 0 }) mapped
/-- The special registers with rows of their own, at FW (R90). -/
theorem witness_specialRows : Spec.reads 4 (setReg 4 0x4000 fw) = some (0x4000, setReg 4 0x4000 fw) ∧ Spec.srPermits fw 0x304 true ∧
    fw.featSet = false ∧ Spec.srPermits fw 0x205 true ∧ Spec.srNow fw 0x205 true ∧ (∀ m n, fw.core.run ≠ .raising m n) ∧ Spec.srPermits fw 0x185 true ∧
    (0x4000 : Word).toNat % 2 ^ 14 = 0 ∧ Spec.srPermits fw 0x050 true ∧ Spec.srPermits fw 0x051 true ∧ fw.core.part < 64 ∧
    Spec.srPermits fw (0x800 + 383) true ∧ fw.core.meq = [] ∧ fw.core.ceq = [] ∧ raiseDone fw (fw.raiseMarks fun c => decide (c.asid = 0)) (fw.raiseChunks fun c => decide (c.asid = 0)) = true ∧
    (∀ f ∈ fw.core.fences, fw.core.fenceDone f = true) ∧ bankFormatOk 0x04 = true ∧ fw.copiesTouch 0x5FC00 1024 = false ∧
    fw.core.granuleBusy [{ off := 0, at' := 0x5FC00, len := 1024 }] = false ∧ fw.core.clearOf true [{ off := 0, at' := 0x5FC00, len := 1024 }] = true ∧ gives (exec (.featack0 4) (setReg 4 0x7F fw)) (fun t => t.featack == 0x3F && t.featSet) = true ∧
    gives (exec (.genraise 4) fw) (fun t => (t.asidOf 0).gen == 1) = true ∧
    (let s : State := { fw with others := [(5, { Core.atReset 5 with nextId := 1, laq := [{ id := 0, kind := .load, sp := false, vec := false, pieces := [] }] })] }
     raiseDone s (s.raiseMarks fun c => decide (c.asid = 0)) [] = false ∧
     gives (exec (.genraise 4) s) (fun t => (t.asidOf 0).gen == 1 && t.core.mark == .wait && t.core.run == .raising (s.raiseMarks fun c => decide (c.asid = 0)) []) = true) ∧
    gives (exec (.genraise 4) (on (fun c => { c with run := .raising [(0, 3)] [9] }) fw)) (fun t => (t.asidOf 0).gen == 0 && t.core.run == .running) = true ∧ gives (exec (.sgbase 4) (setReg 4 0x4000 fw)) (fun t => t.core.sgbase == 0x4000) = true ∧
    gives (exec (.frqs 4) (setReg 4 0x4001 fw)) (fun t => (t.asidOf 0).frqs.reg == 0x4001) = true ∧
    gives (exec (.frqh 4) (setReg 4 0x4001 fw)) (fun t => (t.part 0).frqh.reg == 0x4001) = true ∧
    gives (exec (.bankFormatRegister 4 383) fw) (fun t => srRead t (0x800 + 383) == 4) = true := by
  and_intros <;> first | exact permits_of _ _ _ (by decide +kernel) | decide +kernel | rfl |
    exact fun _ _ e h => absurd h List.not_mem_nil | exact fun m n h => by cases h

/-! ### Injection -/

/-- The partition allows injection (R94). -/
def injecting : State := mapped.putPart 0 { inj := true }
/-- The operands of XINJ. -/
def inject (x y : Word) : State := setReg 5 x (setReg 6 y injecting)
/-- A kind in the low bits of g[A], and the flag that SECTOR_POISON takes beside it. -/
theorem injects_now (x y : Word) (k : Nat) (h : x.toNat % 16 = k ∧ (x.toNat / 16 = 0 ∨ k = 2 ∧ x.toNat / 16 = 16)) :
    Spec.injects k 5 6 (inject x y) (inject x y) x y := ⟨rfl, rfl, h⟩
/-- Every kind, at an operand at the edge of its range (R94, R95). -/
theorem witness_injection :
    (∀ x ∈ [((0 : Nat), (0 : Word), (0x7FFFF : Word)), (1, 1, 0x5FFFF), (2, 2, 0x40), (2, 0x102, 0x5000), (3, 3, 0x5000), (4, 4, 0x0C)],
      Spec.injects x.1 5 6 (inject x.2.1 x.2.2) (inject x.2.1 x.2.2) x.2.1 x.2.2) ∧
    (0x7FFFF : Word).toNat % 16 < injecting.accCount ∧ namesBank injecting.core.meq 15 = false ∧ namesBank injecting.core.veq.flatten 15 = false ∧
    (0x5FFFF : Word).toNat % 2 ^ 19 < injecting.spadSize ∧ injecting.core.granuleBusy [{ off := 0, at' := 0x5FFFF, len := 1 }] = false ∧
    (inject 0x102 0x5000).translate 0x5000 true false false = .ok 0x5000 ∧ inHost 0x5000 = false ∧
    delivery 0x0C = some .entry ∧ (delivery 0x14A).isSome = true := by
  refine ⟨fun x h => injects_now _ _ _ ?_, by decide +kernel⟩
  revert x; decide
/-- What the kinds leave (R95). -/
theorem test_injection :
    gives (exec (.accFlip 5 6) (inject 0 0x7FFFF)) (fun t => (t.core.accOf 15).getLsbD 32767) = true ∧
    gives (exec (.spadFlip 5 6) (inject 1 0x5FFFF)) (fun t => cellGet t.core.spad.bytes 0x5FFFF == 1) = true ∧
    gives (exec (.sectorPoison 5 6) (inject 2 0x40)) (fun t => t.core.spad.poisoned 0x41) = true ∧
    gives (exec (.sectorPoison 5 6) (inject 0x102 0x5000)) (fun t => t.mem.poisoned 0x501F && !t.mem.poisoned 0x5020) = true ∧
    gives (exec (.tagBreak 5 6) (inject 3 0x5000)) (fun t => (t.tileOf 5).inject) = true ∧
    gives (exec (.raise 5 6) (inject 4 0x0C)) (fun t => (t.core.pend.map fun x => x.code) == some 0x0C) = true := by decide +kernel
/-- A partition at reset forbids injection (R94). -/
theorem witness_injectionForbidden : (base.part base.core.part).inj = false ∧ traps (exec (.raise 5 6) base) 0x003 0 = true := by decide +kernel

/-! ### Synchronising forms, watches and fences -/

/-- A scratchpad word at 0x40 whose bit is full, g5 naming it. -/
def wordFull : State := on (fun c => { c with spad := { c.spad.write 0x40 [7] with full := [8] } }) (setReg 5 0x40 base)
/-- The same with the bit empty. -/
def wordEmpty : State := on (fun c => { c with spad := c.spad.write 0x40 [7] }) (setReg 5 0x40 base)
/-- A device word at 0x4010 whose bit is empty, its tile cached, g5 naming it. -/
def wordGlobal : State := (setReg 5 0x4010 mapped).putTile 4 { inCache := true }
/-- The synchronising forms in the scratchpad and in device memory (R116, R118). -/
theorem witness_syncForms :
    (∃ s2, Spec.syncPlace 5 0 false true false wordFull = some (0x40, s2) ∧ s2.core.spad.poisoned 0x40 = false ∧ s2.core.spad.fe 0x40 = true ∧ Spec.attemptNow s2) ∧
    (∃ s2, Spec.syncPlace 5 0 false true true wordFull = some (0x40, s2)) ∧
    (∃ s2, Spec.syncPlace 5 0 false true true wordEmpty = some (0x40, s2) ∧ Spec.reads 6 s2 = some (6, s2) ∧ s2.core.spad.fe 0x40 = false) ∧
    (∃ s2, Spec.syncPlace 5 0 false false true wordFull = some (0x40, s2)) ∧
    (∃ s2, Spec.syncPlace 5 0 true false true wordGlobal = some (0x4010, s2) ∧ Spec.reads 6 s2 = some (6, s2)) ∧
    (∃ s2, Spec.syncPlace 5 0 true true true wordGlobal = some (0x4010, s2) ∧ s2.mem.poisoned 0x4010 = false ∧ s2.mem.fe 0x4010 = false) ∧
    Memory.wf wordGlobal.mem = true := by
  refine ⟨⟨_, rfl, by decide +kernel, by decide +kernel, fun n t h => ?_⟩, ?_⟩
  · simp [wordFull, on, setReg, base] at h
  · and_intros <;> first | decide +kernel | exact ⟨_, rfl⟩ | exact ⟨_, rfl, rfl⟩ | exact ⟨_, rfl, by decide +kernel⟩
/-- What they leave (R116). -/
theorem test_syncForms :
    gives (exec (.ldw 4 5 0 false) wordFull) (fun t => t.core.g.get 4 == 7 && t.core.spad.fe 0x40) = true ∧
    gives (exec (.ldc 4 5 0 false) wordFull) (fun t => t.core.g.get 4 == 7 && !t.core.spad.fe 0x40) = true ∧
    gives (exec (.stf 6 5 0 false) wordEmpty) (fun t => t.core.spad.word 0x40 == 6 && t.core.spad.fe 0x40) = true ∧
    gives (exec (.sts 6 5 0 true) wordGlobal) (fun t => t.mem.word 0x4010 == 6 && t.mem.fe 0x4010) = true ∧
    gives (exec (.feq 4 5 0 false) wordFull) (fun t => t.core.g.get 4 == 1) = true ∧
    gives (exec (.feset 5 0 true) wordGlobal) (fun t => t.mem.fe 0x4010) = true ∧
    gives (exec (.feclr 5 0 false) wordFull) (fun t => !t.core.spad.fe 0x40) = true := by decide +kernel
/-- The first attempt that fails, the last one that FEBUDGET allows, and the interval's end (R119, R120). -/
theorem witness_waitingForms :
    let last := on (fun c => { c with run := .feWait 0x100 0 }) wordEmpty
    (∃ s2, Spec.syncPlace 5 0 false true false wordEmpty = some (0x40, s2) ∧ s2.core.spad.fe 0x40 = false ∧ Spec.tries s2 < s2.core.febudget.toNat % 2 ^ 32) ∧
    gives (exec (.ldw 4 5 0 false) wordEmpty) (fun t => t.core.run == .feWait 1 64 && t.core.mark == .wait) = true ∧
    (∃ s2, Spec.syncPlace 5 0 false true false last = some (0x40, s2) ∧ s2.core.febudget.toNat % 2 ^ 32 ≤ Spec.tries s2) ∧
    traps (exec (.ldw 4 5 0 false) last) 0x012 0x40 = true ∧ last.core.run = .feWait 0x100 0 ∧
    gives (exec .waitingFormRetry last) (fun t => t.core.run == .feWait 0x100 0) = true ∧
    (let s : State := { on (fun c => { c with run := .feWait 2 128 }) wordEmpty with args := { n := 64 } }
     exec .waitingFormRetry s = .next s) := by
  and_intros <;> first | decide +kernel | rfl | exact ⟨_, rfl, by decide +kernel⟩
/-- MON of a scratchpad word; WAITM with a report, with nothing armed and with a time of 0; and a WAITM whose time has come (R190, R191). -/
theorem witness_watches :
    let armed := on (fun c => { c with watches := c.watches.set 3 { armed := true, sp := true, addr := 8 } }) (setReg 5 0x8000000000000 base)
    let hit := on (fun c => { c with watches := c.watches.set 3 { armed := false, sp := true, addr := 8, reason := 1 } }) (setReg 5 0x8000000000000 base)
    let late := on (fun c => { c with run := .waitm 8 0 4 }) armed
    Spec.reads 5 wordFull = some (0x40, wordFull) ∧ monPlace wordFull true 0x40 = .ok 0x40 ∧ Spec.allDone wordFull ∧
    wordFull.core.needOf false [0x40] = .none ∧ gives (exec (.mon 3 5 0 false) wordFull) (fun t => (t.core.watches.get 3).armed) = true ∧
    watchMask hit.core 8 (fun w => decide (w.reason ≠ 0)) = 8 ∧ gives (exec (.waitm 4 5) hit) (fun t => t.core.g.get 4 == 0x10008) = true ∧
    watchMask base.core 8 (fun w => w.armed) = 0 ∧ gives (exec (.waitm 4 5) (setReg 5 0x8000000000000 base)) (fun t => t.core.g.get 4 == 0) = true ∧
    watchMask armed.core 8 (fun w => w.armed) ≠ 0 ∧ gives (exec (.waitm 4 5) armed) (fun t => t.core.g.get 4 == 0x20000) = true ∧
    late.core.run = .waitm 8 0 4 ∧ gives (exec .waitmTimeout late) (fun t => t.core.run == .waitm 8 0 4) = true := by
  and_intros <;> first | decide +kernel | rfl | exact fun e h => absurd h List.not_mem_nil
/-- A queued scratchpad load with identifier 0. -/
def loadQueued : State := on (fun c => { c with nextId := 1, laq := [{ id := 0, kind := .load, sp := true, vec := false, pieces := [{ off := 0, at' := 0x40, len := 8 }] }] }) base
/-- FENCE.X of an idle path, PROMOTE of a device word, and accesses on both sides of a fence (R192, R205, R297). -/
theorem witness_scopeInstructions :
    pathBusy base.core 0x3F = false ∧ Spec.allDone base ∧ base.flights = [] ∧ (∃ t, exec (.fenceX 0x3F .die) base = .next t) ∧
    Spec.reads 5 wordGlobal = some (0x4010, wordGlobal) ∧ (∃ p, monPlace wordGlobal false 0x4010 = .ok p) ∧
    gives (exec (.promote 5 .die) wordGlobal) (fun t => t.core.promo.isSome) = true ∧
    (let x : LaEntry := { id := 0, kind := .load, sp := true, vec := false, pieces := [{ off := 0, at' := 0x40, len := 8 }] }
     let e : LaEntry := { id := 1, kind := .store, sp := true, vec := false, pieces := [{ off := 0, at' := 0x80, len := 8 }] }
     x ∈ loadQueued.core.laq ∧ x.id < loadQueued.core.nextId ∧ loadQueued.core.nextId ≤ e.id ∧ e.prefetch = false ∧ x.reads = true ∧
     e.writes = true ∧ x.prefetch = false ∧ ({ at' := 1, acq := false, rel := true } : Fence).between x e.id e.writes = true) := by
  and_intros <;> first | decide +kernel | rfl | exact ⟨_, rfl⟩ | exact fun e h => absurd h List.not_mem_nil

/-! ### Tasks -/

/-- A running region 1 that holds core 0, unscheduled. -/
def region1 : Region := { id := 1, block := 0x10000, asid := 0, part := 0, level := 3, root := 1, budget := [0], usedCores := [0], state := .running, count := 2 }
/-- Core 0 runs task 0 of region 1 in sorus 0. -/
def inRegion : State := { on (fun c => { c with region := some 1 }) mapped with regions := [region1], soruses := [{ die := 0, idx := 0, tree := some 1 }] }
/-- The same in a scheduled region. -/
def inScheduled : State := { inRegion with regions := [{ region1 with scheduled := true }] }
/-- The task slots: at issue, while leaving, and the counters (R182 to R188). -/
theorem witness_taskSlots :
    let leaving := on (fun c => { c with run := .leaving 0 0 }) inRegion
    inScheduled.inScheduled = true ∧ (∃ t, exec .sstep inScheduled = .next t ∧ t.core.run = .arriving 0x4000) ∧ inRegion.inScheduled = false ∧
    traps (exec .sstep inRegion) 0x014 0 = true ∧ inRegion.core.run = .running ∧ (∃ t, exec .tdone inRegion = .next t ∧ t.core.run = .leaving 0 0) ∧
    (∃ t, exec .yield inRegion = .next t ∧ t.core.run = .leaving 1 0) ∧ Spec.reads 8 inRegion = some (8, inRegion) ∧ parkFault inRegion 8 = none ∧
    (∃ t, exec (.park 8) inRegion = .next t ∧ t.core.run = .leaving 2 8) ∧ leaving.core.run = .leaving 0 0 ∧ leaving.mayLeave = true ∧
    (∃ t, exec .tdone leaving = .next t) ∧ (∃ t, exec .yield leaving = .next t) ∧ (∃ t, exec (.park 8) leaving = .next t) ∧
    counterOperand inRegion 5 = some (0, 5) ∧ (∃ t, exec (.dcset 5 6) inRegion = .next t ∧ (t.sorusOf 0 0).counter 5 = 6) := by
  and_intros <;> first | decide +kernel | rfl | exact ⟨_, rfl⟩ | exact ⟨_, rfl, rfl⟩
/-- DCDEC of a counter that stands at 2 (R187). -/
theorem witness_dcdec : let s := inRegion.counterTo 0 0 5 2
    counterOperand s 5 = some (0, 5) ∧ (∃ t, s.lower s.core.die 0 5 = some t ∧ exec (.dcdec 5) s = .next t ∧ (t.sorusOf 0 0).counter 5 = 1) :=
  ⟨by decide +kernel, _, rfl, rfl, by decide +kernel⟩
/-- The last bundle of a task, in both kinds of region (R185, R193). -/
theorem witness_taskEnds :
    let leave (s : State) : State := on (fun c => { c with run := .leaving 0 0 }) s
    (leave inRegion).myRegion = some region1 ∧ (leave inRegion).mayLeave = true ∧ (∀ q ∈ (leave inRegion).regions, q.id = 1 → q = region1) ∧
    gives (exec .tdone (leave inRegion)) (fun t => t.core.run == .free && (t.region? 1).map (fun r => r.count) == some 1) = true ∧
    (leave inScheduled).mayLeave = true ∧ gives (exec .tdone (leave inScheduled)) (fun t => t.core.run == .retired) = true := by
  and_intros <;> decide +kernel
/-- A task record at 0x6000 with ENTRY 0x8000 (R183, R184). -/
def withRecord : State := { setReg 5 0x6000 (setReg 6 0 inRegion) with mem := inRegion.mem.write 0x6000 (leBytes 8 0x8000) }
/-- SPAWN of it in sorus 0. -/
theorem witness_spawnMakesTask : Spec.readsAll [5, 6] withRecord = some ([0x6000, 0], withRecord) ∧ withRecord.myRegion = some region1 ∧
    sorusOperand withRecord.core false 0 = 0 ∧ region1.inSorus withRecord 0 0 = true ∧ withRecord.translate 0x6000 true true false = .ok 0x6000 ∧
    recordOk (withRecord.mem.word 0x6000) (withRecord.mem.word 0x6008) = true ∧ withRecord.tasks.length < 4096 ∧
    gives (exec (.spawn 4 5 6) withRecord) (fun t => t.tasks.map (fun q => (q.record, q.entry, q.region)) == [(0x6000, 0x8000, 1)]) = true := by
  and_intros <;> decide +kernel

/-! ### Windows -/

/-- WDECL operands: an image of two 128-byte tiles at 0x6000, the scratchpad from 0x80 on, writable. -/
def declaring : State := setReg 5 0x6000 (setReg 6 0x100200000080 mapped)
/-- A window with two tiles homed here, declared by core 0 as participant 9 in slot 2. -/
def windowed : State :=
  let d : WinDecl := { slot := 2, wid := 7, who := 9, lbase := 0x80, nt := 2, tl := 7, write := true, image := 0x6000, tiles := [.s, .i] }
  let w : DirWin := { wid := 7, image := 0x6000, frames := [6], tl := 7, nt := 2, parts := [(9, 0, true)], tiles := [{ st := .s, sharers := [9] }, {}] }
  { on (fun c => { c with wins := [d] }) mapped with dir := [w] }
/-- A declaration that keeps the rules, one that breaks one, a drop of an empty slot and of a quiet one, and both markers (R379 to R389). -/
theorem witness_windowInstructions :
    Spec.readsAll [5, 6] declaring = some ([0x6000, 0x100200000080], declaring) ∧ declaring.core.clearOf true [{ off := 0, at' := 0x80, len := 256 }] = true ∧ declaring.copiesTouch 0x80 256 = false ∧
    declOk declaring 0x6000 0x100200000080 = true ∧ (∃ l, imagePages declaring true (pages 2 0x6000 256) = .ok l ∧ l = [0x6000]) ∧
    declaring.core.wins = [] ∧ (∃ x, homeDeclares declaring 0 7 2 true [0x6000] = .ok x) ∧ (∃ t, exec (.wdecl 4 5 6) declaring = .next t ∧ t.dir.length = 1) ∧
    declOk (setReg 5 0x6001 declaring) 0x6001 0x100200000080 = false ∧
    gives (exec (.wdecl 4 5 6) (setReg 5 0x6001 declaring)) (fun t => t.core.g.get 4 == 0x100000000000000) = true ∧
    Spec.reads 3 windowed = some (3, windowed) ∧ (∀ v ∈ windowed.core.wins, v.slot ≠ 3) ∧ exec (.wdrop 3) windowed = .next windowed ∧
    (windowed.core.wins.find? fun v => decide (v.slot = 2)).isSome = true ∧ windowBusy windowed 7 = false ∧ windowed.core.clearOf true [{ off := 0, at' := 0x80, len := 256 }] = true ∧ windowed.copiesTouch 0x80 256 = false ∧
    gives (exec (.wdrop 2) windowed) (fun t => t.core.wins == []) = true ∧
    (let s := setReg 5 0x80 windowed
     (s.core.windowAt 0x80).map (fun x => (x.1.wid, x.2)) = some (7, 0) ∧ s.core.needOf false [0x80] = .none ∧ (∃ t, exec (.acqt 5 .die) s = .next t) ∧
     Spec.allDone s ∧ gives (exec (.relt 5 .die) s) (fun t => (t.win? 7).map (fun v => (v.tile 0).marker) == some 1) = true) := by
  and_intros <;> first | decide +kernel | rfl | exact ⟨_, rfl⟩ | exact ⟨_, rfl, rfl⟩ | exact fun e h => absurd h List.not_mem_nil

/-! ### Partitions and regions -/

/-- The hypervisor after FEATACK0, partition 5 in a state, with words of a table at 0x6000. -/
def hv (st : PartState) (table : List Word) : State :=
  let s := on (fun c => { c with level := 1 }) mapped
  { s.putPart 5 { st := st } with featSet := true, featack := 0x7F, mem := s.mem.write 0x6000 (table.flatMap fun w => leBytes 8 w.toNat) }
/-- The operands of PTBIND and PTQUOTA. -/
def ask (st : PartState) (table : List Word) (x y : Word) : State := setReg 5 x (setReg 6 y (hv st table))
/-- The head of a request, given its word. -/
theorem selects_of (x y : Word) (s : State) (kind n i : Nat) (h : Spec.readsAll [5, 6] s = some ([x, y], s)) (q : s.core.laq = [])
    (k : x &&& 0xFFFFFFFFF800F0C0 = 0 ∧ x.toNat / 256 % 16 = kind ∧ x.toNat % 64 = n ∧ x.toNat / 2 ^ 16 = i ∧ s.featSet = true) :
    Spec.selects kind 5 6 s s n i y :=
  ⟨x, h, by intro e he; rw [q] at he; exact absurd he List.not_mem_nil, k⟩
/-- Every binding, at an operand at the edge of its range (R431). -/
theorem witness_partitionBindings :
    let sel (kind i : Nat) (t : List Word) (y : Word) : Prop := Spec.selects kind 5 6 (ask .opened t (BitVec.ofNat 64 (5 + 256 * kind + 65536 * i)) y)
      (ask .opened t (BitVec.ofNat 64 (5 + 256 * kind + 65536 * i)) y) 5 i y
    Spec.mayBind (hv .opened []) 5 ∧ sel 0 0 [1] 0x6000 ∧ sel 1 0 [] 31 ∧ sel 2 0 [] 0xFFFF ∧ sel 3 0 [] 0x1FFFF ∧ sel 4 0 [] 0xFFFFFFFFFF000 ∧ sel 5 0 [] 1023 ∧
    sel 6 1 [] 0x100000 ∧ sel 7 1 [0x6001, 1, 0x7000, 0] 0x6000 ∧ sel 8 64 [] 0x6000 ∧ sel 9 1 [0x1000000000001, 1] 0x6000 ∧ sel 10 95 [] 1 ∧
    sel 11 255 [0x6000, 0x80000000001] 0x6000 ∧ sel 12 0x471 [] 0x8000000000000000 ∧ sel 13 0 [] 1 ∧ sel 13 0 [] 0 := by
  and_intros <;> first | exact .inr (.inl (by decide +kernel)) | exact selects_of _ _ _ _ _ _ rfl rfl (by decide +kernel)
/-- Each of them is made, and answers 0 (R431, R432). -/
theorem test_partitionBindings :
    let made (o : Outcome) (p : Partition → Bool) : Bool := gives o fun t => t.core.ptres == 0 && p (t.part 5) && (t.part 5).st == .opened
    made (exec (.ptbindCores 5 6) (ask .free [9] 5 0x6000)) (fun p => p.cores == some [0, 3]) = true ∧
    made (exec (.ptbindEngines 5 6) (ask .opened [] 0x105 31)) (fun p => p.engines == some 31) = true ∧
    made (exec (.ptbindMemports 5 6) (ask .opened [] 0x205 0xFFFF)) (fun p => p.memports == some 0xFFFF) = true ∧
    made (exec (.ptbindQueues 5 6) (ask .opened [] 0x305 0x1FFFF)) (fun p => p.queues == some (0xFFFF, 1)) = true ∧
    made (exec (.ptbindS2root 5 6) (ask .opened [] 0x405 0xFFFFFFFFFF000)) (fun p => p.s2root == some 0xFFFFFFFFFF000) = true ∧
    made (exec (.ptbindKey 5 6) (ask .opened [] 0x505 1023)) (fun p => p.key == some 1023) = true ∧
    made (exec (.ptbindDump 5 6) (ask .opened [] 0x10605 0x100000)) (fun p => p.dump.map (fun d => (d.1, d.2.1.length, d.2.2)) == some (0x100000, 256, 1)) = true ∧
    made (exec (.ptbindFaper 5 6) (ask .opened [0x6001, 1, 0x7000, 0] 0x10705 0x6000)) (fun p => p.faper == [{ start := 0x6000, pages := 1, base := 0x7000, w := false, r := true }]) = true ∧
    made (exec (.ptbindNaper 5 6) (ask .opened [0x6002, 1, 0x7000, 0] 0x10805 0x6000)) (fun p => p.naper.length == 1) = true ∧
    made (exec (.ptbindPeer 5 6) (ask .opened [0x1000000000001, 1] 0x10905 0x6000)) (fun p => p.peers == some [(1, 1, 1)]) = true ∧
    made (exec (.ptbindKport 5 6) (ask .opened [] 0x5F0A05 1)) (fun p => p.kports.map (·.1) == [95]) = true ∧
    made (exec (.ptbindRwin 5 6) (ask .opened [0x6000, 0x80000000001] 0xFF0B05 0x6000)) (fun p => p.rwins == [(255, 0x6000, 1, 8, 1)]) = true ∧
    made (exec (.ptbindIntr 5 6) (ask .opened [] 0x4710C05 0x8000000000000000)) (fun _ => true) = true ∧
    made (exec (.ptbindInj 5 6) (ask .opened [] 0xD05 1)) (fun p => p.inj) = true := by decide +kernel
/-- The quotas at the edges of their ranges, and a SLICE written while SEALED (R429, R433). -/
theorem witness_partitionQuotas :
    let made (o : Outcome) (p : Partition → Bool) : Bool := gives o fun t => t.core.ptres == 0 && p (t.part 5)
    (Spec.selects 0 5 6 (ask .sealed [] 5 0xFFFFFFFF) (ask .sealed [] 5 0xFFFFFFFF) 5 0 0xFFFFFFFF ∧ ((ask .sealed [] 5 0xFFFFFFFF).part 5).st = .sealed) ∧
    made (exec (.ptquotaSlice 5 6) (ask .opened [] 5 0xFFFFFFFF)) (fun p => p.slice == 0xFFFFFFFF) = true ∧
    made (exec (.ptquotaPrio 5 6) (ask .stopped [] 0x105 15)) (fun p => p.prio == 15) = true ∧
    made (exec (.ptquotaRate 5 6) (ask .sealed [] 0x205 0x100000001)) (fun p => p.rate == 1 && p.ceiling == 1) = true ∧
    made (exec (.ptquotaActiveq 5 6) (ask .opened [] 0x305 2048)) (fun p => p.activeq == 2048) = true ∧
    made (exec (.ptquotaSlice 5 6) (ask .sealed [] 5 7)) (fun p => p.sliceDue == some 7 && p.slice == 0) = true :=
  ⟨⟨selects_of _ _ _ _ _ _ rfl rfl (by decide +kernel), by decide +kernel⟩, by decide +kernel⟩
/-- Requests that are turned away (R432). -/
theorem witness_partitionAnswers :
    let code (o : Outcome) (n : Nat) : Bool := gives o fun t => t.core.ptres == n
    (0x45 : Word) &&& 0xFFFFFFFFF800F0C0 ≠ 0 ∧ code (exec (.ptbindKey 5 6) (ask .opened [] 0x45 1)) 1 = true ∧
    code (exec (.ptquotaPrio 5 6) { ask .opened [] 0x105 1 with featSet := false }) 4 = true ∧ ((ask .sealed [] 0x505 1).part 5).st = .sealed ∧
    code (exec (.ptbindKey 5 6) (ask .sealed [] 5 1)) 2 = true ∧ code (exec (.ptquotaPrio 5 6) (ask .stopping [] 5 1)) 2 = true ∧
    (∀ i ∈ [Instr.ptsealSeal 5, .ptsealStop 5, .ptsealFree 5], code (exec i (ask .stopping [] 5 1)) 2 = true) := by decide +kernel
/-- A partition whose bindings are complete. -/
def complete (st : PartState) : State := (hv st []).putPart 5
  { st := st, cores := some [0], s2root := some 0x7000, key := some 3, dump := some (0x100000, (List.range 256).map (256 + ·), 1), activeq := 1 }
/-- A request of PTSEAL reaches its checks, given its word. -/
theorem seals_of (x : Word) (s : State) (op n : Nat) (h : Spec.reads 5 s = some (x, s)) (q : s.core.laq = [])
    (k : x &&& 0xFFFFFFFFFFFFFCC0 = 0 ∧ x.toNat / 256 = op ∧ op < 3 ∧ x.toNat % 64 = n ∧ s.featSet = true) : Spec.seals op 5 s s n :=
  ⟨x, h, by intro e he; rw [q] at he; exact absurd he List.not_mem_nil, k⟩
/-- Seal, stop and free, from every state that they take (R434, R437). -/
theorem witness_partitionSeals :
    (Spec.seals 0 5 (setReg 5 5 (complete .opened)) (setReg 5 5 (complete .opened)) 5 ∧ sealable (setReg 5 5 (complete .opened)) 5 = true) ∧
    (∃ t, exec (.ptsealSeal 5) (setReg 5 5 (complete .opened)) = .next t ∧ (t.part 5).st = .sealed) ∧
    Spec.seals 1 5 (setReg 5 0x105 (complete .sealed)) (setReg 5 0x105 (complete .sealed)) 5 ∧
    (∃ t, exec (.ptsealStop 5) (setReg 5 0x105 (complete .sealed)) = .next t ∧ (t.part 5).st = .stopping) ∧
    Spec.seals 2 5 (setReg 5 0x205 (complete .stopped)) (setReg 5 0x205 (complete .stopped)) 5 ∧
    (∃ t, exec (.ptsealFree 5) (setReg 5 0x205 (complete .stopped)) = .next t ∧ (t.part 5).st = .free) ∧
    (∃ t, exec (.ptsealFree 5) (ask .free [] 0x205 0) = .next t ∧ (t.part 5).st = .free) := by
  and_intros <;> first | decide +kernel | exact seals_of _ _ _ _ rfl rfl (by decide +kernel) | exact ⟨_, rfl, by decide +kernel⟩
/-- RGNSEL names region 1. -/
def selected (st : RegionState) : State := { on (fun c => { c with level := 1, rgnsel := 0x10000 }) inRegion with regions := [{ region1 with state := st }] }
/-- RGNCTL on a running and on a saved region (R436). -/
theorem witness_regionControl : Spec.srPermits (selected .running) 0x30B true ∧ Spec.reads 0 (selected .running) = some (0, selected .running) ∧
    Spec.names (selected .running) 0 { region1 with state := .running } ∧ Spec.names (selected (.saved true)) 0 { region1 with state := .saved true } ∧
    gives (exec (.rgnctlQuery 0) (selected (.saved true))) (fun t => t.core.ptres == 6) = true ∧
    gives (exec (.rgnctlQuery 0) (selected .saving)) (fun t => t.core.ptres == 5) = true ∧
    gives (exec (.rgnctlPreempt 0) (selected .running)) (fun t => t.core.ptres == 0) = true ∧
    gives (exec (.rgnctlResume 0) (selected (.saved true))) (fun t => t.core.ptres == 0) = true := by
  and_intros <;> first | exact permits_of _ _ _ (by decide +kernel) | decide +kernel | rfl
/-- A running region with a leased page 8 that lies at page 0x80 (R173, R194). -/
def leasing : State := { setReg 5 0x8000 inRegion with regions := [{ region1 with leases := [{ start := 8, pages := 1, x := true, w := true, r := true, frames := [0x80], perms := [(true, true, true)] }] }] }
/-- LAUNCH of a block in it, and S2GENRAISE at HV (R227). -/
theorem witness_launchAndRaise : Spec.srPermits leasing 0x187 true ∧ Spec.reads 5 leasing = some (0x8000, leasing) ∧
    (leasing.myRegion.bind fun q => leasedPage q 8) = some (0x80, true, true, true) ∧
    gives (exec (.launch 5) leasing) (fun t => t.regions.length == 2 && t.nextRgn == 1) = true ∧
    Spec.srPermits (hv .opened []) 0x20A true ∧ Spec.quiet (hv .opened []) ∧ (∀ m n, (hv .opened []).core.run ≠ .raising m n) ∧
    raiseDone (hv .opened []) ((hv .opened []).raiseMarks fun c => decide (c.part = 5)) ((hv .opened []).raiseChunks fun c => decide (c.part = 5)) = true ∧
    gives (exec (.s2genraise 5) (hv .opened [])) (fun t => (t.part 5).s2gen == 1) = true ∧
    gives (exec (.s2genraise 5) (on (fun c => { c with run := .raising [] [] }) (hv .opened []))) (fun t => (t.part 5).s2gen == 0 && t.core.run == .running) = true := by
  and_intros <;> first | exact permits_of _ _ _ (by decide +kernel) | decide +kernel | rfl | exact fun _ _ => RunState.noConfusion | exact fun m h => by cases h

/-! ### Accesses -/

/-- The scratchpad base register at the last place that holds 8 bytes, the vector index register 2 zero. -/
def atEnd : State := setReg 5 0x5FFF8 base
/-- Every load form, and every store form, in the scratchpad and in device memory (R98 to R102). -/
theorem witness_loadsIssue :
    let at0 := setReg 5 0x4000 (setReg 6 8 mapped)
    (∀ i ∈ [Instr.la 5 0 3 true, .la 5 0 3 false, .lav 5 (-1) 3 true, .laxIndex 5 6 3 false, .lavStrided 5 6 3 true, .lagv 5 2 0 false],
      ((Spec.loadForm i).any fun f => (Spec.sources f.1 f.2.1 at0).any fun x => (Spec.placed (f.2.2.2.1 x.1 x.2.1) (!f.2.2.1) true false false f.2.2.2.2.1 x.2.2).isSome) = true ∧
      gives (exec i at0) (fun t => t.core.laq.length == 1 && t.core.sldq.length + t.core.vldq.length == 2) = true) ∧
    at0.core.mark = .ok ∧ at0.core.splitNow = none ∧ Spec.loadRoom true at0 ∧ Spec.loadRoom false at0 ∧
    gives (exec (.la 5 0 3 false) atEnd) (fun t => t.core.laq.map (fun e => e.pieces) == [[{ off := 0, at' := 0x5FFF8, len := 8 }]]) = true := by
  unfold Spec.loadRoom; decide +kernel
/-- The same for stores, one of them pairing with data that waits (R51, R102). -/
theorem witness_storesIssue :
    let at0 := on (fun c => { c with ssdq := [some 7] }) (setReg 5 0x4000 (setReg 6 8 mapped))
    (∀ i ∈ [Instr.sa 5 0 3 true, .sa 5 0 3 false, .sav 5 (-1) 3 true, .saxIndex 5 6 3 false, .savStrided 5 6 3 true, .sasv 5 2 0 false],
      ((Spec.storeForm i).any fun f => (Spec.sources f.1 f.2.1 at0).any fun x => (Spec.placed (f.2.2.2.1 x.1 x.2.1) (!f.2.2.1) false true false f.2.2.2.2.1 x.2.2).isSome) = true ∧
      gives (exec i at0) (fun t => t.core.laq.length == 1) = true) ∧
    gives (exec (.sa 5 0 3 true) at0) (fun t => t.core.ssdq == [] && t.core.laq.map (fun e => e.data) == [some (some 7)]) = true := by decide +kernel
/-- The forms with a write-back (R98, R109). -/
theorem witness_writeBackForms :
    let at0 := setReg 5 0x4000 (setReg 6 8 mapped)
    Spec.readsAll [5, 6] at0 = some ([0x4000, 8], at0) ∧ Spec.placed (Spec.one 0x4000 256) false true false false 32 at0 = some [{ off := 0, at' := 0x4000, len := 256 }] ∧
    Spec.placed (Spec.one 0x4000 256) false false true false 32 at0 = some [{ off := 0, at' := 0x4000, len := 256 }] ∧
    gives (exec (.laxIncrement 5 6 7 true) at0) (fun t => t.core.g.get 5 == 0x4008 && t.core.laq.length == 1) = true ∧
    gives (exec (.saxIncrement 5 6 7 true) at0) (fun t => t.core.g.get 5 == 0x4008 && t.core.laq.length == 1) = true := by
  refine ⟨rfl, by decide +kernel, by decide +kernel, by decide +kernel, by decide +kernel⟩
/-- Atomics, landing loads in a scheduled region, and PREF inside and outside the address range (R111 to R115). -/
theorem witness_atomicsIssue :
    let at0 := setReg 4 0x4000 mapped
    let land := setReg 4 0x4000 (setReg 5 20 inScheduled)
    (∀ i ∈ [Instr.amoAdd 4 6 true true, .amoAnd 4 6 false true, .amoOr 4 6 true false, .amoXor 4 6 true true, .amoSwap 4 6 true true,
        .amoSmin 4 6 true true, .amoSmax 4 6 true true, .amoUmin 4 6 true true, .amoUmax 4 6 true true, .amoFadd 4 6 true],
      (Spec.amoForm i).isSome = true ∧ gives (exec i at0) (fun t => t.core.laq.map (fun e => e.operand) == [6]) = true) ∧
    Spec.placed (Spec.one 0x4000 8) false true true false 8 at0 = some [{ off := 0, at' := 0x4000, len := 8 }] ∧
    gives (exec (.cas 4 6 true true) at0) (fun t => t.core.laq.map (fun e => e.swapVal) == [7]) = true ∧ land.inScheduled = true ∧
    Spec.placed (Spec.one 0x4000 8) false true false true 8 land = some [{ off := 0, at' := 0x4000, len := 8 }] ∧
    gives (exec (.laLand 4 5 3 true) land) (fun t => t.core.laq.map (fun e => e.arrival) == [some 20]) = true ∧
    gives (exec (.lavLand 4 5 3 true) land) (fun t => t.core.laq.map (fun e => e.arrival) == [some 20]) = true ∧
    at0.translate 0x4000 true false false = .ok 0x4000 ∧ gives (exec (.pref 4 8) at0) (fun t => t.core.laq.length == 1) = true ∧
    (∃ t, exec (.pref 5 0) (setReg 5 0x200000000000000 base) = .next t ∧ t.core.laq = []) := by
  and_intros <;> first | decide +kernel | rfl | exact ⟨_, rfl, rfl⟩
/-- Each trap of an address, at the first address that takes it (R100, R101, R178). -/
theorem witness_loadTraps :
    traps (exec (.la 5 0 3 true) inScheduled) 0x015 0 = true ∧ inScheduled.inCompute = true ∧
    traps (exec (.la 5 1 0 false) (setReg 5 0x5FFFF base)) 0x00F 0x60000 = true ∧ base.spadSize < 0x5FFFF + 1 + 1 ∧
    traps (exec (.la 5 1 0 true) (setReg 5 0x1FFFFFFFFFFFFFF base)) 0x010 0x200000000000000 = true ∧
    traps (exec (.la 5 0 3 false) (setReg 5 0x44 base)) 0x011 0x44 = true := by decide +kernel
/-- A queue entry at the head, in the scratchpad or in cached device memory. -/
def queued (kind : LaKind) (sp : Bool) : State :=
  let e : LaEntry := { id := 3, kind := kind, sp := sp, vec := false, pieces := [{ off := 0, at' := 0x4010, len := 8 }], eight := true, operand := 2, data := some (some 9) }
  { (on (fun c => { c with laq := [e], sldq := [{ id := 3 }], nextId := 4 }) mapped).putTile 4 { inCache := true } with args := { n := 3 } }
/-- A load, a store and an atomic that can be performed (R102 to R106, R112). -/
theorem witness_accessesPerform :
    (∀ kind ∈ [LaKind.load, .store, .amo 0], ∀ sp ∈ [true, false],
      let s := queued kind sp
      ((s.core.laq.find? fun x => decide (x.id = s.args.n)).any fun e => s.core.eligible e && (served s e.pieces).isSome) = true ∧ s.core.wins = [] ∧
      inDevice 0x4010 = true ∧ (s.tileOf 4).inCache = true ∧ Memory.wf s.mem = true ∧ s.mem.anyPoison 0x4010 8 = false) ∧
    gives (exec .loadDataArrival (queued .load false)) (fun t => t.core.laq == [] && t.core.sldq.map (fun e => e.val) == [some 0x80000000]) = true ∧
    (let s := (queued .load false).putTile 4 { under := some (base.core.keysel.toNat % 1024) }
     (s.tileOf 4).broken = false ∧ (∀ u ∈ (s.tileOf 4).under, u = s.core.keysel.toNat % 1024) ∧
     gives (exec .loadDataArrival s) (fun t => t.core.laq == [] && (t.tileOf 4).inCache) = true) ∧
    gives (exec .storePerformed (queued .store true)) (fun t => t.core.spad.word 0x4010 == 9 && t.core.laq == []) = true ∧
    gives (exec .loadDataArrival (queued (.amo 0) false)) (fun t => t.mem.word 0x4010 == 0x80000002) = true := by decide +kernel
/-- Data that has landed by its cycle, and a freeze that has lasted too long (R115, R180). -/
theorem witness_landingSteps :
    let l : LandEntry := { id := 0, vec := false, val := 5, poison := false, addr := 0, cycle := 4 }
    let s := on (fun c => { c with landBuf := [l], stepclk := 4, sldq := [{ id := 0 }] }) base
    let late : State := { on (fun c => { c with freeze := some 0, region := some 1 }) base with clk := 0x4001 }
    s.core.landBuf = [l] ∧ gives (exec .landing s) (fun t => t.core.landBuf == [] && t.core.sldq.map (fun e => e.val) == [some 5]) = true ∧
    late.core.freeze = some 0 ∧ late.core.region = some 1 ∧ late.core.febudget.toNat % 2 ^ 32 * 64 < late.clk - 0 ∧
    gives (exec .landingLate late) (fun t => t.todo.map (fun d => (d.instr, d.args.n, d.args.m)) == [(.regionHalt, 1, 0x1F)]) = true := by decide +kernel

/-! ### Vector slots -/

/-- Vector registers 1 to 3 hold lanes of 32 bits, k1 the lower half of the bytes; a back slot executes. -/
def vec : State := on (fun c => { c with
  v := ((c.v.set 1 0x3F800000_40000000).set 2 0x3F800000_00000003).set 3 0x7FFF0000_00000001,
  k := c.k.set 1 0xFFFFFFFFFFFFFFFFFFFFFFFFFFFFFFFF, curBundle := 0x4000 }) base
/-- What v[r] holds. -/
def nowV (s : State) (r : VReg) : VWord := s.core.v.get ⟨r.toNat, r.isLt⟩
/-- Every two-source form can execute, and its destination holds what the statement says. -/
theorem witness_vectorTwoSource : ∀ i ∈ [Instr.vadd 4 1 2 .f32, .vsub 4 1 2 .i16, .vmul 4 1 2 .f32, .vmulh 4 1 2 .i32, .vmin 4 1 2 .f32,
      .vmax 4 1 2 .i16, .vshl 4 1 2 .w32, .vshr 4 1 2 .w16, .vsha 4 1 2 .i32, .vaddMasked 3 1 2 .i32, .vsubMasked 3 1 2 .f32, .vmulMasked 3 1 2 .b16,
      .vmulhMasked 3 1 2 .w16, .vminMasked 3 1 2 .i32, .vmaxMasked 3 1 2 .f16, .vshlMasked 3 1 2 .w32, .vshrMasked 3 1 2 .w32, .vshaMasked 3 1 2 .i16,
      .vandMasked 3 1 2, .vorMasked 3 1 2, .vxorMasked 3 1 2],
    ((Spec.twoRegs i).any fun r => (Spec.twoOp i).any fun o =>
      let x := vec.core.vVal r.2.2.1
      let y := vec.core.vVal r.2.2.2
      (Spec.vNow i [r.2.2.1, r.2.2.2] [] vec).isSome && gives (exec i vec) fun t => nowV t r.1 == BitVec.ofNat 2048 (Spec.pack o.1 (2048 / o.1) fun j =>
        if Spec.isActive ((r.2.1.map vec.core.kVal).getD (BitVec.allOnes 256)) o.1 j then (o.2 (Spec.rounding vec) (Spec.el x o.1 j) (Spec.el y o.1 j)).1 else Spec.el x o.1 j)) = true := by
  decide +kernel
/-- Every one-source form and VBCAST, likewise. -/
theorem witness_vectorOneSource : (∀ i ∈ [Instr.vabs 4 1 1 .f32, .vneg 4 2 1 .i32, .vnot 4 1 1, .vmov 4 1 0, .vsat 4 3 1 .i8, .vunpkLo 4 1 1 .w8, .vunpkHi 4 1 1 .i16],
    ((Spec.oneOp i).any fun o => (Spec.vNow i [o.2.1] [] vec).isSome && gives (exec i vec) fun t => nowV t o.1 ==
      BitVec.ofNat 2048 (Spec.pack o.2.2.2.1 (2048 / o.2.2.2.1) fun j =>
        if Spec.isActive (vec.core.kVal o.2.2.1) o.2.2.2.1 j then (o.2.2.2.2 (vec.core.vVal o.2.1) j).1 else 0)) = true) ∧
    (∀ i ∈ [Instr.vrcp 4 1 1 .f32, .vrsq 4 1 1 .f16, .vexp2 4 1 1 .f32, .vlog2 4 1 1 .b16],
      ((Spec.oneOp i).any fun o => (Spec.vNow i [o.2.1] [] vec).isSome) = true) ∧
    (Spec.vNow (.vbcast 4 5 1 .w16) [] [5] vec).isSome = true ∧
    gives (exec (.vbcast 4 5 1 .w16) vec) (fun t => Spec.el (nowV t 4) 16 63 == 5 && Spec.el (nowV t 4) 16 64 == 0) = true := by decide +kernel
/-- Every fused and dot form, likewise. -/
theorem witness_vectorFused : (∀ i ∈ [Instr.vfmaF32 3 1 2 1, .vfmaF16 3 1 2 1, .vfmaB16 3 1 2 1, .vfmsF32 3 1 2 1, .vfmsF16 3 1 2 1, .vfmsB16 3 1 2 1,
      .vfnmaF32 3 1 2 1, .vfnmaF16 3 1 2 1, .vfnmaB16 3 1 2 1],
    ((Spec.fusedOp i).any fun o => (Spec.vNow i [1, 2, 3] [] vec).isSome && gives (exec i vec) fun t => nowV t 3 ==
      BitVec.ofNat 2048 (Spec.pack o.1.bits (2048 / o.1.bits) fun j =>
        if Spec.isActive (vec.core.kVal 1) o.1.bits j then
          (fmaVal o.1 (Spec.rounding vec) (Spec.signed o.2.1 (decodeVal o.1 (Spec.el (vec.core.vVal 1) o.1.bits j))) (decodeVal o.1 (Spec.el (vec.core.vVal 2) o.1.bits j))
            (Spec.signed o.2.2.1 (decodeVal o.1 (Spec.el (vec.core.vVal 3) o.1.bits j)))).1
        else Spec.el (vec.core.vVal 3) o.1.bits j)) = true) ∧
    (let s := on (fun c => { c with v := ((c.v.set 1 0x0201FF80).set 2 0x04030201).set 3 100 }) vec
     (Spec.vNow (.vdot4I8 3 1 2 1) [1, 2, 3] [] s).isSome = true ∧
     gives (exec (.vdot4I8 3 1 2 1) s) (fun t => Spec.el (nowV t 3) 32 0 == 2 ^ 32 + 100 + 3 + 8 - 128 - 2) = true ∧
     gives (exec (.vdot4W8 3 1 2 1) s) (fun t => Spec.el (nowV t 3) 32 0 == 100 + 128 + 510 + 3 + 8) = true) := by decide +kernel
/-- VPERM, VPACK, the whole-register forms and the mask forms (R148, R156, R157, R163, R167, R170). -/
theorem witness_permPackMask :
    (∀ i ∈ [Instr.vand 4 1 2, .vor 4 1 2, .vxor 4 1 2, .vperm 4 1 2 .w32, .vpack 4 1 2 .i16, .vsel 4 1 2 1, .vcmpEq 4 1 2 .i32, .vcmpNe 4 1 2 .f32,
        .vcmpLt 4 1 2 .f32, .vcmpLe 4 1 2 .w16], (Spec.vNow i [1, 2] [] vec).isSome = true ∧ gives (exec i vec) (fun t => t.core.mark == .ok) = true) ∧
    (∀ i ∈ [Instr.vpermMasked 3 1 2 .w32, .vpackMasked 3 1 2 .w8], (Spec.vNow i [2, 3] [] vec).isSome = true ∧ gives (exec i vec) (fun t => t.core.mark == .ok) = true) ∧
    gives (exec (.vperm 4 1 2 .w32) vec) (fun t => Spec.el (nowV t 4) 32 0 == 0 && Spec.el (nowV t 4) 32 1 == 0x40000000) = true ∧
    gives (exec (.vpack 4 3 2 .i16) vec) (fun t => Spec.el (nowV t 4) 16 0 == 1 && Spec.el (nowV t 4) 16 1 == 0x7FFF && t.core.vstat.getLsbD 8) = true ∧
    gives (exec (.vcmpLt 4 1 2 .w32) vec) (fun t => t.core.k.get 4 == 0) = true ∧
    gives (exec (.vcmpEq 4 1 2 .w32) vec) (fun t => t.core.k.get 4 == 2 ^ 256 - 16) = true ∧
    (Spec.vNow (.kpop 5 1) [] [] vec).isSome = true ∧ gives (exec (.kpop 5 1) vec) (fun t => now t 5 == 128) = true ∧
    gives (exec (.kand 2 1 0) vec) (fun t => t.core.k.get 2 == 2 ^ 128 - 1) = true ∧ gives (exec (.kor 2 1 0) vec) (fun t => t.core.k.get 2 == 2 ^ 256 - 1) = true ∧
    gives (exec (.knot 2 1) vec) (fun t => t.core.k.get 2 == 2 ^ 256 - 2 ^ 128) = true := by decide +kernel
/-- Reductions, the scan and the moves (R158 to R166). -/
theorem witness_reductionsMoves :
    (∀ i ∈ [Instr.vredSum 4 3 1 .i32, .vredMax 4 3 1 .i32, .vredMin 4 3 1 .f32, .vscan 4 3 1 .w16, .vcvt 4 3 0x0A .nearest, .vcvt 4 3 0x0A .status, .vshuf 4 3 0 63,
        .vshuf 4 3 1 1, .vshuf 4 3 2 3, .vshuf 4 3 3 0, .vshuf 4 3 4 1, .vshuf 4 3 5 63],
      (Spec.vNow i [3] [] vec).isSome = true ∧ gives (exec i vec) (fun t => t.core.mark == .ok) = true) ∧
    gives (exec (.vredSum 4 3 1 .i32) vec) (fun t => nowV t 4 == 0x7FFF0001) = true ∧ gives (exec (.vredMin 4 3 1 .i32) vec) (fun t => nowV t 4 == 0) = true ∧
    gives (exec (.vscan 4 3 1 .w32) vec) (fun t => Spec.el (nowV t 4) 32 31 == 0x7FFF0001 && Spec.el (nowV t 4) 32 32 == 0) = true ∧
    gives (exec (.vredMax 4 3 5 .w16) vec) (fun t => nowV t 4 == 0) = true ∧ gives (exec (.vredMin 4 3 5 .i16) vec) (fun t => nowV t 4 == 0x7FFF) = true ∧
    Spec.isActive (vec.core.kVal 1) 32 31 = true ∧ Spec.isActive (vec.core.kVal 1) 32 32 = false ∧ Spec.isActive (vec.core.kVal 5) 16 0 = false ∧
    gives (exec (.vshuf 4 3 0 1) vec) (fun t => Spec.el (nowV t 4) 32 0 == 0x7FFF0000 && Spec.el (nowV t 4) 32 63 == 1) = true ∧
    (Spec.vNow (.vins 3 5 6 .w32) [3] [5, 6] vec).isSome = true ∧ gives (exec (.vins 3 5 6 .w32) vec) (fun t => Spec.el (nowV t 3) 32 6 == 5) = true ∧
    (Spec.vNow (.vext 5 3 1 .i16) [3] [1] vec).isSome = true ∧ gives (exec (.vext 5 3 1 .w32) vec) (fun t => now t 5 == 0x7FFF0000) = true ∧
    (Spec.vNow (.vmovi 4 0x7FFF) [] [] vec).isSome = true ∧ gives (exec (.vmovi 4 0x7FFF) vec) (fun t => nowV t 4 == 2 ^ 2048 - 1) = true := by decide +kernel
/-- A poisoned entry at the head of the vector load-data queue (R346). -/
theorem witness_vectorPoison :
    let s := on (fun c => { c with vldq := [{ id := 0, val := some 5, poison := true, addr := 0x4000 }] }) vec
    s.core.vldq = [{ id := 0, val := some 5, poison := true, addr := 0x4000 }] ∧ roomFor (use (.vmov 63 63 0)) s.core = true ∧ s.core.unpairedStores true = 0 ∧
    gives (exec (.vmov 4 63 0) s) (fun t => t.core.held.map (fun x => (x.code, x.tval)) == [(0x047, 0x4000)] && t.core.vldq == []) = true := by decide +kernel

/-! ### The matrix unit -/

/-- Tiles of one block at 0x400 and 0x800 of banks in an 8-plane format, with exponents and elements that are not zero; g10 the count word: 1 block, 8 planes each. -/
def matrix : State := on (fun c => { c with
  g := (((c.g.set 8 0x400).set 9 0x08080001).set 10 0x800).set 11 0,
  spad := ((c.spad.write 0x400 (List.replicate 32 4)).write (0x400 + 32 + 128) (List.replicate 128 0xFF)).write 0x800 (List.replicate 32 4 ++ List.replicate 128 0xFF),
  curBundle := 0x4000 }) base
/-- The same with a count of no blocks. -/
def noBlocks : State := on (fun c => { c with g := c.g.set 9 0x08080000, accPois := 4, acc := c.acc.set 2 5 }) matrix
/-- MMA and MCHK of one block and of none, MZERO, MDRN and MSTAT (R240 to R262). -/
theorem witness_matrixUnit : Spec.settled matrix.core 8 8 (Spec.tiles matrix.core 8 10) ∧ Spec.planesOf (matrix.core.gVal 9) = (8, 8) ∧
    Spec.tiles matrix.core 8 10 = [(0x400, 0x800)] ∧
    Spec.settled noBlocks.core 8 8 (Spec.tiles noBlocks.core 8 10) ∧ gives (exec (.mma 2 8 10) noBlocks) (fun t => t.core.accOf 2 == 5) = true ∧
    gives (exec (.mchk 2 8 10) noBlocks) (fun t => t.core.accOf 2 == 5) = true ∧
    gives (exec (.mzero 2) noBlocks) (fun t => t.core.accOf 2 == 0 && t.core.accPois == 0) = true ∧
    matrix.core.queueAhead 3 = false ∧ (matrix.core.rqOf 3).length + 16 ≤ 32 ∧ gives (exec (.mdrn 3 2) matrix) (fun t => (t.core.rqOf 3).length == 16) = true ∧
    roomFor (use (.mstat 5)) matrix.core = true ∧ gives (exec (.mstat 5) matrix) (fun t => now t 5 == 0xF0000) = true := by
  unfold Spec.settled; decide +kernel
/-- The accumulator's ports, and a queue with an entry (R261 to R264). -/
theorem witness_accumulatorPorts :
    let s := on (fun c => { c with acc := c.acc.set 2 (5 + 2 ^ 2048 * 7), rq := c.rq.set 3 [(9, 0x31)] }) vec
    roomFor (use (.vacr 4 2 1)) s.core = true ∧ s.core.accPois.getLsbD 2 = false ∧ gives (exec (.vacr 4 2 1) s) (fun t => nowV t 4 == 7) = true ∧
    roomFor (use (.vacrRow 4 2 31)) s.core = true ∧ gives (exec (.vacrRow 4 2 2) s) (fun t => nowV t 4 == 7) = true ∧
    (Spec.vNow (.vacw 2 3 15) [3] [] s).isSome = true ∧ gives (exec (.vacw 2 3 15) s) (fun t => Spec.accAt (t.core.accOf 2) 30 0 == 1) = true ∧
    (Spec.vNow (.vacwRow 2 3 31) [3] [] s).isSome = true ∧ gives (exec (.vacwRow 2 3 31) s) (fun t => Spec.accAt (t.core.accOf 2) 31 1 == 0x7FFF0000) = true ∧
    s.core.queueAhead 3 = false ∧ gives (exec (.vqpop 4 3) s) (fun t => nowV t 4 == 9 && t.core.rqhdr.get 3 == 0x31 && (t.core.rqOf 3).isEmpty) = true := by decide +kernel
/-- Banks 1 to 8 as plane banks of 8 planes of .i8; rings 1 and 2 of two entries of 1,056 bytes each, one of them produced. -/
def streaming : State :=
  let r : Ring := { isSet := true, base := 0x400, esize := 0x420, count := 1, bars := 0x4000, prod := 1, rsv := 1 }
  on (fun c => { c with
    g := (c.g.set 8 0x201).set 9 0x08080001,
    bf := (((((c.bf.set 1 0x70204).set 2 0x70204).set 3 0x70204).set 4 0x70204).set 5 0x70204).set 6 0x70204,
    rings := (c.rings.set 1 r).set 2 { r with base := 0x1000 }, curBundle := 0x4000 }) base
/-- MMAS that can fire, at its place in the bundle and at the head of the matrix queue (R257, R258). -/
theorem witness_streamedProduct :
    let q : QSlot := { instr := .mmas 2 8 9, bundle := 0x4000, slot := 0, seq := 0, gsrc := [(8, 0x201), (9, 0x08080001)] }
    Spec.mayFire streaming.core (streaming.core.gVal 8) (streaming.core.gSecond 8 9) ∧
    (let s := on (fun c => { c with meq := [q] }) streaming
     s.core.meq = [q] ∧ Spec.mayFire (s.core.enter q) ((s.core.enter q).gVal 8) ((s.core.enter q).gSecond 8 9)) := by
  unfold Spec.mayFire Spec.settled; decide +kernel

/-! ### Rings, barriers and copies -/

/-- Two operands, a scratchpad in use, and an executing back slot. -/
def ops (x y : Word) : State := setReg 5 x (setReg 6 y vec)
/-- A ring 3 of two entries of 32 bytes at 0x400 with barriers at 0x100. -/
def ringed (prod cons rsv : Nat) (x y : Word) : State :=
  let r : Ring := { isSet := true, base := 0x400, esize := 32, count := 2, bars := 0x100, prod := prod, cons := cons, rsv := rsv }
  on (fun c => { c with rings := c.rings.set 3 r }) (ops x y)
/-- Barriers at the last place of the scratchpad, and the ring slots (R283 to R290). -/
theorem witness_ringsAndBarriers :
    Memory.wf (ops 0x5FFF0 0xFFFFFFFFFF).core.spad = true ∧
    (Spec.gSources [5, 6] (ops 0x5FFF0 0xFFFFFFFFFF)).isSome = true ∧ Spec.barrierAt (ops 0x5FFF0 0xFFFFFFFFFF) 0x5FFF0 0xFFFFFFFFFF ∧
    (ops 0x5FFF0 0xFFFFFFFFFF).countsInto 0x5FFF0 = false ∧
    gives (exec (.barinit 5 6) (ops 0x5FFF0 0xFFFFFFFFFF)) (fun t => t.core.spad.word 0x5FFF0 == 0xFFFFFFFFFF && t.core.spad.word 0x5FFF8 == 0xFFFFFFFFFF) = true ∧
    gives (exec (.barexp 5 6) (ops 0x5FFF0 7)) (fun t => t.core.spad.word 0x5FFF0 == 7) = true ∧
    (Spec.readsAll [5, 6] (ops 0x5FFF0 1)).isSome = true ∧ (ops 0x5FFF0 1).core.ceq.flatten.any isBarSlot = false ∧
    ((ops 0x5FFF0 1).core.spad.word 0x5FFF0).getLsbD 63 ≠ (1 : Word).getLsbD 0 ∧ gives (exec (.barwt 5 6) (ops 0x5FFF0 1)) (fun t => t.core.mark == .ok) = true ∧
    ringSetOk (ops 0x3002000400 0x200000100) 0x3002000400 0x200000100 = true ∧ (ops 0x3002000400 0x200000100).holdsRing 3 = false ∧
    gives (exec (.rngset 5 6) (ops 0x3002000400 0x200000100)) (fun t => (t.core.ring 3).count == 2 && t.core.spad.word 0x118 == 32) = true ∧
    gives (exec (.rngadvRelease 5 6) (ringed 2 0 2 3 2)) (fun t => (t.core.ring 3).cons == 2) = true ∧ ((ringed 2 0 2 3 2).core.ring 3).isSet = true ∧
    gives (exec (.rngadvCommit 5 6) (ringed 1 1 1 19 2)) (fun t => (t.core.ring 3).prod == 3 && (t.core.spad.word 0x110).getLsbD 63) = true ∧
    (ringed 1 1 1 19 2).core.laq = [] ∧ (ringed 1 1 1 19 2).fillsRing 3 = false ∧ (ringed 2 0 2 3 2).core.drainsRing 3 = false := by
  unfold Spec.barrierAt; decide +kernel
/-- A descriptor at 0x2000, the completion target a barrier at 0x100; core 0 runs in region 1. -/
def copying (ws : List Word) : State :=
  let bytes := ws.flatMap fun w => leBytes 8 w.toNat
  on (fun c => { c with region := some 1, spad := c.spad.write 0x2000 bytes, bf := ((c.bf.set 1 0x08).set 2 0x70204).set 3 0x70204 }) { ops 0x2000 0x101 with regions := [region1] }
/-- The descriptor of a CPY of 64 bytes from 0x400 to 0x800, with a nest, with a ring as destination, or for another kind. -/
def descOf (kind : CopyKind) : List Word :=
  match kind with
  | .cpy => [0x400, 0x800, 64, 0]
  | .cpyp => [0x400, 0x800, 2 ^ 37, 2 ^ 48 + 2 ^ 40, 0, 1]
  | .cpym => [0x400, 0, 2 ^ 37 + 2 ^ 44 + 3 * 2 ^ 40 + 32, 3, 0, 1]
  | .cpyq => [0, 0x800, 2 ^ 37 + 256, 0x101, 0, 1]
  | _ => [0x400, 0x800, 2 ^ 37 + 32, 0, 0, 1]
/-- Each kind of copy slot is accepted; one into a ring takes an entry; CPYQ pops; TFETCH names a window (R266 to R273, R388). -/
theorem witness_copyCommands :
    (∀ x ∈ [(Instr.cpy 5 6 .fekeep, CopyKind.cpy), (.cpyn 5 6 .fekeep, .cpyn), (.cpym 5 6 .fekeep, .cpym), (.cpyg 5 6 .fekeep, .cpyg)],
      let s := copying (descOf x.2)
      let c := Spec.command s x.2 .fekeep 0x2000 0x101 (Spec.wordsAt s 0x2000 (if x.2 = .cpy then 4 else 16))
      Spec.engineReady s 0x2000 (if x.2 = .cpy then 4 else 16) ∧ targetOk s 0x101 = true ∧ acceptFault s c = none ∧ Spec.moves c s ∧
      gives (exec x.1 s) (fun t => t.core.copies.length == 1) = true) ∧
    (let r : Ring := { isSet := true, base := 0x400, esize := 32, count := 2, bars := 0x180 }
     let s := on (fun c => { c with rings := c.rings.set 3 r })
      (copying [0x400, 0, 2 ^ 37 + 2 ^ 44 + 3 * 2 ^ 40 + 32, 0, 0, 1])
     acceptFault s (Spec.command s .cpyn .fekeep 0x2000 0x101 (Spec.wordsAt s 0x2000 16)) = none ∧
     gives (exec (.cpyn 5 6 .fekeep) s) (fun t => t.core.copies.map (fun c => c.ringD) == [some 0] && (t.core.ring 3).rsv == 1) = true) ∧
    (let s := on (fun c => { c with rq := c.rq.set 2 [(7, 0)] }) (setReg 6 0x2000 (copying (descOf .cpyq)))
     let c := Spec.command s .cpyq .fekeep 0x2000 0x101 (Spec.wordsAt s 0x2000 16)
     acceptFault s c = none ∧ s.core.queueAhead 2 = false ∧ c.count 0 ≤ (s.core.rqOf 2).length ∧
     gives (exec (.cpyq 2 6 .fekeep) s) (fun t => t.core.copies.map (fun c => c.entries) == [[(7, false)]] && (t.core.rqOf 2).isEmpty) = true) ∧
    (let s := setReg 5 0x100080 (setReg 6 0x101 windowed)
     (s.core.windowAt 0x80).isSome = true ∧ targetOk s 0x101 = true ∧ s.inCompute = false ∧
     gives (exec (.tfetch 5 6) s) (fun t => t.core.copies.map (fun c => c.kind) == [.tfetch]) = true) := by
  unfold Spec.engineReady Spec.moves; decide +kernel
/-- CPYP of one block into a plane bank. -/
theorem witness_cpyp : let s := copying (descOf .cpyp)
    let c := Spec.command s .cpyp .fekeep 0x2000 0x101 (Spec.wordsAt s 0x2000 16)
    acceptFault s c = none ∧ Spec.moves c s ∧ gives (exec (.cpyp 5 6 .fekeep) s) (fun t => t.core.copies.length == 1) = true := by
  unfold Spec.moves; decide +kernel
/-- The engine with an active CPY of 64 bytes, at its first chunk. -/
def active : State :=
  let c : CopyCmd := { id := 4, kind := .cpy, mode := .fekeep, desc := descOf .cpy, target := 2 ^ 49, descAddr := 0x2000, region := some 1 }
  { on (fun d => { d with copies := [c], spad := d.spad.write 0x400 [1, 2, 3] }) (copying (descOf .cpy)) with args := { n := 4 } }
/-- The last word of a chunk on its way to 0x800, of two bytes. -/
def flying : Flight := {
  no := 9, core := 0, src := 0, cmd := 4, region := some 1, cond := false, sp := true, bad := [], clean := [], bytes := 2, counts := []
  words := [{ no := 0x100, val := 0x0102, mask := 0xFFFF, bit := none }] }
/-- The last chunk of 8 bytes of a multicast to ring 3, made for an entry, of a message of 32. -/
def multicast (entry : Nat) (first last : Bool) : State :=
  let c : CopyCmd := { id := 4, kind := .cpym, mode := .fekeep, desc := descOf .cpym, target := 0x101, descAddr := 0x2000, region := some 1 }
  let m : Mcast := {
    core := 0, ring := 3, entry := entry, first := first, at' := 0x400 + 32 * entry, bytes := 8, bad := [], clean := [], src := 0, cmd := 4, region := some 1
    cond := false, bar := none, bundle := 0, slot := 0, seq := 0, total := 32, last := last, words := [{ no := 0x80 + 4 * entry, val := 5, mask := -1, bit := none }] }
  { on (fun d => { d with copies := [c] }) (ringed 0 0 (if first then 0 else 1) 0 0) with mcasts := [m] }
/-- A chunk that can leave, one that lands, and multicast chunks for the entry that opens, for an open one and for another (R273, R291, R292, R299). -/
theorem witness_copySteps :
    (active.args.flag = false ∧ active.core.copies.length = 1 ∧ (active.core.copies.map fun c => c.doom) = [none] ∧
     active.core.storesDone 0 true [{ off := 0, at' := 0x400, len := 64 }] = true ∧ active.core.granuleBusy [{ off := 0, at' := 0x800, len := 64 }] = false ∧
     gives (exec .copyChunk active) (fun t => t.core.spad == active.core.spad &&
       t.flights.map (fun f => (f.bytes, f.counts, f.words.map fun w => w.no)) == [(64, [], [256, 257, 258, 259, 260, 261, 262, 263])] &&
       (t.flights.flatMap fun f => f.words).head?.map (fun w => w.val) == some 0x030201 && t.core.copies.map (fun c => c.cursor) == [2 ^ 40]) = true) ∧
    (let s : State := { active with flights := [flying], args := { n := 9, flag := true } }
     Memory.wf s.core.spad = true ∧ (flying.words.map fun w => w.no).Nodup ∧ s.core.wins = [] ∧ (∀ z ∈ s.core.copies, z.id = flying.cmd → z.doom = none) ∧ (∀ w ∈ flying.words, w.sum = none) ∧
     gives (exec .copyChunk s) (fun t => t.core.spad.read 0x800 3 == [2, 1, 0] && t.flights == []) = true) ∧
    (let w : FlightWord := { no := 0x100, val := 0x3F80000000000000, mask := 0xFFFFFFFF00000000, bit := none, sum := some 0x08 }
     let s : State := on (fun d => { d with spad := d.spad.write 0x804 [0, 0, 0x80, 0x3F] })
       { active with flights := [{ flying with words := [w], path := .away }], args := { n := 9, flag := true } }
     Memory.wf s.core.spad = true ∧ s.core.wins = [] ∧ gives (exec .copyChunk s) (fun t => t.core.spad.read 0x800 8 == [0, 0, 0, 0, 0, 0, 0, 0x40] && t.flights == []) = true) ∧
    (∀ x ∈ [(0, true, false, 1, 1), (0, false, true, 1, 1), (1, true, false, 1, 0)],
      let s := multicast x.1 x.2.1 x.2.2.1
      (s.core.ring 3).isSet = true ∧ (s.core.ring 3).esize = 32 ∧ s.flights = [] ∧ s.core.granuleBusy [{ off := 0, at' := 0x400 + 32 * x.1, len := 8 }] = false ∧
      gives (exec .multicastArrival s) (fun t => t.mcasts.isEmpty && (t.core.ring 3).rsv == x.2.2.2.1 &&
        (t.flights.filter fun f => f.counts.contains (0, 0x100 + 16 * x.1)).length == x.2.2.2.2) = true) := by
  and_intros <;> decide +kernel

/-! ### Links and the network -/

/-- Port 3 is up and bound to the partition, which has a network peer; the descriptor stands at 0x2000. -/
def linked (ws : List Word) : State :=
  let s := copying ws
  { s.putPart 0 { kports := [(3, { mode := 1, isUp := true })], peers := some [(1, 1, 1)], rwins := [(4, 0, 1, 0x08, 1)] } with ports := [(3, { mode := 1, isUp := true })] }
/-- Each link slot is taken by its port; a receive is posted (R403 to R407). -/
theorem witness_linkSlots :
    (∀ x ∈ [(Instr.lnkSendPut 5 6, (0 : Word), (64 : Nat)), (.lnkSendGet 5 6, 0, 64), (.lnkSendAtomic 5 6, 2 ^ 36, 8), (.lnkSendMessage 5 6, 0, 64),
        (.lnkRadd 5 6, 0x08 * 2 ^ 48, 64), (.lnkRed 5 6, 0x08 * 2 ^ 48 + 4 * 2 ^ 40, 64)],
      let s := linked [0x400, 2 ^ 63 * (if x.1 = .lnkRadd 5 6 then 0 else 1), BitVec.ofNat 64 (2 ^ 53 + 3 * 2 ^ 32 + x.2.2), x.2.1]
      ((Spec.linkForm x.1).any fun f =>
        let l := Spec.linkCommand s f.1 0x2000 0x101
        linkOperandOk s 0x2000 0x101 && (s.part 0).kports.any (fun x => decide (x.1 = l.port)) && (s.port l.port).works && linkDescOk (s.part 0) l &&
          (match localSide s l (decide (f.1 = .get) || decide (f.1 = .atomic)) with | .ok _ => true | _ => false)) = true ∧
      gives (exec x.1 s) (fun t => t.links.map (fun l => (l.port, l.pkg)) == [(3, 1)]) = true) ∧
    gives (exec (.lnkRecv 5 6) (linked [0x400, 0, 64])) (fun t => t.core.recvs.map (fun r => r.len) == [64]) = true := by decide +kernel
/-- Network slots (R415 to R421). -/
theorem witness_netSlots :
    (let s := setReg 6 0 (linked [0x400, 0x6000, 1500])
     let r : NetReq := { id := 0, core := 0, region := some 1, asid := 0, part := 0, words := Spec.wordsAt s 0x2000 8, pkts := [] }
     r.wellFormed = true ∧ r.peer < (((s.part 0).peers.map List.length).getD 0) ∧ r.laddr + r.len ≤ s.spadSize ∧
     gives (exec (.netPost 5 6) s) (fun t => t.nets.map (fun r => r.pkts.map fun p => p.seq) == [[0, 1]]) = true) ∧
    gives (exec (.netArm 5 6) (setReg 5 255 (setReg 6 0x4000 mapped))) (fun t => assocGet (t.asidOf 0).ctrs 255 == some 0x4000) = true ∧
    gives (exec (.netArm 5 6) (setReg 5 255 (setReg 6 0 mapped))) (fun t => (t.asidOf 0).ctrs == []) = true ∧
    mapped.translate 0x4000 true true false = .ok 0x4000 ∧ roomFor (use (.netCqr 4 5)) base.core = true ∧
    gives (exec (.netCqr 4 5) base) (fun t => now t 4 == 0) = true ∧
    gives (exec (.netCqr 4 5) { base with asids := [(0, { cqs := [(5, [9, 8])] })] }) (fun t => now t 4 == 9 && assocGet (t.asidOf 0).cqs 5 == some [8]) = true := by
  refine ⟨by decide +kernel, by decide +kernel, by decide +kernel, rfl, by decide +kernel⟩

/-! ### Boundaries, the scheduler and supersteps -/

/-- A held trap, a pending one, an interrupt that the level lets in, and routed sources (R53, R54, R316, R377). -/
theorem witness_boundaryEntries :
    let held := on (fun c => { c with held := [{ code := 0x082 }] }) handled
    let pend := on (fun c => { c with pend := some { code := 0x00C } }) handled
    let irq := on (fun c => { c with irqs := [{ code := 0x01D, tinfo := Spec.fromVat base }] }) handled
    let routed : State := { base with routes := [(0x45F, 0x8000000000000000)], args := { n := 0x45F } }
    handled.core.run.active = true ∧ handled.core.drained = true ∧ gives (exec .trapEntry held) (fun t => t.core.pc == 0x8000 && t.core.held == []) = true ∧
    gives (exec .trapEntry pend) (fun t => t.core.pc == 0x8000 && t.core.pend.isNone) = true ∧
    (Spec.fromVat base).toNat / 2 ^ 35 % 8 = 3 ∧ Spec.mayEnter irq.core { code := 0x01D } ∧ gives (exec .trapEntry irq) (fun t => t.core.pc == 0x8000 && t.core.irqs == []) = true ∧
    gives (exec .intExt routed) (fun t => t.core.irqs.map (fun x => (x.code, x.tval, x.level)) == [(0x01C, 0x45F, some 0)]) = true ∧
    gives (exec .intExt { base with args := { n := 0 } }) (fun t => t.core.irqs == []) = true ∧
    gives (exec .preempt base) (fun t => t.core.irqs.map (fun x => x.code) == [0x01D]) = true := by
  unfold Spec.mayEnter; decide +kernel
/-- A task of region 1 that is ready, and one that is parked on the word at 0x4010. -/
def tasked : State :=
  let k : Task := { id := 5, record := 0x6000, region := 1, die := 0, sorus := 0, entry := 0x8000, save := 0, base := 3, cur := 3, st := 1, since := 0, fresh := some (7, 8) }
  let p : Task := { k with id := 6, st := 3, waitw := 0x4010, parkKey := some (0, 0x802) }
  { on (fun c => { c with run := .free }) inRegion with tasks := [k, p], wakes := [{ core := none, block := 4, words := [(0x802, false)] }], clk := 2 ^ 20, args := { n := 5 } }
/-- A dispatch, an ageing and a wake, whose words the task waits for or does not, and in a pre-empted region (R175, R186, R189). -/
theorem witness_schedulerSteps :
    let paused : State := { tasked with regions := [{ region1 with state := .saved true }] }
    let other : State := { tasked with wakes := [{ core := none, block := 4, words := [(0x802, true)] }] }
    (tasked.tasks.map fun k => tasked.pausedTask k) = [false, false] ∧ (paused.tasks.map fun k => paused.pausedTask k) = [true, true] ∧
    gives (exec .parkWake paused) (fun t => t.tasks.map (fun k => (k.st, k.woken)) == [(1, false), (3, true)] && t.wakes == []) = true ∧
    gives (exec .parkWake other) (fun t => t.tasks.map (fun k => k.st) == [1, 3] && t.wakes == []) = true ∧
    tasked.core.run = .free ∧ (nextTask tasked tasked.core).map (fun k => k.id) = some 5 ∧ tasked.region? 1 = some region1 ∧
    gives (exec .taskDispatch tasked) (fun t => t.core.pc == 0x8000 && t.core.taskid == 5 && now t 2 == 7 && t.core.run == .running) = true ∧
    gives (exec .taskAgeing tasked) (fun t => (t.task? 5).map (fun k => (k.cur, k.since)) == some (4, 2 ^ 20)) = true ∧
    gives (exec .parkWake tasked) (fun t => t.tasks.map (fun k => k.st) == [1, 1] && t.wakes == []) = true := by decide +kernel
/-- A scheduled region whose core has arrived, or that is in its communication step. -/
def superstep (comm : Bool) (endT : Option Nat) : State :=
  let l : Lease := { start := 8, pages := 1, x := true, w := true, r := true, frames := [0x80], perms := [(true, true, true)] }
  { on (fun c => { c with run := .atBarrier, region := some 1 }) inRegion with
    regions := [{ region1 with scheduled := true, leases := [l], sched := 0x8000, inComm := comm, endT := endT }], args := { n := 1 } }
/-- The barrier, a long word that ends the step, its end, a tasked boundary and a deadline (R177 to R181, R329, R330). -/
theorem witness_superstepSteps :
    let asked : State := { on (fun c => { c with run := .free }) inRegion with regions := [{ region1 with level := 1, state := .requested 0 }], args := { n := 1 } }
    let pool : State := { asked with regions := [{ region1 with state := .requested 0 }] }.putPart 0 { dump := some (0, (List.range 1280).map (0x1000 + ·), 5) }
    Spec.coherent (superstep false none) ∧ (superstep false none).region? 1 ≠ none ∧
    ((superstep false none).region? 1).any (barrierReady (superstep false none)) = true ∧
    gives (exec .barrierRelease (superstep false none)) (fun t => t.core.stepno == 1 && (t.region? 1).any (fun r => r.inComm)) = true ∧
    gives (exec .conductorSlotSend (superstep true none)) (fun t => (t.region? 1).map (fun r => (r.streamPos, r.endT)) == some (1, some 0)) = true ∧
    ((superstep true (some 0)).region? 1).any (fun r => r.live && !outwardPending (superstep true (some 0)) r) = true ∧
    gives (exec .computeStepStart (superstep true (some 0))) (fun t => t.core.run == .running && (t.region? 1).any (fun r => !r.inComm)) = true ∧
    (asked.region? 1).any (atBoundary' asked) = true ∧ gives (exec .taskedBoundary asked) (fun t => (t.region? 1).map (fun r => r.state) == some (.saved false)) = true ∧
    (pool.region? 1).any (fun r => ((pool.dropWindows r).takeArea 0 4 none).2.isSome) = true ∧
    (∃ t, exec .deadlineOver base = .next t) := by
  and_intros <;> first | decide +kernel | rfl | exact ⟨_, rfl⟩ | exact fun e h => absurd h List.not_mem_nil

/-! ### Launches and work queues -/

/-- Both stages map the first GiB to itself, from tables at 0x10000 and 0x13000. -/
def walked : State :=
  let m := (((((State.reset.mem.write 0x10000 (leBytes 8 0x11001)).write 0x11000 (leBytes 8 0x12001)).write 0x12000 [0xF]).write 0x13000 (leBytes 8 0x14001)).write
    0x14000 (leBytes 8 0x15001)).write 0x15000 [0xF]
  let s : State := { base with mem := m, asids := [(0, { ctx := [0, 0, 0, 0, 0, 0x13000, 0] })] }
  s.putPart 0 { st := .sealed, holds := true, s2root := some 0x10000, cores := some [0, 1] }
/-- The walk of R221 on them. -/
theorem test_walk : walked.walk 0 0 0x8123 true true = .ok 0x8123 true true true false ∧ walked.walk 0 0 0x40000000 true false = .first := by decide +kernel
/-- A region in a state of its launch. -/
def launching (st : RegionState) : State :=
  { walked with
    regions := [{ region1 with state := st, nleases := 1, leases := [{ start := 8, pages := 1, x := true, w := true, r := true }], compl := 0x8000, has := 0x4000, budget := [] }],
    args := { n := 1 } }
/-- A region whose work has ended, with its completion record in a lease. -/
def ended : State :=
  let l : Lease := { start := 8, pages := 1, x := true, w := true, r := true, frames := [0x80], perms := [(true, true, true)] }
  { launching .running with regions := [{ region1 with count := 0, leases := [l], compl := 0x8000, has := 0x4000 }] }
/-- A page, the start, an answered fault, a completion record and its verdict (R175, R193, R225, R226, R352, R353). -/
theorem witness_launchSteps :
    (launching (.acquiring 0 0)).walk 0 0 0x8000 false false = .ok 0x8000 true true true false ∧ inHost 0x8000 = false ∧
    gives (exec .leaseAcquisition (launching (.acquiring 0 0))) (fun t => (t.region? 1).map (fun r => (r.state, r.leases.map fun l => l.frames)) == some (.acquiring 1 0, [[8]])) = true ∧
    (let s := launching .waitingCores
     (s.region? 1).any (fun r => !r.hold && !queueAheadOf s r && (s.part 0).holds && planOk s r && imageFits r (s.program r) && decide (r.ncores ≤ (freeCores s r).length)) = true ∧
     gives (exec .leaseAcquisition s) (fun t => (t.region? 1).map (fun r => (r.state, r.budget)) == some (.running, [0])) = true) ∧
    (let s (n : Byte) : State := { launching (.pageFault 0 0 0x9000) with mem := walked.mem.write 0x9018 [n] }
     (s 1).mem.word 0x9018 = 1 ∧ gives (exec .pageFaultResponse (s 1)) (fun t => (t.region? 1).map (fun r => r.state) == some (.acquiring 0 0)) = true ∧
     (s 2).mem.word 0x9018 = 2 ∧ (∃ t, exec .pageFaultResponse (s 2) = .next t)) ∧
    (ended.region? 1).any (fun r => decide (r.count = 0) && !ended.recordWaits r && r.has.getLsbD 14 &&
      ((ended.writeFor r r.compl ((completionWords ended r).flatMap fun w => leBytes 8 w.toNat)).any fun s1 =>
        s1.allCores.all fun c => c.wins.isEmpty)) = true ∧
    gives (exec .completionRecord ended) (fun t => (t.region? 1).isNone && t.awaits.map (fun x => (x.no, x.compl)) == [(1, 0x80000)] && t.todo == ended.todo) = true ∧
    (let s : State := { ended with scans := ended.scans.set 0 { retired := [0] } }
     (s.region? 1).any (fun r => s.failedCore r) = true ∧
     gives (exec .completionRecord s) (fun t => t.todo.map (fun d => (d.instr, d.args.n, d.args.flag)) == [(.verdict, 1, true)]) = true) ∧
    (let s (bad : Bool) : State := { base.putTile 9 { inCache := true } with
       awaits := [{ no := 5, part := 0, compl := 0x9000, word29 := 0x90E8, cores := [0], epochs := [0] }], args := { n := 5, flag := bad } }
     Memory.wf base.mem = true ∧ gives (exec .verdict (s false)) (fun t => t.awaits == [] && t.mem.word 0x90E8 == 0x8000000000000001) = true ∧
     gives (exec .verdict (s true)) (fun t => t.mem.word 0x90E8 == 0x8000000000000002 && t.mem.word 0x9000 == 0x40000) = true) := by
  and_intros <;> first | decide +kernel | rfl | exact ⟨_, rfl⟩
/-- Work queue 9 of 16 entries at 0x4000 with an entry that names the block at 0x6000, level 3; ASID 0 sees the lowest memory. -/
def queue9 (head tail : Nat) (act : Bool) : State :=
  let m := (State.reset.mem.write 0x4000 (leBytes 8 0x6000)).write 0x4008 [3]
  let s : State := { base with mem := m, asids := [(0, { ctx := [0, 0, 7, 0x4000000000, 0, 0, 0] })] }
  { s.putPart 0 { st := .sealed, holds := true, queues := some (0, 16) } with
    wqs := [(9, { base := 0x4001, cfg := 2 ^ 63 + 4 * 2 ^ 48 + 2 ^ 28, head := head, tail := tail })], active := if act then [9] else [], args := { n := 9 } }
/-- The host's writes and reads, the doorbell, idleness and the entry whose turn it is (R301, R372 to R376). -/
theorem witness_workQueues :
    let set (n : Nat) (w : Word) (flag : Bool) : State := { queue9 2 3 true with args := { n := n, w := w, flag := flag } }
    let bell (s : State) (m : Nat) : State := { s with args := { n := 4096 * 9, m := m } }
    let quiet (p : List Nat) : State :=
      { queue9 0 0 true with wqs := (queue9 0 0 true).wqs ++ [(8, { cfg := 2 ^ 63 + 4 * 2 ^ 48, tail := 1 })], pendingQ := p, args := { n := 9, m := 0 } }
    let read (o : Nat) (v : Word) : Bool := gives (exec .wqcfg (set (64 * 9 + o) 0 true)) fun t => t.hostOut.map (fun r => r.bytes) == [leBytes 8 v.toNat]
    (gives (exec .wqcfg (set (64 * 65535) 0x4001 false)) (fun t => (t.queue 65535).base == 0x4001) &&
     gives (exec .wqcfg (set (64 * 65535 + 8) (2 ^ 63) false)) (fun t => (t.queue 65535).en) &&
     read 0 0x4001 && read 8 (2 ^ 63 + 4 * 2 ^ 48 + 2 ^ 28) && read 16 (2 ^ 62 + 2) && read 24 3) = true ∧
    (gives (exec .dbtail (bell (queue9 0 0 false) 17)) (fun t => (t.queue 9).code == 6 && t.timers.length == base.timers.length) &&
     gives (exec .dbtail (bell (queue9 0 1 true) 17)) (fun t => (t.queue 9).code == 6 && t.timers.length == base.timers.length + 1) &&
     gives (exec .dbtail (bell (queue9 0 0 false) 16)) (fun t => t.active == [9] && (t.queue 9).tail == 16) &&
     gives (exec .dbtail (bell (queue9 0 1 true) 2)) (fun t => t.active == [9] && (t.queue 9).tail == 2) &&
     gives (exec .dbtail (bell (queue9 0 1 true) 0)) (fun t => t.active == [9] && t.timers.length == base.timers.length + 1)) = true ∧
    roomFor' (queue9 0 0 false) 0 = true ∧ ((quiet [8]).queue 8).hasEntry = true ∧ ((quiet []).queue 9).idle = 0 ∧
    (gives (exec .queueInactive (quiet [])) (fun t => t.active == []) && gives (exec .queueInactive (quiet [8])) (fun t => t.active == [8] && t.pendingQ == [])) = true ∧
    (let s := queue9 0 1 true
     queueOwned s 9 = true ∧ ringPlace s (s.queue 9) 0x4000 = some 0x4000 ∧ s.mem.anyPoison 0x4000 64 = false ∧
     Spec.entryOk (s.queue 9) (Spec.physWords s 0x4000 8) ∧ s.vatPlace 0 0 0x6000 true false = some 0x6000 ∧
     gives (exec .wqEntryLaunch s) (fun t => (t.queue 9).head == 1 && t.nextRgn == 1 && t.regions.length == 1) = true) := by
  unfold Spec.entryOk; decide +kernel

/-! ### Device memory, windows and links -/

/-- Tile 4 with given metadata, named by the step. -/
def tile4 (t : Tile) (flag : Bool) : State := { mapped.putTile 4 t with args := { n := 4, flag := flag } }
/-- Fills, write-backs, the end of a rotation, a migration, a token and errors (R229 to R234, R344, R439). -/
theorem witness_deviceMemory :
    inDevice 0x4000 = true ∧ Memory.wf mapped.mem = true ∧ (mapped.asidOf 0).frqs.reg.toNat / 2 ^ 12 % 2 ^ 45 = 0 ∧
    (let own := mapped.core.keysel.toNat % 1024
     gives (exec .tileFill (tile4 { under := some own } false)) (fun t => (t.tileOf 4).inCache && !(t.mem.poisoned 0x4000)) &&
     gives (exec .tileFill (tile4 { broken := true } false)) (fun t => t.mem.poisoned 0x4FE0 && t.mem.isParked 0x4000) &&
     gives (exec .tileFill (tile4 { under := some (own + 1) } false)) (fun t => t.mem.poisoned 0x4FE0 && !(t.mem.fe 0x4FF8))) = true ∧
    (∀ f ∈ mapped.flights, f.sp = false → ∀ v ∈ f.words, v.no / 512 ≠ 4) ∧
    (gives (exec .tileWriteback (tile4 { inCache := true } false)) (fun t => (t.tileOf 4).inCache && (t.tileOf 4).version == 0) &&
     gives (exec .tileWriteback (tile4 { inCache := true } true)) (fun t => (t.tileOf 4) == {}) &&
     gives (exec .tileWriteback (tile4 { inCache := true, stored := some ([0x800], [], true) } true)) (fun t => t.mem.fe 0x4000 && t.mem.isParked 0x4000 && !(t.tileOf 4).inCache) &&
     gives (exec .tileWriteback (tile4 { inCache := true, dirty := true, keyid := 7 } true))
       (fun t => (t.tileOf 4).version == 1 && (t.tileOf 4).under == some 7 && !(t.tileOf 4).inCache) &&
     gives (exec .tileWriteback (tile4 { inCache := true, dirty := true, version := 2 ^ 32 - 1 } true))
       (fun t => (t.tileOf 4).version == 0 && (t.tileOf 4).epoch && ((assocGet t.keys 0).getD {}).rot)) = true ∧
    (let s (x : Tile) : State := { tile4 x false with keys := [(0, { rot := true })], args := { n := 0 } }
     gives (exec .keyRotationEnd (s { epoch := true })) (fun t => ((assocGet t.keys 0).getD {}).epoch && !(t.tileOf 4).epoch) = true ∧
     (s { under := some 0 }).tiles.length = 1 ∧ gives (exec .keyRotationEnd (s { under := some 0 })) (fun t => (t.tileOf 4).under == some 0) = true) ∧
    (let s : State := { walked with migs := [{ asid := 0, part := 0, va := 0x8000, toHost := true }], spareHost := [0x8000000000] }
     s.leased 8 = false ∧ s.flights = [] ∧ inHost 0x8000 = false ∧ s.mem.dark = false ∧ gives (exec .pageMigration s) (fun t => t.migs == [] && t.moved == [(8, 0x8000000000)]) = true) ∧
    gives (exec .tokenAccrual { base with buckets := [{ port := 1, ctx := 2, prio := 0, rate := 1, ceiling := 5, tokens := 4, credit := 2250 }], args := { n := 1, m := 2 } })
      (fun t => t.buckets.map (fun b => (b.tokens, b.credit)) == [(5, 0)]) = true ∧
    gives (exec .memUncorr { base with args := { n := 0x5FFFF, m := 3 } }) (fun t => t.core.spad.poisoned 0x5FFE0) = true ∧
    gives (exec .memUncorr { base with args := { n := 0x4000, m := 2 } }) (fun t => t.mem.poisoned 0x4000) = true ∧
    gives (exec .memUncorr { base with args := { n := 0x4000, m := 0 } }) (fun t => t.mem.poisoned 0x4000) = true := by
  and_intros <;> decide +kernel
/-- The window of two tiles with directory entries of its own; the step concerns tile 0 and participant `who`. -/
def dirState (t : DirTile) (who : Nat) : State :=
  let w : DirWin := { wid := 7, image := 0x6000, frames := [6], tl := 7, nt := 2, parts := [(9, 0, true), (10, 0, true)], tiles := [t, {}] }
  let d : WinDecl := { slot := 2, wid := 7, who := 9, lbase := 0x80, nt := 2, tl := 7, write := true, image := 0x6000, tiles := [.i, .i] }
  { on (fun c => { c with wins := [d] }) mapped with dir := [w], args := { n := 7, m := 0, p := who } }
/-- Requests in every state of the directory, an answer, a fill, a notice and a drop (R381 to R384). -/
theorem witness_windowSteps :
    let st (s : State) : Option (DirState × Option (Nat × Nat) × List Nat × List (Nat × Nat)) :=
      (s.win? 7).map fun w => ((w.tile 0).st, (w.tile 0).busy, (w.tile 0).waits, (w.tile 0).queue.map fun r => (r.kind, r.who))
    gives (exec .gets (dirState { busy := some (10, 0) } 9)) (fun t => st t == some (.i, some (10, 0), [], [(0, 9)])) = true ∧
    gives (exec .gets (dirState {} 9)) (fun t => st t == some (.i, some (9, 0), [], [])) = true ∧
    gives (exec .gets (dirState { st := .m, owner := 10 } 9)) (fun t => st t == some (.m, some (9, 0), [10], [])) = true ∧
    gives (exec .getm (dirState {} 9)) (fun t => st t == some (.i, some (9, 1), [], [])) = true ∧
    gives (exec .getm (dirState { st := .s, sharers := [10] } 9)) (fun t => st t == some (.s, some (9, 1), [10], [])) = true ∧
    (let s := dirState { st := .s, sharers := [10], busy := some (9, 1), waits := [10] } 10
     (s.win? 7).any (fun w => tileQuiet s w 10 0) = true ∧ gives (exec .invalidation s) (fun t => st t == some (.s, some (9, 1), [], [])) = true) ∧
    (let s := dirState { busy := some (9, 0) } 9
     (s.win? 7).any (fun w => tileQuiet s w 9 0 && decide (w.coreOf 9 = s.core.id)) = true ∧
     gives (exec .windowFill s) (fun t => st t == some (.e, none, [], []) && t.core.wins.map (fun d => d.tiles) == [[.e, .i]]) = true) ∧
    gives (exec .noticeEToM (dirState { st := .e, owner := 9 } 9)) (fun t => st t == some (.m, none, [], [])) = true ∧
    gives (exec .drop (dirState { st := .s, sharers := [9] } 9)) (fun t => st t == some (.i, none, [], [])) = true := by decide +kernel
/-- The window of one tile whose other participant, 20, is a core of package 5. -/
def lossState (t : DirTile) (away : List (Nat × Nat)) (local' : TileState) (args : Args) : State :=
  let w : DirWin := { wid := 7, image := 0x6000, frames := [6], tl := 7, nt := 1, parts := [(9, 0, true)], away := away, tiles := [t] }
  let d : WinDecl := { slot := 2, wid := 7, who := 9, lbase := 0x80, nt := 1, tl := 7, write := true, image := 0x6000, tiles := [local'] }
  { on (fun c => { c with wins := [d], spad := ({} : Store).write 0x80 [1, 2, 3] }) mapped with dir := [w], args := args }
/-- A lost owner without and with a surviving sharer, a lost message, and a declaration of a degraded window (R391 to R393). -/
theorem witness_windowLoss :
    Memory.wf (lossState {} [] .i {}).mem = true ∧ inDevice 0x6000 = true ∧ inDevice 0x607F = true ∧
    ((lossState {} [] .i {}).asidOf (lossState {} [] .i {}).core.asid).frqs.reg = 0 ∧
    gives (exec .packageLost (lossState { st := .m, owner := 20 } [(20, 5)] .i { n := 5 })) (fun t =>
      t.dir.map (fun w => (w.degraded, w.away, w.tiles.map fun x => x.st)) == [(true, [], [.i])] && t.mem.poisoned 0x6060) = true ∧
    gives (exec .packageLost (lossState { st := .o, owner := 20, sharers := [9] } [(20, 5)] .s { n := 5 })) (fun t =>
      t.dir.map (fun w => (w.degraded, w.tiles.map fun x => (x.st, x.sharers))) == [(false, [(.s, [9])])] && t.mem.read 0x6000 4 == [1, 2, 3, 0]) = true ∧
    gives (exec .lossBeyondReplay (lossState { st := .m, owner := 9 } [] .m { n := 95, list := [7, 0] })) (fun t =>
      t.dir.map (fun w => (w.degraded, w.tiles.map fun x => x.st)) == [(true, [.i])] && t.mem.poisoned 0x6000 && t.core.wins.map (fun d => d.tiles) == [[.i]]) = true ∧
    (match homeDeclares { base with dir := [{ wid := 7, image := 0x6000, frames := [6], tl := 7, nt := 1, degraded := true, tiles := [{}] }] } 0 7 1 true [0x6000] with
      | .error 7 => true
      | _ => false) = true := by decide +kernel
/-- A frame from package 2 by port 3, whose partition's fabric aperture maps 0x6000 and whose core 0 takes scratchpad frames. -/
def frameIn (kind : FabKind) (glob : Bool) (addr : Nat) (data : List Byte) : State :=
  let q : FabReq := {
    kind := kind, srcPkg := 2, srcDie := 0, srcCore := 1, seq := 0, bundle := 0x4000, slot := 0, engine := 5, cmd := 6, ident := 7, port := 3, dst := 0
    toGlobal := glob, core := 0, addr := addr, off := 0, len := if kind = .atomic then 8 else 4, total := 4, data := data.map (fun b => (b, false, false)), op := 0
    eight := true, operand := 2, swapVal := 0, fmt := 0x08, window := 4, round := 0 }
  let s := (base.putTile 6 { inCache := true }).putTile 5 { inCache := true }
  let f : Aper := { start := 0x6000, pages := 1, base := 0x6000, w := true, r := true }
  let n : Aper := { start := 0x5000, pages := 1, base := 0x5000, w := true, r := false }
  let s := s.putPart 0 { st := .sealed, kports := [(3, { mode := 1, isUp := true })], cores := some [0], faper := [f], naper := [n], rwins := [(4, 0x6000, 1, 0x08, 1)], peers := some [(1, 1, 1)] }
  { s with ports := [(3, { mode := 1, isUp := true, part := some 0 })], args := { req := some q } }
/-- Puts, gets, additions, poison, refusals, atomics, messages and contributions (R324, R401, R404 to R408). -/
theorem witness_linkArrivals :
    Memory.wf base.mem = true ∧ Spec.coherent base ∧
    gives (exec .remoteWrite (frameIn .put true 0x8000 [1, 2, 3, 4])) (fun t => t.ackOut.map (fun a => a.code) == [3]) = true ∧
    gives (exec .remoteWrite (frameIn .put true 0x6FFC [1, 2, 3, 4])) (fun t => t.mem.bytes == [] && t.ackOut == [] &&
      t.flights.map (fun f => (f.sp, f.part, f.acks.map fun a => a.code, f.words)) ==
        [(false, some 0, [0], [{ no := 0xDFF, val := 0x0403020100000000, mask := 0xFFFFFFFF00000000, bit := none }])]) = true ∧
    gives (exec .remoteWrite (frameIn .get true 0x6000 [])) (fun t => t.ackOut.map (fun a => a.data.length) == [4]) = true ∧
    gives (exec .remoteWrite (frameIn .poison true 0x6000 [])) (fun t => t.mem.poisoned 0x6000) = true ∧
    gives (exec .remoteWrite (frameIn .radd false 0x5FFFC [0, 0, 0x80, 0x3F])) (fun t => t.ackOut == [] &&
      t.flights.map (fun f => (f.sp, f.core, f.words)) ==
        [(true, 0, [{ no := 0xBFFF, val := 0x3F80000000000000, mask := 0xFFFFFFFF00000000, bit := none, sum := some 0x08 }])]) = true ∧
    gives (exec .remoteAtomic { frameIn .atomic true 0x6000 [] with replay := [(2, 5, 7, 99)] }) (fun t => t.ackOut.length == 1 && t.mem.bytes == []) = true ∧
    gives (exec .remoteAtomic ((frameIn .atomic true 0x6000 []).putPart 0 { (frameIn .atomic true 0x6000 []).part 0 with rwins := [] }))
      (fun t => t.mem.word 0x6000 == 2 && t.replay == [(2, 5, 7, 0)]) = true ∧
    (let one := frameIn .message false 0 [1]
     let whole := frameIn .message false 0 [1, 2, 3, 4]
     let holds (l : List FabReq) (s : State) : State := on (fun c => { c with msgs := l }) s
     let v : Receive := { lsp := false, pieces := [{ off := 0, at' := 0x80, len := 4 }], len := 4, target := 2 ^ 49, desc := 0, task := 0, asid := 0, bundle := 0, slot := 0, seq := 0 }
     (one.port 3).part = some 0 ∧ one.byNumber 0 = one.core.id ∧ gives (exec .messageArrival one) (fun t => t.core.msgs.length == 1) = true ∧
     (one.args.req.any fun q => gives (exec .messageArrival (holds [q, { q with cmd := 9 }] one)) fun t => t.core.msgs.map (fun m => m.data.length) == [2, 1]) = true ∧
     (one.args.req.any fun q => gives (exec .messageArrival (holds (List.replicate 32 { q with cmd := 9 }) one)) fun t => t.core.mark == .stall) = true ∧
     gives (exec .messageArrival (on (fun c => { c with recvs := [v] }) whole)) (fun t => t.core.recvs == [] && t.core.msgs == [] && t.flights.map (fun f => (f.bytes, f.words.map fun w => w.val)) == [(4, [0x04030201])]) = true) ∧
    gives (exec .reductionDelivery (frameIn .red true 0x6000 [0, 0, 0x80, 0x3F])) (fun t => t.ackOut == [] && t.flights.map (fun f => (f.acks.length, f.words.map fun w => (w.no, w.sum))) == [(1, [(0xC00, some 0x08)])]) = true := by
  and_intros <;> first | decide +kernel | exact fun e h => absurd h List.not_mem_nil
/-- A put of 64 bytes by port 3 that has been sent. -/
def sentLink : LinkCmd := { id := 8, op := .put, core := 0, desc := [0x400, 2 ^ 63, 2 ^ 53 + 3 * 2 ^ 32 + 64, 0], target := 0x101, descAddr := 0x2000, port := 3, pkg := 1, len := 64, lsp := false, pieces := [{ off := 0, at' := 0x400, len := 64 }], sent := 64 }
/-- Answers of every kind, and an atomic that goes out again or fails (R405, R406). -/
theorem witness_linkAnswers :
    let a (code len : Nat) : FabAck := { dst := 0, cmd := 8, off := 0, len := len, code := code, data := [], tinfo := 0, addr := 0 }
    let s (a : FabAck) (back : List Nat) : State := { linked (descOf .cpy) with links := [{ sentLink with back := back, acked := 32 * back.length }], args := { ack := some a, n := 8 } }
    gives (exec .acknowledgement (s (a 0 64) [0])) (fun t => t.links.length == 1) = true ∧
    (let done := { s (a 0 64) [] with links := [{ sentLink with back := [0], acked := 64 }] }
     gives (exec .acknowledgement done) (fun t => t.links == []) = true) ∧
    (let got := { s { a 0 8 with data := plainLump [1, 2, 3, 4, 5, 6, 7, 8] } [] with links := [{ sentLink with op := .get, len := 8 }] }
     gives (exec .acknowledgement got) (fun t => t.links.map (fun l => l.acked) == [8] &&
       t.flights.map (fun f => (f.bytes, f.counts, f.words.map fun w => (w.no, w.val))) == [(8, [(0, 0x100)], [(0x80, 0x0807060504030201)])]) = true) ∧
    gives (exec .acknowledgement (s (a 0 32) [])) (fun t => t.links.map (fun l => l.acked) == [32]) = true ∧
    gives (exec .acknowledgement (s (a 0 64) [])) (fun t => t.links == []) = true ∧
    gives (exec .acknowledgement (s (a 1 64) [])) (fun t => t.links == []) = true ∧ (∃ t, exec .acknowledgement (s (a 3 64) []) = .next t) ∧
    (let dead (acked : Nat) : State := { s (a 0 32) [] with links := [{ sentLink with dead := true, acked := acked }] }
     gives (exec .acknowledgement (dead 0)) (fun t => t.links.map (fun l => l.acked) == [32]) = true ∧
     gives (exec .acknowledgement (dead 32)) (fun t => t.links == []) = true) ∧
    gives (exec .atomicResend (s (a 0 64) [])) (fun t => t.fabOut.length == 1 && t.links.map (fun l => l.sends) == [1]) = true ∧
    gives (exec .atomicResend { s (a 0 64) [] with links := [{ sentLink with sends := 5 }] }) (fun t => t.links == []) = true := by
  and_intros <;> first | decide +kernel | exact ⟨_, rfl⟩
/-- A packet for the network aperture, and a request of one packet that has been sent n times. -/
def netState (held : List Nat) (addr sends : Nat) : State :=
  let k : NetPacket := { peer := 0, seq := 4, req := 1, addr := addr, total := 2, bytes := [1, 2], fef := false, rce := false, rctr := 0, part := 0, port := 1, station := 1, key := 1 }
  let y : Pkt := { idx := 0, seq := 4, sends := sends, bytes := [1, 2] }
  let r : NetReq := { id := 11, core := 0, asid := 0, part := 0, words := [0x400, 0x5000, 2, 0], pkts := [y] }
  { frameIn .put true 0 [] with peerRx := [{ part := 0, peer := 0, held := held }], nets := [r], args := { pkt := some k, n := 11, m := 0, p := sends } }
/-- Ports, losses, pod time, circuit slots and packets (R398 to R402, R409, R422, R423). -/
theorem witness_linkAndNetSteps :
    let at' (n : Nat) (s : State) : State := { s with args := { s.args with n := n } }
    let circuit (o : Option Nat) : State := { base with ports := [(95, { mode := 2, isUp := true, en := true, slots := [(1, 10), (2, 10)], openSlot := o })], podSync := true, podtime := 15, args := { n := 95 } }
    let bound : State := { base with ports := [(95, { mode := 1 })] }
    exec .linkTraining (at' 95 base) = .next (at' 95 base) ∧ exec .flitReplay (at' 95 base) = .next (at' 95 base) ∧ exec .lossBeyondReplay (at' 95 base) = .next (at' 95 base) ∧
    gives (exec .lossBeyondReplay (at' 3 { linked (descOf .cpy) with links := [sentLink] })) (fun t => t.links.map (fun l => l.op) == [.poison]) = true ∧
    gives (exec .lnkDown (at' 3 (linked []))) (fun t => !(t.port 3).isUp && t.todo.length == 1) = true ∧
    gives (exec .linkTraining (at' 95 bound)) (fun t => (t.port 95).isUp && t.podRuns && !t.inPod) = true ∧
    gives (exec .linkTraining { bound with args := { n := 95, list := [2047] } }) (fun t => (t.port 95).isUp && t.inPod && t.pkg == 2047) = true ∧
    slotAt ((circuit none).port 95) 15 = some (1, 20) ∧ gives (exec .circuitSlotStart (circuit none)) (fun t => (t.port 95).openSlot == some 1) = true ∧
    exec .circuitSlotStart (circuit (some 1)) = stall (circuit (some 1)) ∧
    gives (exec .packageLost (at' 2047 { base with replay := [(2047, 1, 1, 1), (3, 1, 1, 1)] })) (fun t => t.lost == [2047] && t.replay == [(3, 1, 1, 1)]) = true ∧
    gives (exec .timeMessage { base with podtime := 5, args := { w := 4, flag := true } }) (fun t => t.podtime == 5 && t.podSync) = true ∧
    exec .timeMessage { base with inPod := true, args := { w := 9 } } = .next { base with inPod := true, args := { w := 9 } } ∧
    (let s : State := { linked [] with podtime := 7, timers := [], args := { n := 3, m := 1 } }
     (s.port 3).isUp = true ∧ (s.port 3).mode ≠ 2 ∧ gives (exec .timeMessage s) (fun t => t.timeOut == [(3, 7)] && t.timers.length == 1) = true) ∧
    (circuit none).podGood = true ∧
    gives (exec .packetPlacement (netState [4] 0x5000 1)) (fun t => t.sackOut.map (fun k => k.held) == [[4]] && t.mem.bytes == []) = true ∧
    gives (exec .packetPlacement (netState [] 0x9000 1)) (fun t => t.sackOut.map (fun k => k.refused) == [[1]]) = true ∧
    gives (exec .packetPlacement (netState [] 0x5FFE 1)) (fun t => t.sackOut == [] &&
      t.flights.map (fun f => (f.part, f.after.length, f.words.map fun w => (w.no, w.val))) == [(some 0, 1, [(0xBFF, 0x0201000000000000)])]) = true ∧
    (let placed (fl : Bool) : State := { netState [] 0x5FFE 1 with
       peerRx := [{ part := 0, peer := 0, placing := [4] }], args := { (netState [] 0x5FFE 1).args with flag := fl } }
     gives (exec .packetPlacement (placed true)) (fun t => t.sackOut.map (fun k => k.held) == [[4]] && t.peerRx.map (fun x => x.placing) == [[]]) = true ∧
     exec .packetPlacement (placed false) = stall (placed false)) ∧
    gives (exec .selectiveAck { netState [] 0 1 with args := { p := 0, n := 0, list := [4] } }) (fun t => t.nets == []) = true ∧
    exec .retransmitTimeout { netState [] 0 2 with args := { n := 11, m := 0, p := 1 } } = .next { netState [] 0 2 with args := { n := 11, m := 0, p := 1 } } ∧
    gives (exec .retransmitTimeout (netState [] 0 8)) (fun t => t.netOut.length == 1 && t.timers.length == 9) = true ∧
    (∃ t, exec .retransmitTimeout (netState [] 0 9) = .next t) := by
  and_intros <;> first | decide +kernel | exact ⟨_, rfl⟩ | rfl

/-! ### Preemption, scans and the host -/

/-- Partition 0 sealed with a slice, holding its cores since clk 0 or not, and region 1 in a state. -/
def sliced (holds : Bool) (st : RegionState) (n m : Nat) : State :=
  let p : Partition := { st := .sealed, cores := some [0], slice := 100, holds := holds }
  { inRegion.putPart 0 p with regions := [{ region1 with state := st }], args := { n := n, m := m } }
/-- Slices, the grace period, a halt and a stop (R326, R331, R339, R340, R435, R437). -/
theorem witness_preemptionSteps :
    let state (s : State) : Option RegionState := (s.region? 1).map fun r => r.state
    Spec.coherent (sliced true .running 0 0) ∧ Memory.wf (sliced true .running 0 0).mem = true ∧
    exec .sliceEnd (sliced false .running 0 0) = .next (sliced false .running 0 0) ∧
    gives (exec .sliceEnd (sliced true .running 0 0)) (fun t => state t == some (.requested 0) && (t.part 0).ending && t.timers.length == 9) = true ∧
    (let s := on (fun c => { c with run := .idle 0 }) (sliced true .waitingCores 0 0)
     ((s.region? 1).map fun r => r.notStarted) = some true ∧ gives (exec .sliceEnd s) (fun t => t.regions.map (fun r => (r.state, r.hold)) == [(.waitingCores, true)]) = true) ∧
    gives (exec .sliceEnd (on (fun c => { c with run := .idle 0 }) (sliced true .running 0 0))) (fun t => t.core.run == .running) = true ∧
    exec .sliceStart { sliced false .running 5 0 with args := { n := 5 } } = stall { sliced false .running 5 0 with args := { n := 5 } } ∧
    (let s := sliced false (.saved true) 0 0
     (s.part 0).sliced = true ∧ rotation s 0 = [0] ∧ (s.part 0).holds = false ∧ gives (exec .sliceStart s) (fun t => (t.part 0).holds && t.timers.length == 9 && (t.region? 1).any (fun r => r.resumeDue)) = true) ∧
    exec .stopComplete (sliced true .running 0 0) = stall (sliced true .running 0 0) ∧
    (let p : Partition := { st := .stopping, dump := some (0, [0x1000], 1) }
     let s : State := { (sliced true .running 0 0).putPart 0 p with regions := [] }
     allSaved s 0 = true ∧ inDevice (s.poolPa 0 0) = true ∧ gives (exec .stopComplete s) (fun t => (t.part 0).st == .stopped && t.mem.word 0x1000000 == 0x8000000000000000) = true) ∧
    exec .sliceStart (sliced true (.saved true) 1 1) = stall (sliced true (.saved true) 1 1) ∧
    exec .graceEnd (sliced true (.requested 5) 1 6) = .next (sliced true (.requested 5) 1 6) ∧
    (let s (r : RunState) (level : BitVec 2) : State := { on (fun c => { c with run := r }) (sliced true .running 1 5) with regions := [{ region1 with state := .requested 5, level := level }] }
     ((s .running 1).region? 1).any (fun r => ((s .running 1).held r).any fun id => ((s .running 1).coreAt id).runsRegion r) = true ∧
     gives (exec .graceEnd (s .running 1)) (fun t => t.todo.map (fun d => (d.instr, d.args.m)) == [(.regionHalt, 0x20)]) = true ∧
     ((s .running 3).region? 1).any (fun r => !barrierReady (s .running 3) r && !atBoundary' (s .running 3) r) = true ∧
     gives (exec .graceEnd (s .running 3)) (fun t => state t == some .saving && t.core.run == .stopped) = true) ∧
    (let e : LaEntry := { id := 0, kind := .load, sp := true, vec := false, pieces := [{ off := 0, at' := 0x40, len := 8 }] }
     let s := sliced true .saving 1 0
     (s.region? 1).any (atRest s) = true ∧ ((s.region? 1).any fun r => ((s.dropWindows r).takeArea 0 (areaMib r) none).2.isNone) = true ∧
     (∃ t, exec .forcedSaveComplete s = .next t) ∧
     (let p : State := s.putPart 0 { s.part 0 with dump := some (0, (List.range 2560).map (0x1000 + ·), 10) }
      ((p.region? 1).any fun r => ((p.dropWindows r).takeArea 0 (areaMib r) none).2.isSome) = true) ∧ ((on (fun c => { c with laq := [e], nextId := 1 }) s).region? 1).any (atRest (on (fun c => { c with laq := [e], nextId := 1 }) s)) = false) ∧
    gives (exec .regionHalt (sliced true .waitingCores 1 0x20)) (fun t => state t == some .complete && (t.region? 1).any (fun r => r.status == 0x20)) = true := by
  and_intros <;> first | decide +kernel | exact fun e h => absurd h List.not_mem_nil | exact ⟨_, rfl⟩ | rfl
/-- Die 7's controller with given fields. -/
def scanning (d : ScanDie) (flag : Bool) (l : List Nat) (m : Nat) : State :=
  { base with scans := base.scans.set 7 d, args := { n := 7, flag := flag, list := l, m := m } }
/-- A slot, its timeout, the swap, the end of a scan, a plan and a report (R349 to R354, R447, R449). -/
theorem witness_scanSteps :
    exec .scanSlot (scanning { stopped := true } false [] 0) = .next (scanning { stopped := true } false [] 0) ∧
    exec .scanSlot (scanning { inScan := some 3 } false [] 0) = stall (scanning { inScan := some 3 } false [] 0) ∧
    (exposed (scanning {} false [] 0) 7).head? = some 0 ∧
    gives (exec .scanSlot (scanning { refused := [5] } false [] 0)) (fun t => (t.scan 7).pick == some (5, 0) && t.timers.length == 10) = true ∧
    exec .scanEnd (scanning {} false [] 0) = stall (scanning {} false [] 0) ∧
    gives (exec .scanEnd (scanning { inScan := some 3 } false [] 0)) (fun t => (t.scan 7).sseq == 1 && (t.scan 7).passed == [3]) = true ∧
    gives (exec .scanEnd (scanning { inScan := some 3 } true [] 0)) (fun t => (t.scan 7).sseq == 1 && (t.scan 7).retired == [3]) = true ∧
    (spares (scanning {} false [] 0) 7 = [128, 129, 130, 131]) ∧
    gives (exec .scanEnd (scanning {} false [131] 0)) (fun t => (t.scan 7).sseq == 0 && (t.scan 7).passed == [131]) = true ∧
    exec .swapTimeout (scanning { pick := some (3, 5) } false [] 6) = .next (scanning { pick := some (3, 5) } false [] 6) ∧
    gives (exec .swapTimeout (scanning { pick := some (3, 5), tried := [3] } false [] 5)) (fun t => (t.scan 7).pick == some (0, 0) && (t.scan 7).refused == [3]) = true ∧
    gives (exec .swapTimeout (scanning { pick := some (3, 5), tried := [3], refused := [3, 6] } false [] 5)) (fun t => (t.scan 7).pick == some (6, 0) && (t.scan 7).refused == [3, 6]) = true ∧
    (let s := scanning { pick := some (3, 0) } false [] 0
     swapReady s (s.coreAt 927) = true ∧
     gives (exec .swap s) (fun t => (t.coreAt 1052).lcore == 3 && (t.coreAt 927).spare && (t.scan 7).inScan == some 3) = true) ∧
    (∃ t, exec .ageingReport (scanning {} false [] 0) = .next t) ∧
    planFree base 65535 = true ∧ gives (exec .clockPlanInstall { base with args := { n := 65535 } }) (fun t => t.plan == 65535) = true ∧
    planFree inScheduled 2 = false ∧ gives (exec .clockPlanInstall { inScheduled with args := { n := 2 } }) (fun t => t.planDue == some 2) = true ∧
    exec .clockPlanInstall { base with args := {} } = stall { base with args := {} } ∧
    gives (exec .clockPlanInstall { base with planDue := some 4, args := {} }) (fun t => t.plan == 4) = true := by
  and_intros <;> first | decide +kernel | exact ⟨_, rfl⟩ | rfl
/-- Interface 2 may read and write 0x4000 to 0x5000; the host asks for a range. -/
def hostState (write : Bool) (addr : Nat) : State :=
  let h : HostAccess := { iface := 2, write := write, addr := addr, bytes := if write then [1, 2] else [], size := 2 }
  { mapped.putTile 4 { inCache := true } with ifaces := [(2, { st := .run, table := [(0x4000, 0x5000, true, true, 0)] })], args := { host := some h, n := 2 } }
/-- Host accesses, snoops, interfaces and the link to the host (R369 to R371). -/
theorem witness_hostSteps :
    let step (s : State) (a : Args) : State := { s with args := a }
    gives (exec .hostMemAccess (hostState false 0x4FFF)) (fun t => t.hostOut.map (fun r => r.error) == [true]) = true ∧
    gives (exec .hostMemAccess (hostState false 0x4FFE)) (fun t => t.hostOut.map (fun r => (r.error, r.bytes)) == [(false, [0, 0])]) = true ∧
    gives (exec .hostMemAccess (hostState true 0x4FFE)) (fun t => t.mem.read 0x4FFE 2 == [1, 2] && t.hostOut.map (fun r => r.error) == [false]) = true ∧
    gives (exec .hostSnoop { base with hostDirty := [(0x8000000000000 / 64, 0)], args := { n := 0x8000000000000 } }) (fun t => t.hostDirty == []) = true ∧
    gives (exec .hostSnoop (step base { n := 0x8000000000000, bytes := [7] })) (fun t => cellGet t.mem.bytes 0x8000000000000 == 7) = true ∧
    gives (exec .tdispMessage (step base { n := 2, tdisp := .configLocked })) (fun t => (t.iface 2).st == .configLocked) = true ∧
    tdispMove .configUnlocked .run = false ∧ exec .tdispMessage (step base { n := 2, tdisp := .run }) = .next (step base { n := 2, tdisp := .run }) ∧
    exec .tdispMessage (step (hostState false 0) { n := 2, flag := true }) = .next (step (hostState false 0) { n := 2, flag := true }) ∧
    gives (exec .tdispMessage (step base { n := 2, flag := true, list := [0x4000, 0x5000, 1, 0, 9] })) (fun t => (t.iface 2).table == [(0x4000, 0x5000, true, false, 9)]) = true ∧
    gives (exec .hostLinkDown (step base {})) (fun t => t.mem.dark && t.todo.length == 1) = true ∧
    gives (exec .hostLinkDown (step { base with mem := { dark := true } } { flag := true })) (fun t => !t.mem.dark) = true ∧
    exec .hostLinkDown (step { base with mem := { dark := true } } {}) = .next (step { base with mem := { dark := true } } {}) := by
  and_intros <;> first | decide +kernel | exact ⟨_, rfl⟩ | rfl
/-- The responder before and after its algorithms are agreed, firmware, resets and the management interface (R438, R444 to R449). -/
theorem witness_responderAndReset :
    let agreed (l : List (Nat × Bool)) : State := { base with spdm := { version := true, capabilities := true, algorithms := true, sessions := l }, args := { n := 2 } }
    base.boot.isUp = true ∧ base.spdm.algorithms = false ∧ (∃ t, exec .getVersion base = .next t) ∧ gives (exec .getCapabilities base) (fun t => t.spdmOut == [.error]) = true ∧
    gives (exec .negotiateAlgorithms { base with spdm := { version := true, capabilities := true }, args := { flag := true } }) (fun t => t.spdm.algorithms) = true ∧
    gives (exec .challenge base) (fun t => t.spdmOut == [.error]) = true ∧ (agreed []).spdm.algorithms = true ∧ (∃ t, exec .getDigests (agreed []) = .next t) ∧
    (∃ t, exec .getCertificate (agreed []) = .next t) ∧ (∃ t, exec .challenge (agreed []) = .next t) ∧ (∃ t, exec .getMeasurements (agreed []) = .next t) ∧
    (∃ t, exec .keyExchange (agreed []) = .next t) ∧ gives (exec .finish (agreed [(2, false)])) (fun t => t.spdm.sessions == [(2, true)]) = true ∧
    gives (exec .finish (agreed [])) (fun t => t.spdmOut == [.error]) = true ∧
    gives (exec .firmwareUpdate { base with args := { n := 3, flag := true } }) (fun t => t.boot.inactive == some ([], 3, true)) = true ∧
    (∃ t, exec .packageReset { base with args := { cause := .watchdog } } = .next t) ∧ (∃ t, exec .thermalTrip base = .next t) ∧
    exec .managementRequest { base with boot := { isUp := false }, args := { n := 2 } } = .next { base with boot := { isUp := false }, args := { n := 2 } } ∧
    gives (exec .managementRequest { base with args := { n := 7 } }) (fun t => t.planAsk && t.limitDue && t.limit == some 0) = true ∧ gives (exec .managementRequest { base with args := { n := 4 } }) (fun t => t.mgmtOut.length == 1) = true ∧
    (∃ t, exec .managementRequest { base with args := {} } = .next t) := by
  and_intros <;> first | decide +kernel | exact ⟨_, rfl⟩ | rfl

/-! ### Decoding, a step and its invariant -/

/-- An instruction of each unit that is well-formed and has a word (R39). -/
theorem witness_decodeEncodeAgree : ∀ i ∈ [Instr.add 5 6 7, .la 5 1 3 true, .vadd 1 2 3 .f32, .mma 2 8 10, .cpy 5 6 .fekeep],
    WellFormed i = true ∧ (encode i).any (fun w => decide (decodeSlot w = .ok (wordRow i))) = true := by decide
/-- Core 0 alone, at a bundle of one ADD at 0x4010 in cached memory. -/
def alone : State := (on (fun c => { c with pc := 0x4010, level := 3 }) { mapped with mem := State.reset.mem.write 0x4010 (bytesOfWord 0x80228C38), timers := [] }).putTile 4 { inCache := true }
/-- Words in their place behind the bundle address, as a test. -/
def inPlace (s : State) (ws : List SlotWord) : Bool :=
  decide (s.core.pc.toNat % 4 = 0) && (s.buckets.all fun b => decide (b.ctx ≠ s.core.asid)) && decide (ws ≠ [] ∧ ws.length ≤ 8) &&
  ((List.range ws.length).all fun j => match ws[j]? with
    | some w => (!w.getLsbD 31 || decide (j + 1 = ws.length)) && decide (s.core.pc.toNat + 4 * j < 2 ^ 57) &&
        (match s.translate (s.core.pc.toNat + 4 * j) false false true with
          | .ok pa => decide (s.mem.read pa 4 = bytesOfWord w) && !s.mem.poisoned pa && (!inDevice pa || (s.tileOf (pa / 4096)).inCache)
          | .error _ => false)
    | none => false) &&
  (decide (8 ≤ ws.length) || (match ws.getLast? with | some w => w.getLsbD 31 | none => false))
/-- What the test finds is what the statements ask. -/
theorem fetches_of (s : State) (ws : List SlotWord) (h : inPlace s ws = true) : Spec.fetches s ws := by
  simp only [inPlace, Bool.and_eq_true, decide_eq_true_eq, List.all_eq_true, Bool.or_eq_true] at h
  obtain ⟨⟨⟨⟨h1, h2⟩, h3⟩, h4⟩, h5⟩ := h
  refine ⟨h1, h2, h3.1, h3.2, fun j w e => ?_, fun l => ?_⟩
  · have k := h4 j (List.mem_range.2 (List.getElem?_eq_some_iff.1 e).1)
    rw [e] at k
    cases t : s.translate (s.core.pc.toNat + 4 * j) false false true with
    | ok pa =>
      simp only [t, Bool.and_eq_true, Bool.or_eq_true, decide_eq_true_eq, Bool.not_eq_true'] at k
      obtain ⟨⟨k1, k2⟩, ⟨k3, k4⟩, k5⟩ := k
      exact ⟨fun b => k1.resolve_left (by simp [b]), pa, k2, rfl, k3, k4, fun b => k5.resolve_left (by simp [b])⟩
    | error x => simp [t] at k
  · have k := h5.resolve_left (by omega)
    split at k
    · rename_i w e; exact ⟨w, e, k⟩
    · cases k
/-- A slot that needs no more ports than there are. -/
def small (u : Use) : Bool :=
  u.unit != .step && decide (u.gr.length ≤ 6) && decide (u.gw.length ≤ 3) && decide (u.vr.length ≤ 6) && decide (u.vw.length ≤ 3)
/-- One slot of a legal size offends no rule (R44). -/
theorem one_slot (u : Use) (h : small u = true) : ¬ Spec.offends [u] true 0 u := by
  simp only [small, Bool.and_eq_true, decide_eq_true_eq, ne_eq, bne_iff_ne] at h
  have no (m : Nat) (v : Use) : m ≠ 0 → [u][m]? = some v → False := by intro a b; cases m <;> simp_all
  obtain ⟨⟨⟨⟨hu, h1⟩, h2⟩, h3⟩, h4⟩ := h
  rintro (⟨m, v, a, _⟩ | a | a | ⟨m, v, a, b, _⟩ | ⟨m, v, a, b, _⟩ | ⟨m, v, a, b, _⟩ | ⟨_, a⟩ | ⟨_, a⟩ | ⟨_, a⟩ | ⟨_, a⟩)
  all_goals first | exact no m v a b | omega | (simp at a; omega) | skip
  · simp at a; cases e : u.unit <;> simp_all
  · cases a
/-- The same with a VMOVI. -/
def aloneV : State := { alone with mem := State.reset.mem.write 0x4010 (bytesOfWord 0xAA0A7FFF) }
/-- The hypotheses of the step's statement for a front slot, and the step itself (R42, R47 to R54). -/
theorem witness_stepRunsTheBundle :
    Spec.holdsAlone alone 0x80228C38 (.add 5 6 7) ∧ (use (.add 5 6 7)).unit.code ≤ 1 ∧ (isTransfer (.add 5 6 7) && alone.core.loops.endsAt alone.core.pc) = false ∧
    Spec.onlyAct alone (.issue 0) ∧ gives (step alone) (fun t => now t 5 == 13 && t.core.pc == 0x4014 && t.core.seq == 1) = true := by
  have h : ¬ Spec.tooHigh alone (.add 5 6 7) ∧ ¬ Spec.noEngine alone (.add 5 6 7) := by
    constructor
    · rintro (h | ⟨n, u, w, h, _⟩)
      · exact h
      · exact nomatch (show none = some n from h)
    · rintro (⟨n, h, _⟩ | h)
      · exact nomatch (show none = some n from h)
      · exact h.elim (fun k => Bool.noConfusion k.1) (fun k => Bool.noConfusion k.1)
  exact ⟨⟨fetches_of _ _ (by decide +kernel), by decide, one_slot (use (.add 5 6 7)) (by decide +kernel), h.1, h.2, by decide +kernel⟩, by decide, by decide +kernel,
    ⟨rfl, rfl, by decide +kernel, by decide +kernel⟩, by decide +kernel⟩
/-- The same for a back slot. -/
theorem witness_stepQueuesTheBundle : decodeSlot 0xAA0A7FFF = .ok (.vmovi 20 0x7FFF) ∧ (use (.vmovi 20 0x7FFF)).unit = .v ∧
    Spec.holdsAlone aloneV 0xAA0A7FFF (.vmovi 20 0x7FFF) := by
  have h : ¬ Spec.tooHigh aloneV (.vmovi 20 0x7FFF) ∧ ¬ Spec.noEngine aloneV (.vmovi 20 0x7FFF) := by
    have e : (aloneV.part aloneV.core.part).engines = none := by decide +kernel
    have r : aloneV.myRegion = none := by decide +kernel
    constructor
    · rintro (h | ⟨n, u, w, h, _⟩)
      · exact h
      · exact nomatch (show none = some n from h)
    · rintro (⟨n, _, ⟨x, h, _⟩ | ⟨x, h, _⟩⟩ | h)
      · rw [e] at h; cases h
      · rw [r] at h; cases h
      · exact h.elim (fun k => Bool.noConfusion k.1) (fun k => Bool.noConfusion k.1)
  exact ⟨by decide, by decide, fetches_of _ _ (by decide +kernel), by decide, one_slot (use (.vmovi 20 0x7FFF)) (by decide +kernel), h.1, h.2, by decide +kernel⟩
/-- The reset state is canonical, and a step from a program's first bundle answers a next state (R42). -/
theorem witness_stepKeepsMemory : Memory.wf State.reset.mem = true ∧ (∀ c ∈ State.reset.allCores, Memory.wf c.spad = true) ∧ State.reset.regions = [] ∧
    Spec.coherent State.reset ∧ gives (step (State.reset.withFetchWord 32 0x80000000)) (fun t => t.core.seq == 1 && Memory.wf t.mem) = true := by
  refine ⟨by decide +kernel, by decide +kernel, rfl, fun e h => absurd h List.not_mem_nil, by decide +kernel⟩
/-- A back slot at the head of each engine's queue, and a step of the package that is the only unit able to act (R47, R48). -/
theorem witness_stepRunsUnits :
    let v : QSlot := { instr := .knot 2 1, bundle := 0x4000, slot := 0, seq := 0 }
    let m : QSlot := { instr := .mzero 2, bundle := 0x4000, slot := 0, seq := 0 }
    let s := on (fun c => { c with run := .idle 0x4000, veq := [[v]] }) { vec with timers := [] }
    let p : State := { on (fun c => { c with run := .halted }) base with timers := [], wakes := [{ core := none, block := 4, words := [(0x802, false)] }] }
    (let e : State := { s with core := (s.core.enter v).under v.ctx }
     ∃ t, exec (rowOf e v.instr) e = .next t ∧ t.core.mark = .ok) ∧
    Spec.onlyAct s (.back 0 0) ∧ gives (step s) (fun t => t.core.veq == [] && t.core.k.get 2 == 2 ^ 256 - 2 ^ 128) = true ∧
    gives (stepM (on (fun c => { c with meq := [m], accPois := 4 }) s)) (fun t => t.core.meq == [] && t.core.accPois == 0) = true ∧
    Spec.onlyAct p (.own { instr := .parkWake }) ∧ gives (step p) (fun t => t.wakes == []) = true := by
  and_intros <;> first | decide +kernel | rfl | exact ⟨_, rfl, rfl⟩
/-- The corners of VABS, VNEG and the special functions on binary32 elements, and powers of two, which are exact (R154, R155). -/
theorem test_specialFunctionCorners :
    absE false .f32 0xBF800000 = 0x3F800000 ∧ absE true .f32 0x3F800000 = 0xBF800000 ∧ absE true .f32 0xFFC12345 = 0x7FC00000 ∧
    absE false .i32 0x80000000 = 0x80000000 ∧
    elemFn 0 .f32 0x00000000 = (0x7F800000, condDZ) ∧ elemFn 0 .f32 0x80000000 = (0xFF800000, condDZ) ∧
    elemFn 0 .f32 0x40000000 = (0x3F000000, 0) ∧ elemFn 1 .f32 0x00000000 = (0x7F800000, condDZ) ∧
    elemFn 1 .f32 0xBF800000 = (0x7FC00000, condNV) ∧ elemFn 1 .f32 0x40800000 = (0x3F000000, 0) ∧
    elemFn 2 .f32 0xFF800000 = (0, 0) ∧ elemFn 2 .f32 0x40400000 = (0x41000000, 0) ∧
    elemFn 3 .f32 0x00000000 = (0xFF800000, condDZ) ∧ elemFn 3 .f32 0xBF800000 = (0x7FC00000, condNV) ∧
    elemFn 3 .f32 0x41000000 = (0x40400000, 0) ∧ (∀ op, op < 4 → elemFn op .f32 0x7FC00001 = (0x7FC00000, 0)) := by decide

/-! ### Further hypotheses of the statements -/

/-- A trap at level 3 with two levels set up, level 2 the later (R87, R312, R313, R318). -/
theorem witness_loopShadow :
    let t : Trap := { code := 0x00C, tpc := 0x4000, tnpc := 0x4004 }
    let s := on (fun c => { c with loops := { c.loops with lc := #v[3, 0, 4, 0], order := [2, 0] } }) handled
    Spec.takes s.core (Spec.firstLevel s.core t) ∧ Spec.firstLevel s.core t ≤ 2 ∧ s.core.loops.order.Nodup ∧
    (∀ n : LoopLevel, n ∈ s.core.loops.order ↔ s.core.loops.lc.get ⟨n.toNat, n.isLt⟩ ≠ 0) ∧ s.core.drained = true ∧ s.core.held = [] ∧
    gives (exec .rft (enterTrap t s)) (fun u => u.core.loops == s.core.loops && u.core.level == 3) = true := by
  unfold Spec.takes; and_intros <;> decide +kernel
/-- A ring of two places whose writer stands at the second, for both writers, with the next record free and with one that is not (R319, R320). -/
theorem witness_faultRecords :
    let ring (at' : Word) : FaultRing := { reg := at' + 1, pos := 1 }
    let s : State := (({ mapped with asids := [(0, { frqs := ring 0x9000, ctx := [0, 0, 7, 0x4000000000, 0, 0, 0] })] } : State).putPart 0
      { frqh := ring 0x8000 }).putTile 8 { inCache := true }
    let t : Trap := { code := 0x14A, tval := 5 }
    Spec.ringPlace (s.part 0).frqh = 0x8040 ∧ inHole 0x8040 = false ∧ s.vatTiles 0 0 0x9040 = [] ∧ s.vatPlace 0 0 0x9040 true true = some 0x9040 ∧
    ((s.putTile 9 { inCache := true }).tileOf 9).inCache = true ∧
    (let u := s.recordHv t 3 0
     u.mem.word 0x8040 == 0x14A && u.mem.word 0x8050 == 5 && u.mem.word 0x8068 == 0x30000 && u.mem.word 0x8078 == 0x8000000000000000 && (u.part 0).frqh.pos == 0) = true ∧
    ((s.putTile 9 { inCache := true }).recordSv t 0 0).mem.word 0x9050 = 5 ∧
    (let v : State := { s with mem := s.mem.write 0x8078 (leBytes 8 (2 ^ 63)) }
     (v.mem.word 0x8078).getLsbD 63 = true ∧ (v.recordHv t 3 0).mem = v.mem ∧ ((v.recordHv t 3 0).part 0).frqh.reg = 0x8011) := by
  and_intros <;> decide +kernel
/-- LDC of an empty word and STF of a full one, at the first attempt and at the last (R120). -/
theorem witness_waitingOthers :
    let late (s : State) : State := on (fun c => { c with run := .feWait 0x100 0 }) s
    (∃ s2, Spec.syncPlace 5 0 false true true wordEmpty = some (0x40, s2) ∧ s2.core.spad.fe 0x40 = false ∧ Spec.tries s2 < s2.core.febudget.toNat % 2 ^ 32) ∧
    (∃ s2, Spec.syncPlace 5 0 false true true wordFull = some (0x40, s2) ∧ Spec.reads 6 s2 = some (6, s2) ∧ s2.core.spad.fe 0x40 = true) ∧
    gives (exec (.ldc 4 5 0 false) wordEmpty) (fun t => t.core.run == .feWait 1 64 && t.core.mark == .wait) = true ∧
    gives (exec (.stf 6 5 0 false) wordFull) (fun t => t.core.run == .feWait 1 64 && t.core.mark == .wait) = true ∧
    traps (exec (.ldc 4 5 0 false) (late wordEmpty)) 0x012 0x40 = true ∧ traps (exec (.stf 6 5 0 false) (late wordFull)) 0x012 0x40 = true := by
  and_intros <;> first | decide +kernel | exact ⟨_, rfl, by decide +kernel⟩
/-- Counters that reach zero with a task waiting, and one that is zero already (R187). -/
theorem witness_counters :
    let k : Task := { id := 5, record := 0x6000, region := 1, die := 0, sorus := 0, entry := 0x8000, save := 0, base := 3, cur := 3, st := 4, since := 0, waits := some 5 }
    let s : State := { inRegion.counterTo 0 0 5 1 with tasks := [k, { k with id := 6, waits := some 4 }] }
    k.die = s.core.die ∧ s.pausedTask k = false ∧ counterOperand (setReg 6 0 s) 5 = some (0, 5) ∧
    gives (exec (.dcset 5 6) (setReg 6 0 s)) (fun t => t.tasks.map (fun q => (q.id, q.st, q.waits)) == [(6, 4, some 4), (5, 1, none)]) = true ∧
    gives (exec (.dcdec 5) s) (fun t => t.tasks.map (fun q => (q.id, q.st, q.waits)) == [(6, 4, some 4), (5, 1, none)]) = true ∧
    (inRegion.sorusOf 0 0).counter 5 = 0 ∧ traps (exec (.dcdec 5) inRegion) 0x018 0 = true := by
  and_intros <;> decide +kernel
/-- The port serves the read of SPAWN, which nothing of its core holds back (R118, R233). -/
theorem witness_spawnServed : withRecord.core.clearOf false [{ off := 0, at' := 0x6000, len := 64 }] = true ∧
    withRecord.core.fencesPassed withRecord.core.nextId true = true ∧ (served withRecord [{ off := 0, at' := 0x6000, len := 64 }]).isSome = true ∧
    withRecord.translate 0x6000 false false false = .ok 0x6000 := by decide +kernel
/-- Task 5 of region 1 leaves core 0, whose context maps the lowest memory and has its park table at 0xA000; another task may be ready; RUN is asked for. -/
def leavingTask (how : Nat) (o : Word) (other asked : Bool) : State :=
  let k : Task := { id := 5, record := 0x6000, region := 1, die := 0, sorus := 0, entry := 0x8000, save := 0x7000, base := 3, cur := 3, st := 2, since := 0 }
  let l : Lease := { start := 6, pages := 8, x := true, w := true, r := true, frames := [6, 7, 8, 9, 10, 11, 12, 13], perms := List.replicate 8 (true, true, true) }
  let s := on (fun c => { c with run := .leaving how o, taskid := 5, pkbase := 0xA000 }) inRegion
  { s with
    tasks := [k] ++ if other then [{ k with id := 6, record := 0x6040, st := 1 }] else []
    regions := [{ region1 with leases := [l], state := if asked then .requested 0 else .running }] }
/-- YIELD and PARK that go on and that leave, their record, save area and park link (R185, R188, R334, R342). -/
theorem witness_tasksLeave :
    let word (t : State) (a : Nat) : Word := t.mem.word a
    (leavingTask 1 0 true false).mayLeave = true ∧ ((leavingTask 1 0 true false).myTask (leavingTask 1 0 true false).core).map (fun t => t.id) = some 5 ∧
    gives (exec .yield (leavingTask 1 0 false false)) (fun t => t.core.run == .running) = true ∧
    gives (exec .yield (on (fun c => { c with taskid := 9 }) (leavingTask 1 0 false false))) (fun t => t.core.run == .running) = true ∧
    gives (exec .yield (leavingTask 1 0 true false)) (fun t => t.core.run == .free && t.tasks.map (fun q => (q.id, q.st)) == [(6, 1), (5, 1)] &&
      word t 0x7008 == 0x4000 && word t 0x6020 == 0x500000331) = true ∧
    gives (exec .yield (leavingTask 1 0 false true)) (fun t => t.core.run == .free && t.tasks.map (fun q => q.st) == [1]) = true ∧
    (let o : Word := 2 ^ 63 + 2 ^ 62 + 0x40
     (leavingTask 2 o false false).parkServed o = some (leavingTask 2 o false false) ∧
     gives (exec (.park 8) (leavingTask 2 o false false)) (fun t => t.core.run == .free && t.core.spad.isParked 0x40 && t.tasks.map (fun q => (q.st, q.waitw)) == [(3, o)] &&
       word t 0xA080 == 0x6000 && word t 0xA088 == 0x6000 && word t 0x6018 == o) = true) ∧
    (let o : Word := 0x40 + 2 ^ 63
     gives (exec (.park 8) (leavingTask 2 o false false)) (fun t => t.core.run == .running && t.core.spad.isParked 0x40) = true ∧
     gives (exec (.park 8) (leavingTask 2 o false true)) (fun t => t.core.run == .free && t.tasks.map (fun q => q.st) == [1]) = true) := by
  and_intros <;> decide +kernel
/-- Words of a save area (R334). -/
theorem test_saveLayout : (saveBase base.core 1 0x4000).length = 0x800 ∧ wordOf (saveBase base.core 1 0x4000) (0x140 / 8) = 8 ∧
    wordOf (saveBase base.core 1 0x4000) (0x698 / 8) = 0x100 ∧ wordOf (saveBase base.core 1 0x4000) (0x680 / 8) = 0x40000 := by decide +kernel
/-- The slot that MASPLIT names, at a misaligned address and at one whose second byte is out of range (R124). -/
theorem witness_splitAccesses :
    let s (a : Word) : State := on (fun c => { c with splitNow := some 0 }) (setReg 5 a (setReg 6 8 mapped))
    (s 0x4003).core.splitNow = some (s 0x4003).core.curSlot ∧ Spec.loadRoom false (s 0x4003) ∧
    ((Spec.loadForm (.la 5 0 1 true)).any fun f => (Spec.sources f.1 f.2.1 (s 0x4003)).any fun x =>
      (Spec.placed ((f.2.2.2.1 x.1 x.2.1).flatMap Spec.byteElems) false true false false 1 x.2.2).isSome) = true ∧
    gives (exec (.la 5 0 1 true) (s 0x4003)) (fun t => t.core.laq.map (fun e => e.pieces) == [[{ off := 0, at' := 0x4003, len := 1 }, { off := 1, at' := 0x4004, len := 1 }]]) = true ∧
    gives (exec (.sa 5 0 1 true) (s 0x4003)) (fun t => t.core.laq.map (fun e => e.pieces.length) == [2]) = true ∧
    (Spec.placed ((Spec.one 0x4003 2).flatMap Spec.byteElems) false false true false 1 (s 0x4003)).isSome = true ∧
    gives (exec (.laxIncrement 5 6 1 true) (s 0x4003)) (fun t => now t 5 == 0x400B && t.core.laq.map (fun e => e.pieces.length) == [2]) = true ∧
    gives (exec (.saxIncrement 5 6 1 true) (s 0x4003)) (fun t => now t 5 == 0x400B) = true ∧
    traps (exec (.la 5 0 1 false) (s 0x5FFFF)) 0x00F 0x60000 = true ∧ (s 0x3FFFFFFFFF).translate 0x4000000000 true false false = .error 0x141 ∧
    ((s 0x3FFFFFFFFF).translate 0x3FFFFFFFFF true false false).isOk = true ∧ traps (exec (.la 5 0 1 true) (s 0x3FFFFFFFFF)) 0x141 0x4000000000 = true := by
  unfold Spec.loadRoom; and_intros <;> decide +kernel
/-- An element load of two pieces, a CAS that matches and one that does not, and a prefetch (R99, R111, R113). -/
theorem witness_accessKinds :
    let with' (f : LaEntry → LaEntry) : State := on (fun c => { c with laq := c.laq.map f }) (queued .load false)
    let two (e : LaEntry) : LaEntry := { e with vec := true, pieces := [{ off := 0, at' := 0x4010, len := 4 }, { off := 8, at' := 0x4013, len := 1 }] }
    let cas (x : Word) (e : LaEntry) : LaEntry := { e with kind := .cas, operand := x, swapVal := 5 }
    let line (e : LaEntry) : LaEntry := { e with kind := .fetchLine, pieces := [{ off := 0, at' := 0x4000, len := 128 }] }
    gives (exec .loadDataArrival (on (fun c => { c with vldq := [{ id := 3 }], sldq := [], laq := c.laq.map two, spad := c.spad.write 0x4013 [0x80] }) (queued .load true))) (fun t => t.core.laq == [] &&
      t.core.vldq.map (fun e => e.val) == [some 0x800000000080000000]) = true ∧
    gives (exec .loadDataArrival (with' (cas 0x80000000))) (fun t => t.mem.word 0x4010 == 5 && t.core.sldq.map (fun e => e.val) == [some 0x80000000] && t.core.laq == []) = true ∧
    gives (exec .loadDataArrival (with' (cas 1))) (fun t => t.mem.word 0x4010 == 0x80000000) = true ∧
    gives (exec .loadDataArrival (with' line)) (fun t => t.core.laq == [] && t.core.sldq.length == 1) = true := by
  and_intros <;> decide +kernel
/-- Inputs of the element functions that the bounds and the special cases speak of (R155). -/
theorem witness_elementFunctions :
    decodeVal .f32 0x40000000 = .fin false 0x800000 (-22) ∧ decodeVal .f16 0x4000 = .fin false 0x400 (-9) ∧ decodeVal .b16 0x4000 = .fin false 0x80 (-6) ∧
    decodeVal .f32 0x7FC00000 = .nan ∧ decodeVal .f32 0x80000000 = .fin true 0 (-149) ∧ decodeVal .f32 0xFF800000 = .inf true ∧
    decodeVal .f32 0x3F800000 = .fin false 0x800000 (-23) ∧ (elemFn 3 .f32 0x3F800000).1 = 0 := by decide +kernel

/-! ### Partitions, waits and copies between every two sides -/

/-- KPORT down, switched and circuit, and for a port that serves another sealed partition (R409, R431). -/
theorem witness_kportBindings :
    let out (s : State) (m : Nat) (p : Port → Bool) : Bool := gives (exec (.ptbindKport 5 6) s) fun t => t.core.ptres == 0 && p (t.port 9) && (((t.part 5).kports.lookup 9).map (·.mode)) == some m
    let circuit : List Word := [2 ^ 63 + 2 ^ 32 + 5, 77, 2 ^ 53 + 10]
    let x : Word := 5 + 256 * 10 + 65536 * 9
    let busy (s : State) : State := (s.putPart 6 { st := .sealed, kports := [(9, { mode := 1 })] }).putPort 9 { mode := 1, isUp := true, part := some 6 }
    let wait := busy (ask .opened [] x 1)
    Spec.selects 10 5 6 (ask .opened [] x 0) (ask .opened [] x 0) 5 9 0 ∧ out (ask .opened [] x 0) 0 (fun p => !p.isUp && p.mode == 0) = true ∧
    Spec.selects 10 5 6 (ask .opened circuit x 0x6000) (ask .opened circuit x 0x6000) 5 9 0x6000 ∧
    (let s := (ask .opened circuit x 0x6000).touchTable 0x6000 1
     s.tableWords 0x6000 1 = some [2 ^ 63 + 2 ^ 32 + 5] ∧ (s.touchTable 0x6000 3).tableWords 0x6000 1 = some [2 ^ 63 + 2 ^ 32 + 5] ∧
     (s.touchTable 0x6000 3).tableWords 0x6000 3 = some circuit ∧ (2 ^ 63 + 2 ^ 32 + 5 : Word) &&& 0x7FFFFF8000000000 = 0 ∧ (2 ^ 53 + 10 : Word) &&& 0x1FFFFF00000000 = 0) ∧
    out (ask .opened circuit x 0x6000) 2 (fun p => p.mode == 2 && p.en && p.guard == 5 && p.t0 == 77 && p.slots == [(1, 10)] && p.part == some 5) = true ∧
    Spec.selects 10 5 6 wait wait 5 9 1 ∧ (wait.port 9).part = some 6 ∧ (wait.part 6).st = .sealed ∧
    out wait 1 (fun p => p.part == some 6 && p.isUp) = true := by
  and_intros <;> first | exact selects_of _ _ _ _ _ _ rfl rfl (by decide +kernel) | decide +kernel
/-- Freeing a partition gives back a binding, a port and a routing entry of its own, and none of another's (R434). -/
theorem witness_freePart :
    let s : State := { (setReg 5 0x205 (complete .stopped)) with routes := [(0x46F, 1, 5), (0x470, 2, 6)] }
    let s := (s.putPart 5 { (complete .stopped).part 5 with kports := [(9, { mode := 1 })], s2gen := 4 }).putPort 9 { mode := 1, isUp := true, part := some 5 }
    Spec.seals 2 5 s s 5 ∧ (s.part 5).st = .stopped ∧ (∀ x ∈ (s.part 5).kports, (s.port x.1).part = some 5) ∧ s.routes.map (fun e => e.2.2) = [5, 6] ∧
    gives (exec (.ptsealFree 5) s) (fun t => t.part 5 == { s2gen := 4 } && t.routes == [(0x470, 2, 6)] && t.port 9 == {}) = true := by
  and_intros <;> first | exact seals_of _ _ _ _ rfl rfl (by decide +kernel) | decide +kernel
/-- BARWT that begins to wait, for a phase and behind a queued BARINIT, and one that waits on (R285). -/
theorem witness_barrierWaits :
    let q : QSlot := { instr := .barinit 5 6, bundle := 0x4000, slot := 0, seq := 0, gsrc := [(5, 0x100), (6, 4)] }
    let behind := on (fun c => { c with ceq := [[q]] }) (ops 0x100 1)
    let on' := on (fun c => { c with run := .barwt }) (ops 0x100 0)
    (Spec.readsAll [5, 6] (ops 0x100 0)).isSome = true ∧ ((ops 0x100 0).core.spad.word 0x100).getLsbD 63 = (0 : Word).getLsbD 0 ∧ (ops 0x100 0).core.run ≠ .barwt ∧
    gives (exec (.barwt 5 6) (ops 0x100 0)) (fun t => t.core.run == .barwt && t.core.mark == .wait) = true ∧
    behind.core.ceq.flatten.any isBarSlot = true ∧ gives (exec (.barwt 5 6) behind) (fun t => t.core.run == .barwt && t.core.mark == .wait) = true ∧
    on'.core.run = .barwt ∧ gives (exec (.barwt 5 6) on') (fun t => t.core.run == .barwt && t.core.mark == .stall) = true := by
  and_intros <;> decide +kernel
/-- The engine with one active command of a kind and a mode, of given descriptor words. -/
def moving (kind : CopyKind) (m : FeMode) (ws : List Word) (cursor : Nat) : State :=
  let s := on (fun d => { d with heapbase := 7, heaplim := 0x4000000000 }) (copying ws)
  let c : CopyCmd := { id := 4, kind := kind, mode := m, desc := ws, target := 0x101, descAddr := 0x2000, region := some 1, cursor := cursor, entries := [(0x77, true)]
                       ctx := [s.core.pkbase, s.core.sgbase, s.core.heapbase, s.core.heaplim, s.core.heapoff, s.core.ptroot, s.core.pfqbase] }
  let s : State := { (s.putTile 4 { inCache := true }).putTile 5 { inCache := true } with mem := (s.mem.write 0x4100 [9, 8, 7, 6, 5, 4, 3, 2]).setFe 0x4100 true, args := { n := 4 } }
  on (fun d => { d with copies := [c], spad := (d.spad.write 0x400 [1, 2, 3]).write 0x100 [200] }) s
/-- What a chunk takes with it: words, their bits, poisoned sectors, bytes and counts. -/
def chunkOf (s : State) : List (List (Nat × Word × Option Bool) × List Nat × Nat × Nat) :=
  match exec .copyChunk s with
  | .next t => t.flights.map fun f => (f.words.map fun w => (w.no, w.val, w.bit), f.bad, f.bytes, f.counts.length)
  | _ => []
/-- Chunks between every two sides, with every full/empty mode (R267, R273, R278, R279). -/
theorem witness_chunksLeave :
    let spad := moving .cpy .fefull [0x400, 0x8FC, 12, 0] 0
    let glob := moving .cpy .fesrc [2 ^ 63 + 0x4100, 2 ^ 63 + 0x5000, 8, 0] 0
    let ring : Ring := { isSet := true, base := 0x400, esize := 32, count := 2, bars := 0x180, prod := 1, rsv := 1 }
    let entry := on (fun d => { d with rings := d.rings.set 3 ring }) (moving .cpyn .feempty [0, 0x800, 3 * 2 ^ 32 + 2 ^ 36 + 2 ^ 37 + 32, 0, 0, 1] 0)
    let queue := moving .cpyq .fefull [0, 0x800, 2 ^ 37 + 8, 0x101, 0, 1] 0
    (∀ s ∈ [spad, glob, entry, queue], s.args.flag = false ∧ s.core.wins = [] ∧ s.buckets = [] ∧ (s.core.copies.map fun c => (c.id, c.cnv, c.doom)) = [(4, false, none)] ∧
      (s.core.copies.map fun c => (c.dre, decide (0 < c.iters), decide (0 < c.len))) = [(false, true, true)]) ∧
    (spad.core.copies.map fun c => (c.srcGlobal, c.dstGlobal)) = [(false, false)] ∧ (glob.core.copies.map fun c => (c.srcGlobal, c.dstGlobal)) = [(true, true)] ∧
    (entry.core.copies.map fun c => (c.sre, c.sring, c.ringS)) = [(true, 3, none)] ∧ (entry.core.ring 3).cons < (entry.core.ring 3).prod ∧
    spad.core.storesDone 0 true [{ off := 0, at' := 0x400, len := 4 }] = true ∧ spad.core.granuleBusy [{ off := 0, at' := 0x8FC, len := 4 }] = false ∧
    (glob.core.copies.all fun c => decide (reach (glob.asCopy c) true false c.carries (pages 2 0x4100 8) = .ok [{ off := 0, at' := 0x4100, len := 8 }]) &&
      decide (reach (glob.asCopy c) false true (!c.keeps) [(0x5000, 8)] = .ok [{ off := 0, at' := 0x5000, len := 8 }])) = true ∧
    glob.unmade [{ off := 0, at' := 0x5000, len := 8 }] = false ∧ (glob.tileOf 4).inCache = true ∧ (glob.tileOf 5).inCache = true ∧
    chunkOf spad = [([(0x11F, 0x0003020100000000, none)], [], 4, 1)] ∧
    chunkOf { spad with core := { spad.core with copies := spad.core.copies.map fun c => { c with cursor := 4, counted := 4 } } } = [([(0x120, 0, some true)], [], 8, 1)] ∧
    chunkOf glob = [([(0xA00, 0x0203040506070809, some true)], [], 0, 0)] ∧
    chunkOf entry = [([(0x100, 0x030201, some false), (0x101, 0, some false), (0x102, 0, some false), (0x103, 0, some false)], [], 32, 1)] ∧
    chunkOf queue = [([(0x100, 0x77, some true)], [0x40], 8, 1)] := by
  and_intros <;> decide +kernel
/-- Two conversions of packed elements, to a narrower integer and to elements of four bits, each from 3.0 and -200.0 (R133, R139, R271). -/
theorem witness_chunksConvert :
    let s (code : BitVec 64) : State := on (fun d => { d with bf := d.bf.set 4 code, spad := d.spad.write 0x400 (leBytes 4 0x40400000 ++ leBytes 4 0xC3480000) })
      (moving .cpy .fekeep [0x400, 0x1000, 2 ^ 45 + 8, 0] 0)
    ((s 0x04).core.copies.map fun c => (c.cnv, c.srcGlobal, c.dstGlobal)) = [(true, false, false)] ∧ fmtOf 0x08 = some .f32 ∧ fmtOf 0x04 = some (.int true 8) ∧ fmtOf 0x14 = some (.int true 4) ∧
    ((s 0x04).core.bankOf 0x400).toNat = 0x08 ∧ ((s 0x04).core.bankOf 0x1000).toNat = 0x04 ∧ (s 0x04).core.granuleBusy [{ off := 0, at' := 0x1000, len := 2 }] = false ∧
    (s 0x04).core.storesDone 0 true [{ off := 0, at' := 0x400, len := 8 }] = true ∧
    chunkOf (s 0x04) = [([(0x200, 0x8003, none)], [], 2, 1)] ∧ chunkOf (s 0x14) = [([(0x200, 0x83, none)], [], 1, 1)] := by
  and_intros <;> decide +kernel
/-- A chunk of a command whose earlier chunk is still on its way keeps a word (R267). -/
theorem witness_flightsInOrder :
    let s : State := { active with flights := [{ flying with no := 8 }, flying], args := { n := 9, flag := true } }
    s.ahead flying ≠ [] ∧ flying.words ≠ [] ∧ gives (exec .copyChunk s) (fun t => t.flights.map (fun f => (f.no, f.words.length)) == [(8, 1), (9, 1)]) = true := by decide +kernel
/-- WQCFG moves a queue to another partition, from the active and from the pending list (R376). -/
theorem witness_queueMoves :
    let off (act : Bool) : State :=
      let s := queue9 0 0 act
      { s with wqs := [(9, { cfg := 0, head := 0, tail := 0 })], pendingQ := if act then [] else [9], args := { n := 64 * 9 + 8, w := 2 ^ 63 + 3 } }
    ((off true).queue 9).cfg.getLsbD 63 = false ∧ ({ cfg := (2 ^ 63 + 3 : Word) } : WorkQueue).part ≠ ((off true).queue 9).part ∧
    gives (exec .wqcfg (off true)) (fun t => (t.queue 9).cfg == 2 ^ 63 + 3 && t.active == []) = true ∧
    gives (exec .wqcfg (off false)) (fun t => (t.queue 9).cfg == 2 ^ 63 + 3 && t.pendingQ == []) = true := by decide +kernel
/-- The window of two tiles, tile 0 in a local state here and owned by participant 10, core 1, which declares it as well. -/
def owned (t : DirTile) (here there : TileState) (who : Nat) (keep : Bool) : State :=
  let w : DirWin := { wid := 7, image := 0x6000, frames := [6], tl := 7, nt := 2, parts := [(9, 0, true), (10, 1, true)], tiles := [t, {}] }
  let d (who : Nat) (l : TileState) : WinDecl := { slot := 2, wid := 7, who := who, lbase := 0x80, nt := 2, tl := 7, write := true, image := 0x6000, tiles := [l, .i] }
  let c := { Core.atReset 1 with wins := [d 10 there], spad := ({} : Store).write 0x80 [5, 6] }
  let s := (on (fun c => { c with wins := [d 9 here], spad := ({} : Store).write 0x80 [1, 2] }) mapped).putTile 6 { inCache := true }
  { s with others := [(1, c)], dir := [w], args := { n := 7, m := 0, p := who, flag := keep } }
/-- GetM, an answer that gives an owned tile up, fills from an owner, an upgrade, and drops of S, E, M and O (R384). -/
theorem witness_windowOwners :
    let st (s : State) : Option (DirState × Nat × List Nat) := (s.win? 7).map fun w => ((w.tile 0).st, (w.tile 0).owner, (w.tile 0).sharers)
    let here (s : State) : List (List TileState) := s.core.wins.map fun d => d.tiles
    let there (s : State) : List (List TileState) := (s.coreAt 1).wins.map fun d => d.tiles
    (owned {} .i .i 9 false).others.map (fun e => (e.1, e.2.id)) = [(1, 1)] ∧ Memory.wf (owned {} .i .i 9 false).core.spad = true ∧
    ((owned {} .i .i 9 false).win? 7).map (fun w => (w.coreOf 9, w.coreOf 10, w.place 0)) = some (0, 1, 0x6000) ∧ inDevice 0x6000 = true ∧
    gives (exec .getm (owned { st := .m, owner := 10 } .i .m 9 false)) (fun t => (t.win? 7).map (fun w => ((w.tile 0).busy, (w.tile 0).waits)) == some (some (9, 1), [10]) && t.todo.length == 1) = true ∧
    (let s (flag : Bool) := owned { st := .e, owner := 9, busy := some (10, if flag then 0 else 1), waits := [9] } .m .i 9 flag
     ((s true).win? 7).any (fun w => tileQuiet (s true) w 9 0) = true ∧
     gives (exec .invalidation (s true)) (fun t => st t == some (.m, 9, []) && here t == [[.o, .i]] && t.todo.length == 1) = true ∧
     gives (exec .invalidation (s false)) (fun t => here t == [[.i, .i]]) = true) ∧
    gives (exec .windowFill (owned { st := .m, owner := 10, busy := some (9, 0) } .i .o 9 false)) (fun t => st t == some (.o, 10, [9]) && here t == [[.s, .i]] && t.core.spad.read 0x80 3 == [5, 6, 0]) = true ∧
    gives (exec .windowFill (owned { st := .e, owner := 10, busy := some (9, 1) } .i .i 9 false)) (fun t => st t == some (.m, 9, []) && here t == [[.m, .i]] && t.core.spad.read 0x80 3 == [5, 6, 0]) = true ∧
    gives (exec .windowFill (owned { st := .s, sharers := [9], busy := some (9, 1) } .s .i 9 false)) (fun t => st t == some (.m, 9, []) && here t == [[.m, .i]] && t.core.spad.read 0x80 3 == [1, 2, 0]) = true ∧
    gives (exec .drop (owned { st := .o, owner := 10, sharers := [9] } .s .o 9 false)) (fun t => st t == some (.m, 10, []) && here t == [[.i, .i]] && there t == [[.m, .i]]) = true ∧
    gives (exec .drop (owned { st := .e, owner := 9 } .e .i 9 false)) (fun t => st t == some (.i, 9, []) && t.mem.word 0x6000 == 0) = true ∧
    gives (exec .drop (owned { st := .m, owner := 9 } .m .i 9 false)) (fun t => st t == some (.i, 9, []) && t.mem.word 0x6000 == 0x201) = true ∧
    gives (exec .drop (owned { st := .o, owner := 9, sharers := [10] } .o .s 9 false)) (fun t => st t == some (.s, 9, [10]) && t.mem.word 0x6000 == 0x201) = true := by
  and_intros <;> decide +kernel
/-- A message that replaces an unfinished one of its engine, contributions repeated, late, merged and refused, and an answer to a dead command (R401, R407, R408). -/
theorem witness_linkOthers :
    let one := frameIn .message false 0 [1]
    let red (addr cnt : Nat) : State :=
      let s := frameIn .red true addr [0, 0, 0x80, 0x3F]
      s.putPart 0 { s.part 0 with rwins := [(4, 0x6000, cnt, 0x08, 1)] }
    let kept (b : RedBlock) (s : State) : State := { s with reds := [b] }
    let b : RedBlock := { part := 0, win := 4, round := 0, block := 0, srcs := [{ src := (2, 5, 7), n := 1, parts := [0x6000], left := 0 }] }
    let dead (code acked : Nat) : State :=
      let a : FabAck := { dst := 0, cmd := 8, off := 0, len := 32, code := code, data := [], tinfo := 0, addr := 0 }
      { linked (descOf .cpy) with links := [{ sentLink with dead := true, acked := acked }], args := { ack := some a, n := 8 } }
    (one.args.req.any fun q => gives (exec .messageArrival (on (fun c => { c with msgs := [{ q with cmd := 9 }] }) one)) fun t => t.core.msgs == [q]) = true ∧
    (let s := kept b (red 0x6000 2)
     s.args.req.any (fun q => decide (blockOf s 0 q 0 = b)) = true ∧ gives (exec .reductionDelivery s) (fun t => t.ackOut == [] && t.reds == [b]) = true) ∧
    (let s := kept { b with srcs := [{ src := (3, 5, 7), n := 1, parts := [0x6000], left := 0 }] } (red 0x6000 1)
     gives (exec .reductionDelivery s) (fun t => t.ackOut.map (fun a => a.code) == [1]) = true) ∧
    gives (exec .reductionDelivery (red 0x6000 2)) (fun t => t.ackOut == [] && t.flights == [] && t.reds.map (fun b => b.srcs.map fun z => z.left) == [[0]]) = true ∧
    (let s := (red 0x6000 1).putPart 0 { (red 0x6000 1).part 0 with faper := [] }
     gives (exec .reductionDelivery s) (fun t => t.ackOut.map (fun a => a.code) == [3] && t.flights == []) = true) ∧
    gives (exec .acknowledgement (dead 1 0)) (fun t => t.links.map (fun l => l.acked) == [32]) = true ∧
    gives (exec .acknowledgement (dead 3 32)) (fun t => t.links == []) = true := by
  and_intros <;> decide +kernel
/-- An atomic that goes out again by its port, by another one, by none, and by a circuit port inside and outside its slot (R401, R406, R410). -/
theorem witness_resendRoutes :
    let s (ps : List (Nat × Port)) : State := { linked (descOf .cpy) with links := [{ sentLink with op := .atomic, len := 8 }], ports := ps, podSync := true, podtime := 5, args := { n := 8 } }
    let port : Port := { mode := 1, isUp := true, part := some 0 }
    let circuit : Port := { port with mode := 2, en := true, slots := [(1, 1000)], openSlot := some 0 }
    let sent (ps : List (Nat × Port)) : Option (List Nat) := match exec .atomicResend (s ps) with
      | .next t => if t.core.mark == .stall then none else some (t.fabOut.map fun q => q.port)
      | _ => none
    ((s [(3, port)]).port 3).leads 1 = true ∧ sent [(3, port)] = some [3] ∧
    otherPort (s [(3, { port with isUp := false }), (4, port)]) 3 1 = some 4 ∧ sent [(3, { port with isUp := false }), (4, port)] = some [4] ∧ sent [] = some [] ∧
    (s [(3, circuit)]).podGood = true ∧ sent [(3, circuit)] = some [3] ∧ sent [(3, { circuit with openSlot := none })] = none := by
  and_intros <;> decide +kernel
/-- A packet of no peer entry and one of a refused request, a missing packet, a training port, and pod time at a circuit port (R399, R402, R415, R420, R423). -/
theorem witness_packetOthers :
    let known (b : Bool) : State := let s := netState [] 0x5000 1; s.putPart 0 { s.part 0 with peers := if b then some [(1, 1, 1)] else none }
    let refused : State := { netState [] 0x5000 1 with peerRx := [{ part := 0, peer := 0, refused := [1] }] }
    let missing : State := { netState [] 0 2 with args := { p := 0, n := 0, list := [7] } }
    let circuit (t : Nat) (en : Bool) : State :=
      { base with ports := [(95, { mode := 2, isUp := true, en := en, t0 := 100, slots := [(1, 10)] })], podSync := true, podtime := t, timers := [], args := { n := 95, m := 1 } }
    ((known true).args.pkt.any fun k => k.known (known true)) = true ∧ ((known false).args.pkt.any fun k => k.known (known false)) = false ∧
    exec .packetPlacement (known false) = .next (known false) ∧
    gives (exec .packetPlacement refused) (fun t => t.sackOut.map (fun k => k.refused) == [[1]] && t.flights == []) = true ∧
    gives (exec .selectiveAck missing) (fun t => t.netOut.map (fun k => (k.seq, k.station)) == [(4, 1)]) = true ∧
    gives (exec .linkTraining { base with ports := [(95, { mode := 1 })], args := { n := 95, list := [2049] } }) (fun t => (t.port 95).isUp && t.inPod && t.pkg == 1) = true ∧
    gives (exec .linkTraining { base with args := { n := 95 } }) (fun t => t.ports == []) = true ∧
    (circuit 5 true).podGood = true ∧ slotAt ((circuit 5 true).port 95) 5 = none ∧ gives (exec .timeMessage (circuit 5 true)) (fun t => t.timeOut == [(95, 5)]) = true ∧
    (slotAt ((circuit 105 true).port 95) 105).isSome = true ∧ exec .timeMessage (circuit 105 true) = stall (circuit 105 true) ∧
    exec .timeMessage (circuit 5 false) = stall (circuit 5 false) := by
  and_intros <;> first | decide +kernel | rfl
/-- Partitions 0 and 1, sealed with slices on the same core; partition 0 holds it, at the end of its slice or not, with region 1 in a state. -/
def handing (ending : Bool) (st : RegionState) : State :=
  let p : Partition := { st := .sealed, cores := some [0], slice := 100 }
  let s := (sliced true st 1 0).putPart 1 { p with sealNo := 1 }
  { s.putPart 0 { p with holds := true, ending := ending } with args := { n := 1 } }
/-- A slice that must wait, for the end of the other's or for its saves, one that takes over, one of an unsealed partition, and a due region (R435 to R437). -/
theorem witness_sliceHandover :
    rotation (handing true (.saved true)) 1 ≠ [] ∧ ((rotation (handing true (.saved true)) 1).find? fun m => ((handing true (.saved true)).part m).holds) = some 0 ∧
    nextIn (rotation (handing true (.saved true)) 1) 0 = some 1 ∧ allSaved (handing true (.saved true)) 0 = true ∧ allSaved (handing true .saving) 0 = false ∧
    gives (exec .sliceStart (handing true (.saved true))) (fun t => (t.part 1).holds && !(t.part 0).holds) = true ∧
    exec .sliceStart (handing false (.saved true)) = stall (handing false (.saved true)) ∧ exec .sliceStart (handing true .saving) = stall (handing true .saving) ∧
    (let s := (sliced false .running 0 0).putPart 0 { st := .opened, slice := 100 }
     exec .sliceStart s = stall s) ∧
    (let s : State := { on (fun c => { c with run := .free, region := none }) (sliced true (.saved false) 1 1) with regions := [{ region1 with state := .saved false, resumeDue := true }] }
     (s.region? 1).any (fun r => s.partRuns r.part && coresFree s r && !(r.budget.any fun id => s.picked (s.coreAt id))) = true ∧ (∃ t, exec .sliceStart s = .next t)) := by
  and_intros <;> first | decide +kernel | rfl | exact ⟨_, rfl⟩
/-- A pick asks the region that holds the core; a controller and a plan wait; a limit raises its interrupt (R350, R354, R447 to R449). -/
theorem witness_scanOthers :
    let held : State := { on (fun c => { c with die := 0, run := .idle 0 }) inRegion with regions := [{ region1 with scheduled := true }], args := { n := 0 } }
    let down : State := { scanning {} false [] 0 with boot := { isUp := false } }
    ((((held.scan 0).refused ++ exposed held 0).eraseDups).head? = some 0 ∧ (held.coreAt 0).region = some 1 ∧ (held.region? 1).any (fun r => r.live && decide (held.tree r.root = [r])) = true ∧
      gives (exec .scanSlot held) (fun t => (t.region? 1).map (fun r => r.scanReq) == some [0] && t.core.run == .running) = true) ∧
    exec .scanSlot down = .next down ∧ exec .clockPlanInstall down = .next down ∧
    (held.allCores.any fun c => decide (c.die = 0) && c.region.isSome) = true ∧ exec .ageingReport held = stall held ∧
    gives (exec .ageingReport { base with args := { n := 7, margin := 9 } }) (fun t => t.planAsk) = true ∧
    (let s : State := { inScheduled with planDue := some 4, args := {} }
     planFree s 4 = false ∧ exec .clockPlanInstall s = stall s) ∧
    gives (exec .clockPlanInstall { base with limitDue := true, args := { n := 7 } }) (fun t => t.plan == 7 && !t.limitDue && t.todo.map (fun d => d.args.n) == [0x470]) = true := by
  and_intros <;> first | decide +kernel | rfl
/-- A reset with no image, a good one, one of an old version and an unsigned one; a package in step 1; the fixed answers (R444 to R449). -/
theorem witness_boots :
    let bank (version : Nat) (good : Bool) : State := { base with boot := { fuse := 2, inactive := some ([7], version, good) }, args := { cause := .watchdog } }
    let down (i : Args) : State := { base with boot := { isUp := false, version := 5 }, args := i }
    gives (exec .packageReset { base with args := { cause := .watchdog } }) (fun t => t.boot.cause == .watchdog && t.boot.isUp && t.boot.resets == 1 && t.todo == []) = true ∧
    gives (exec .packageReset (bank 3 true)) (fun t => t.boot.isUp && t.boot.version == 3 && t.boot.fuse == 3 && t.todo.map (fun d => d.args.n) == [0x470]) = true ∧
    gives (exec .packageReset (bank 1 true)) (fun t => !t.boot.isUp && t.boot.fuse == 2 && t.mem.dark && t.timers == []) = true ∧
    gives (exec .thermalTrip (bank 2 false)) (fun t => !t.boot.isUp && t.boot.cause == .thermalTrip) = true ∧
    gives (exec .hostMemAccess (down { host := some { iface := 2, write := false, addr := 0, bytes := [], size := 2 } })) (fun t => t.hostOut == []) = true ∧
    exec .tdispMessage (down { n := 2, tdisp := .configLocked }) = .next (down { n := 2, tdisp := .configLocked }) ∧
    gives (exec .managementRequest (down {})) (fun t => t.mgmtOut == [.identity 0 5]) = true ∧
    gives (exec .managementRequest (down { n := 1 })) (fun t => t.mgmtOut == [.status false]) = true ∧
    gives (exec .managementRequest { base with args := { n := 6 } }) (fun t => t.mgmtOut == [.resetCause .powerOn]) = true := by
  and_intros <;> first | decide +kernel | rfl
/-- Core 0 at level 3, with handlers, at a bundle of given words at 0x4010. -/
def bundleAt (ws : List SlotWord) : State :=
  on (fun c => { c with banks := handled.core.banks }) { alone with mem := State.reset.mem.write 0x4010 (ws.flatMap bytesOfWord) }
/-- The record of the bundle's trap at issue: cause, TVAL, TVAL2, TMASK and TPC. -/
def checked (s : State) : Option (Nat × Word × Word × Word × Word) := match issue s with
  | .next t => (t.core.banks.toList.find? fun b => b.tcause != 0).map fun b => (b.tcause.toNat % 512, b.tval, b.tval2, b.tmask, b.tpc)
  | _ => none
/-- A reserved encoding; the worked example of R46, a duplicate destination and an order; a level and a register's level; an engine (R44, R46, R70, R71, R90). -/
theorem witness_bundleChecks :
    let five : List SlotWord := [0x04038C01, 0x147F8E2B, 0x2A020001, 0x117F8A00, 0xC1A00A30]
    let away := (bundleAt [0xB0011050]).putPart 0 { engines := some 1 }
    (∀ ws ∈ [[0x0FE00000, 0x80000000], five, [0x88A00000], [0x88028041]], inPlace (bundleAt ws) ws = true) ∧ inPlace away [0xB0011050] = true ∧
    checked (bundleAt [0x0FE00000, 0x80000000]) = some (0x001, 0x0FE00000, 2, 1, 0x4010) ∧ checked (bundleAt five) = some (0x002, 0x04038C01, 5, 0x0B, 0x4010) ∧
    checked (bundleAt [0x88A00000]) = some (0x003, 0, 0, 1, 0x4010) ∧ checked (bundleAt [0x88028041]) = some (0x003, 0x041, 0, 1, 0x4010) ∧
    checked away = some (0x004, 0, 0, 1, 0x4010) := by
  and_intros <;> decide +kernel

end Sys2Proof.Tests
end

section
/-!
SUPPORT. The scalar compute slots (R73 to R79): each reads its sources in order, computes and writes its destination, and the
value that it computes is the one of its rule.
-/

namespace Sys2Proof.Laws.Scalar

open Sys2Proof Sys2Proof.Machine

/-! ### Reading in order, and writing (R21, R25, R51, R57) -/

/-- Read g sources in order in a front slot. -/
def getAll : List GReg → State → (List Word → State → Outcome) → Outcome
  | [], s, k => k [] s
  | r :: rs, s, k => getG r s fun w s => getAll rs s fun ws s => k (w :: ws) s

/-- A front slot that reads its sources, computes and writes its destination. -/
def compute (d : GReg) (srcs : List GReg) (f : List Word → Word) (s : State) : Outcome :=
  getAll srcs s fun ws s => setG d (f ws) s

/-- A source that can be read now hands its word on. -/
theorem getG_of_reads {r : GReg} {s s' : State} {w : Word} (h : Spec.reads r s = some (w, s')) (k : Word → State → Outcome) :
    getG r s k = k w s' := by
  unfold Spec.reads at h
  split at h
  · next hr =>
    subst hr
    split at h
    · cases h
    · next e rest hq =>
      split at h
      · cases h
      · next x hv =>
        split at h
        · cases h
        · next hfree =>
          cases h
          obtain ⟨hb, hp⟩ := not_or.1 hfree
          exact getG_pop hq (not_not.1 hp) hv (Bool.eq_false_of_not_eq_true hb) k
  · next hr => cases h; exact getG_reg hr s k

/-- Sources that can all be read now hand their words on. -/
theorem getAll_of_readsAll {rs : List GReg} {s s' : State} {ws : List Word} (h : Spec.readsAll rs s = some (ws, s'))
    (k : List Word → State → Outcome) : getAll rs s k = k ws s' := by
  induction rs generalizing s ws k with
  | nil => cases h; rfl
  | cons r rs ih =>
    simp only [Spec.readsAll] at h
    split at h
    · cases h
    · next w s1 hw =>
      split at h
      · cases h
      · next ws' s2 hws =>
        cases h
        rw [getAll, getG_of_reads hw, ih hws]

/-- A destination that can be written now is written, and the slot completes. -/
theorem setG_of_writes {d : GReg} {w : Word} {s t : State} (h : Spec.writes d w s = some t) : setG d w s = .next t := by
  unfold Spec.writes at h
  split at h
  · next hd =>
    subst hd
    split at h
    · next hroom => cases h; exact setG_push hroom.1 hroom.2 w
    · cases h
  · next hd =>
    rw [setG_reg hd]
    split at h
    · next hz => cases h; subst hz; rfl
    · next hz => cases h; rw [Core.writeG, if_neg hz]

/-- A compute slot whose sources can be read and whose destination can be written completes with its value. -/
theorem compute_of_reads_writes {d : GReg} {srcs : List GReg} {f : List Word → Word} {s s' t : State} {ws : List Word}
    (hr : Spec.readsAll srcs s = some (ws, s')) (hw : Spec.writes d (f ws) s' = some t) : compute d srcs f s = .next t :=
  (getAll_of_readsAll hr _).trans (setG_of_writes hw)

/-- A form of one source computes any function that agrees with its own. -/
theorem alu1_compute {f g : Word → Word} (h : ∀ x, f x = g x) (d a : GReg) (s : State) :
    alu1 f d a s = compute d [a] (Spec.of1 g) s := by
  rw [funext h]; rfl
/-- A form of two sources computes any function that agrees with its own. -/
theorem alu2_compute {f g : Word → Word → Word} (h : ∀ x y, f x y = g x y) (d a b : GReg) (s : State) :
    alu2 f d a b s = compute d [a, b] (Spec.of2 g) s := by
  rw [funext₂ h]; rfl
/-- A form that reads its destination last computes any function that agrees with its own. -/
theorem alu3_compute {f g : Word → Word → Word → Word} (h : ∀ x y z, f x y z = g x y z) (d a b : GReg) (s : State) :
    alu3 f d a b s = compute d [a, b, d] (Spec.of3 g) s := by
  rw [funext₃ h]; rfl

/-! ### Products, quotients and remainders (R73, R74) -/

/-- The upper half of 128 bits that hold an integer. -/
theorem extractLsb'_ofInt_high (z : Int) : (BitVec.ofInt 128 z).extractLsb' 64 64 = BitVec.ofInt 64 (z / 2 ^ 64) := by
  apply BitVec.eq_of_toNat_eq
  rw [BitVec.extractLsb'_toNat, BitVec.toNat_ofInt, BitVec.toNat_ofInt, Nat.shiftRight_eq_div_pow]
  omega

/-- MULH is the upper half of the product of the sign-extended operands. -/
theorem mulHigh_eq (x y : Word) : mulHigh x y = (x.signExtend 128 * y.signExtend 128).extractLsb' 64 64 := by
  rw [BitVec.signExtend, BitVec.signExtend, ← BitVec.ofInt_mul, extractLsb'_ofInt_high, mulHigh]

/-- MULHW is the upper half of the product of the zero-extended operands. -/
theorem mulHighU_eq (x y : Word) : mulHighU x y = (x.setWidth 128 * y.setWidth 128).extractLsb' 64 64 := by
  rw [← BitVec.ofNat_toNat, ← BitVec.ofNat_toNat, ← BitVec.ofNat_mul, ← BitVec.ofInt_natCast, extractLsb'_ofInt_high, mulHighU,
    ← BitVec.ofInt_natCast]
  rfl

/-- The one quotient out of range, of -2^63 by -1, wraps in both (R74). -/
theorem divS_eq (x y : Word) : divS x y = if y = 0 then BitVec.allOnes 64 else x.sdiv y := by
  have h : BitVec.ofInt 64 (x.toInt.tdiv y.toInt) = x.sdiv y :=
    BitVec.eq_of_toInt_eq (by rw [BitVec.toInt_ofInt, BitVec.toInt_sdiv])
  rw [divS, h]

theorem remS_eq (x y : Word) : remS x y = if y = 0 then x else x.srem y := by
  rw [remS, ← BitVec.toInt_srem, BitVec.ofInt_toInt]

theorem divU_eq (x y : Word) : divU x y = if y = 0 then BitVec.allOnes 64 else x.udiv y := by
  rw [divU, ← BitVec.udiv_def]; rfl

theorem remU_eq (x y : Word) : remU x y = if y = 0 then x else x.umod y := by
  rw [remU, ← BitVec.umod_def]; rfl

/-! ### Minimum and maximum (R73) -/

/-- "At most" and "below" make the same choice, where equal operands leave nothing to choose. -/
theorem ite_le_eq_ite_lt {α β : Type} [LinearOrder α] {a b : α} {u v : β} (h : a = b → u = v) :
    (if a ≤ b then u else v) = if a < b then u else v := by
  rcases lt_trichotomy a b with hlt | heq | hgt
  · rw [if_pos hlt.le, if_pos hlt]
  · rw [h heq, ite_self, ite_self]
  · rw [if_neg hgt.not_ge, if_neg hgt.not_gt]

theorem minS_eq (x y : Word) : minS x y = if x.slt y then x else y := by
  simpa only [minS, BitVec.slt_eq_decide, decide_eq_true_eq] using ite_le_eq_ite_lt BitVec.eq_of_toInt_eq
theorem maxS_eq (x y : Word) : maxS x y = if x.slt y then y else x := by
  simpa only [maxS, BitVec.slt_eq_decide, decide_eq_true_eq] using ite_le_eq_ite_lt fun h => (BitVec.eq_of_toInt_eq h).symm
theorem minU_eq (x y : Word) : minU x y = if x.ult y then x else y := by
  simpa only [minU, BitVec.ult_eq_decide, decide_eq_true_eq] using ite_le_eq_ite_lt BitVec.eq_of_toNat_eq
theorem maxU_eq (x y : Word) : maxU x y = if x.ult y then y else x := by
  simpa only [maxU, BitVec.ult_eq_decide, decide_eq_true_eq] using ite_le_eq_ite_lt fun h => (BitVec.eq_of_toNat_eq h).symm

/-! ### Counting bits and extending (R76) -/

/-- The first set bit of a list lies at its head, or one further than in its tail. -/
theorem firstSet_cons (b : Bool) (l : List Bool) : Spec.firstSet (b :: l) = if b then 0 else Spec.firstSet l + 1 := by
  rw [Spec.firstSet, List.findIdx_cons, cond_eq_ite]; rfl

/-- CLZ: the first set bit, from the top of the low n bits down. -/
theorem leadZeros_eq (x : Word) (n : Nat) :
    leadZeros x n = Spec.firstSet ((List.range n).map fun i => x.getLsbD (n - 1 - i)) := by
  induction n with
  | zero => rfl
  | succ n ih =>
    have hshift : (fun i => x.getLsbD (n + 1 - 1 - i)) ∘ Nat.succ = fun i => x.getLsbD (n - 1 - i) := by
      funext i; exact congrArg x.getLsbD (by omega)
    rw [leadZeros, ih, List.range_succ_eq_map, List.map_cons, List.map_map, hshift, firstSet_cons]
    rfl

/-- CTZ: the first set bit, from bit i up. -/
theorem trailZeros_eq (x : Word) (i n : Nat) :
    trailZeros x i n = Spec.firstSet ((List.range n).map fun j => x.getLsbD (i + j)) := by
  induction n generalizing i with
  | zero => rfl
  | succ n ih =>
    have hshift : (fun j => x.getLsbD (i + j)) ∘ Nat.succ = fun j => x.getLsbD (i + 1 + j) := by
      funext j; exact congrArg x.getLsbD (by omega)
    rw [trailZeros, ih, List.range_succ_eq_map, List.map_cons, List.map_map, hshift, firstSet_cons]
    rfl

theorem oneBits_eq {w : Nat} (x : BitVec w) (n : Nat) : oneBits x n = ((List.range n).filter fun i => x.getLsbD i).length := by
  induction n with
  | zero => rfl
  | succ n ih =>
    rw [oneBits, ih, List.range_succ, List.filter_append, List.length_append, Nat.add_comm]
    cases h : x.getLsbD n <;> simp [h]

/-- The low n bits of a word, as a word. -/
theorem and_ofNat_two_pow_sub_one (x : Word) {n : Nat} (h : n ≤ 64) :
    x &&& BitVec.ofNat 64 (2 ^ n - 1) = BitVec.ofNat 64 (x.toNat % 2 ^ n) := by
  apply BitVec.eq_of_toNat_eq
  have hpow : 2 ^ n ≤ 2 ^ 64 := Nat.pow_le_pow_right (by decide) h
  have hpos : 0 < 2 ^ n := Nat.two_pow_pos n
  rw [BitVec.toNat_and, BitVec.toNat_ofNat, BitVec.toNat_ofNat, Nat.mod_eq_of_lt (by omega : 2 ^ n - 1 < 2 ^ 64),
    Nat.and_two_pow_sub_one_eq_mod, Nat.mod_eq_of_lt (b := 2 ^ 64) ((Nat.mod_lt _ hpos).trans_le hpow)]

/-- Narrowing a word and widening it back keeps its low bits. -/
theorem setWidth_setWidth_eq_and (x : Word) {n : Nat} (h : n ≤ 64) :
    (x.setWidth n).setWidth 64 = x &&& BitVec.ofNat 64 (2 ^ n - 1) := by
  rw [and_ofNat_two_pow_sub_one x h, ← BitVec.ofNat_toNat, BitVec.toNat_setWidth]

/-! ### Bit fields (R77) -/

theorem fieldPos_eq (y : Word) : fieldPos y = y.toNat % 64 := by
  rw [fieldPos, fld, Nat.pow_zero, Nat.div_one]; rfl

theorem fieldWidth_eq (y : Word) : fieldWidth y = min (y.toNat / 256 % 128) (64 - y.toNat % 64) := by
  rw [fieldWidth, fieldPos_eq]; rfl

theorem fieldExtract_eq (x y : Word) (signed : Bool) : fieldExtract x y signed = Spec.bfx x y signed := by
  simp only [fieldExtract, Spec.bfx, fieldPos_eq, fieldWidth_eq, BitVec.toNat_ushiftRight, Nat.shiftRight_eq_div_pow,
    Bool.and_eq_true, decide_eq_true_eq]

/-- A word moved up by p places is its multiple by 2 ^ p. -/
theorem ofNat_mul_two_pow (n p : Nat) : BitVec.ofNat 64 (n * 2 ^ p) = BitVec.ofNat 64 n <<< p := by
  apply BitVec.eq_of_toNat_eq
  rw [BitVec.toNat_shiftLeft, BitVec.toNat_ofNat, BitVec.toNat_ofNat, Nat.shiftLeft_eq, Nat.mod_mul_mod]

/-- BFI: the inserted bits are the low bits of the source moved up, which are the moved source under the moved mask. -/
theorem fieldInsert_eq (x y z : Word) : fieldInsert z x y = Spec.bfi x y z := by
  have hw : min (y.toNat / 256 % 128) (64 - y.toNat % 64) ≤ 64 := by omega
  simp only [fieldInsert, Spec.bfi, fieldPos_eq, fieldWidth_eq, ofNat_mul_two_pow, ← BitVec.shiftLeft_and_distrib,
    and_ofNat_two_pow_sub_one x hw]

/-! ### Selecting and conditions (R69, R78) -/

theorem sel_eq (x y z : Word) : (if z ≠ 0 then x else y) = if z = 0 then y else x := ite_not ..

theorem holds_eq (c : Cond) (x y : Word) : holds c x y = Spec.condition c x y := by
  cases c with
  | eq => exact beq_eq_decide x y
  | ne => simp only [holds, Spec.condition, bne, beq_eq_decide, decide_not, ne_eq]
  | lt => exact BitVec.slt_eq_decide.symm
  | ge => simp [holds, Spec.condition, BitVec.slt_eq_decide, ← decide_not]
  | ltw => exact BitVec.ult_eq_decide.symm
  | gew => simp [holds, Spec.condition, BitVec.ult_eq_decide, ← decide_not]

theorem truth_holds_eq (c : Cond) (x y : Word) : truth (holds c x y) = Spec.flagOf (Spec.condition c x y) := by
  rw [holds_eq]; rfl

/-! ### The forms -/

/-- Every scalar compute slot is a compute slot with the destination, the sources and the value of its rule. -/
theorem exec_eq_compute {i : Instr} {d : GReg} {srcs : List GReg} {f : List Word → Word} (h : Spec.scalarForm i = some (d, srcs, f))
    (s : State) : exec i s = compute d srcs f s := by
  cases i with
  | add | sub | mul | and | or | xor | shl | shr | sha | addi | andi | ori | xori | shli | shri | shai | movi | movhi =>
    cases h; rfl
  | mulh d a b => cases h; exact alu2_compute mulHigh_eq d a b s
  | mulhw d a b => cases h; exact alu2_compute mulHighU_eq d a b s
  | div d a b => cases h; exact alu2_compute divS_eq d a b s
  | divw d a b => cases h; exact alu2_compute divU_eq d a b s
  | rem d a b => cases h; exact alu2_compute remS_eq d a b s
  | remw d a b => cases h; exact alu2_compute remU_eq d a b s
  | min d a b => cases h; exact alu2_compute minS_eq d a b s
  | max d a b => cases h; exact alu2_compute maxS_eq d a b s
  | minw d a b => cases h; exact alu2_compute minU_eq d a b s
  | maxw d a b => cases h; exact alu2_compute maxU_eq d a b s
  | clz d a => cases h; exact alu1_compute (fun x => congrArg word (leadZeros_eq x 64)) d a s
  | ctz d a => cases h; exact alu1_compute (fun x => congrArg word (by simpa using trailZeros_eq x 0 64)) d a s
  | popc d a => cases h; exact alu1_compute (fun x => congrArg word (oneBits_eq x 64)) d a s
  | sext d a w => cases w <;> (cases h; rfl)
  | zext d a w =>
    cases w with
    | w8 => cases h; exact alu1_compute (fun x => setWidth_setWidth_eq_and x (n := 8) (by decide)) d a s
    | w16 => cases h; exact alu1_compute (fun x => setWidth_setWidth_eq_and x (n := 16) (by decide)) d a s
    | w32 => cases h; exact alu1_compute (fun x => setWidth_setWidth_eq_and x (n := 32) (by decide)) d a s
  | bfx d a b signed => cases h; exact alu2_compute (fun x y => fieldExtract_eq x y signed) d a b s
  | bfi d a b => cases h; exact alu3_compute fieldInsert_eq d a b s
  | sel d a b => cases h; exact alu3_compute sel_eq d a b s
  | cmp d a b c => cases h; exact alu2_compute (truth_holds_eq c) d a b s
  | cmpiEq d a imm => cases h; exact alu1_compute (fun x => truth_holds_eq .eq x _) d a s
  | cmpiNe d a imm => cases h; exact alu1_compute (fun x => truth_holds_eq .ne x _) d a s
  | cmpiLt d a imm => cases h; exact alu1_compute (fun x => truth_holds_eq .lt x _) d a s
  | cmpiGe d a imm => cases h; exact alu1_compute (fun x => truth_holds_eq .ge x _) d a s
  | cmpiLtw d a imm => cases h; exact alu1_compute (fun x => truth_holds_eq .ltw x _) d a s
  | cmpiGew d a imm => cases h; exact alu1_compute (fun x => truth_holds_eq .gew x _) d a s
  | _ => cases h

/-- Settles O1: such a slot is a read of its sources and a write of its value, and both can be done now. -/
theorem scalarResults : Obligations.ScalarResults := by
  unfold Obligations.ScalarResults
  intro i d srcs f s s1 t ws hform hreads hwrites
  rw [exec_eq_compute hform, compute_of_reads_writes hreads hwrites]

end Sys2Proof.Laws.Scalar
end

section
/-!
SUPPORT. The vector slots: how they read their sources and write their results (R25, R51, R143, R145), their elements as
integers of a width (R140), and the two-source forms (R147 to R150, R163, R167).
-/

namespace Sys2Proof.Laws.Vector

open Sys2Proof Sys2Proof.Machine

/-! ### Sources (R25, R51, R143) -/

/-- The first of v sources that can all be read now: v63 hands its oldest entry on, which has arrived unpoisoned, any other register
is read where it stands; the others are read after it. -/
theorem vSources_cons {r : VReg} {rs : List VReg} {s t : State} {vs : List VWord} (h : Spec.vSources (r :: rs) s = some (vs, t)) :
    (∃ e q v ws, r = 63 ∧ s.core.vldq = e :: q ∧ e.val = some v ∧ ¬e.poison = true ∧
      Spec.vSources rs { s with core := { s.core with vldq := q } } = some (ws, t) ∧ vs = v :: ws) ∨
    (∃ ws, r ≠ 63 ∧ Spec.vSources rs s = some (ws, t) ∧ vs = s.core.vVal r :: ws) := by
  by_cases hr : r = 63
  · simp only [Spec.vSources, if_pos hr] at h
    split at h
    · cases h
    · next e q hq =>
      split at h
      · cases h
      · next v hv =>
        split at h
        · cases h
        · next hclean =>
          split at h
          · cases h
          · next ws u hws => cases h; exact .inl ⟨e, q, v, ws, hr, hq, hv, hclean, hws, rfl⟩
  · simp only [Spec.vSources, if_neg hr] at h
    split at h
    · cases h
    · next ws u hws => cases h; exact .inr ⟨ws, hr, hws, rfl⟩

/-- Pops of v sources leave every v register as it reads. -/
theorem vVal_of_vSources {rs : List VReg} {s t : State} {vs : List VWord} (h : Spec.vSources rs s = some (vs, t)) (x : VReg) :
    t.core.vVal x = s.core.vVal x := by
  induction rs generalizing s vs with
  | nil => cases h; rfl
  | cons r rs ih =>
    obtain ⟨e, q, v, ws, -, -, -, -, hws, -⟩ | ⟨ws, -, hws, -⟩ := vSources_cons h
    · exact (ih hws).trans rfl
    · exact ih hws

/-- v sources that can all be read now hand their registers on, none of them poisoned. -/
theorem readVs_of_vSources {rs : List VReg} {s t : State} {vs : List VWord} (h : Spec.vSources rs s = some (vs, t))
    (k : List VWord → Option Word → State → Outcome) : readVs rs s k = k vs none t := by
  induction rs generalizing s vs k with
  | nil => cases h; rfl
  | cons r rs ih =>
    obtain ⟨e, q, v, ws, hr, hq, hv, hclean, hws, rfl⟩ | ⟨ws, hr, hws, rfl⟩ := vSources_cons h
    · simp only [readVs, if_pos hr, hq, hv, ih hws, if_neg hclean]
    · simp only [readVs, if_neg hr, ih hws, vVal_of_vSources hws]

/-- The first of g sources that can all be read now: g63 without an issue value hands its oldest entry on, which has arrived
unpoisoned, any other is read where it stands; the others are read after it. -/
theorem gSources_cons {r : GReg} {rs : List GReg} {s t : State} {ws : List Word} (h : Spec.gSources (r :: rs) s = some (ws, t)) :
    (∃ e q w us, (r = 63 ∧ (overlay s.core.early 63).isNone = true) ∧
      ¬(s.core.queued.any fun q => s.core.earlier q && decide (q.popsG ≠ 0)) = true ∧ s.core.sldq = e :: q ∧ e.val = some w ∧
      ¬e.poison = true ∧ Spec.gSources rs { s with core := { s.core with sldq := q } } = some (us, t) ∧ ws = w :: us) ∨
    (∃ us, ¬(r = 63 ∧ (overlay s.core.early 63).isNone = true) ∧ Spec.gSources rs s = some (us, t) ∧ ws = s.core.gVal r :: us) := by
  by_cases hr : r = 63 ∧ (overlay s.core.early 63).isNone = true
  · simp only [Spec.gSources, if_pos hr] at h
    split at h
    · cases h
    · next hfirst =>
      split at h
      · cases h
      · next e q hq =>
        split at h
        · cases h
        · next w hw =>
          split at h
          · cases h
          · next hclean =>
            split at h
            · cases h
            · next us u hus => cases h; exact .inl ⟨e, q, w, us, hr, hfirst, hq, hw, hclean, hus, rfl⟩
  · simp only [Spec.gSources, if_neg hr] at h
    split at h
    · cases h
    · next us u hus => cases h; exact .inr ⟨us, hr, hus, rfl⟩

/-- Pops of g sources leave every g register as it reads. -/
theorem gVal_of_gSources {rs : List GReg} {s t : State} {ws : List Word} (h : Spec.gSources rs s = some (ws, t)) (x : GReg) :
    t.core.gVal x = s.core.gVal x := by
  induction rs generalizing s ws with
  | nil => cases h; rfl
  | cons r rs ih =>
    obtain ⟨e, q, w, us, -, -, -, -, -, hus, -⟩ | ⟨us, -, hus, -⟩ := gSources_cons h
    · exact (ih hus).trans rfl
    · exact ih hus

/-- g sources that can all be read now hand their words on, none of them poisoned. -/
theorem readGs_of_gSources {rs : List GReg} {s t : State} {ws : List Word} (h : Spec.gSources rs s = some (ws, t))
    (k : List Word → Option Word → State → Outcome) : readGs rs s k = k ws none t := by
  induction rs generalizing s ws k with
  | nil => cases h; rfl
  | cons r rs ih =>
    obtain ⟨e, q, w, us, hr, hfirst, hq, hw, hclean, hus, rfl⟩ | ⟨us, hr, hus, rfl⟩ := gSources_cons h
    · simp only [readGs, if_pos hr, if_neg hfirst, hq, hw, ih hus, if_neg hclean]
    · simp only [readGs, if_neg hr, ih hus, gVal_of_gSources hus]

/-- A V slot that can execute now reads its sources and has its effect on the core that the pops left. -/
theorem vslot_of_vNow {i : Instr} {vr : List VReg} {gr : List GReg} {s t : State} {vs : List VWord} {ws : List Word}
    (h : Spec.vNow i vr gr s = some (vs, ws, t)) (f : List VWord → List Word → Core → Core) :
    vslot i vr gr s f = .next { t with core := f vs ws t.core } := by
  unfold Spec.vNow at h
  split at h
  · cases h
  · next hroom =>
    split at h
    · cases h
    · next vs' s1 hvs =>
      split at h
      · cases h
      · next ws' s2 hws =>
        cases h
        simp only [vslot, Bool.eq_true_of_not_eq_false hroom, Bool.not_true, Bool.false_eq_true, if_false,
          readVs_of_vSources hvs, readGs_of_gSources hws, done]

/-! ### Results (R140, R145) -/

/-- A result in D with its conditions is all that a V slot leaves. -/
theorem result_eq_vDone (d : VReg) (r : VWord × Conds) (s : State) :
    { s with core := s.core.result d r } = Spec.vDone d r.1 r.2 s := by
  unfold Core.result Core.setV Spec.vDone
  split <;> rfl

/-- Elements packed one after another lie side by side, with all their conditions. -/
theorem packElems_eq (w : Nat) (f : Nat → Nat × Conds) (n : Nat) :
    packElems w f n = (Spec.pack w n fun j => (f j).1, Spec.conds n fun j => (f j).2) := by
  induction n with
  | zero => rfl
  | succ n ih => simp [packElems, ih, Spec.pack, Spec.conds, List.range_succ]

/-- The slot's rounding mode is the one of the VSTAT that governs it (R89, R91, R134). -/
theorem mode_eq_rounding (s : State) : s.core.mode = Spec.rounding s := by
  unfold Core.mode Core.control assocGet Spec.rounding Spec.control
  cases s.core.olds.find? fun e => decide (e.1 = 0x100) <;> rfl

/-! ### Elements as integers (R130, R140) -/

theorem width_pos (t : VTy) : 0 < t.width := by cases t <;> decide

theorem elem_lt (v : VWord) (w j : Nat) : elem v w j < 2 ^ w := Nat.mod_lt _ (Nat.two_pow_pos w)

theorem wrapTo_lt (w : Nat) (x : Int) : Spec.wrapTo w x < 2 ^ w := BitVec.isLt _

theorem intCode_eq_wrapTo (w : Nat) (x : Int) : intCode w x = Spec.wrapTo w x := (BitVec.toNat_ofInt x).symm

/-- Two's complement of the low w bits is the integer of those bits. -/
theorem signedOf_eq_toInt {w : Nat} (hw : 0 < w) (c : Nat) : signedOf w c = (BitVec.ofNat w c).toInt := by
  obtain ⟨w, rfl⟩ : ∃ n, w = n + 1 := ⟨w - 1, by omega⟩
  have hmod : (c : Int) % 2 ^ (w + 1) = ((c % 2 ^ (w + 1) : Nat) : Int) := by push_cast; rfl
  have hpow : 2 ^ (w + 1) = 2 * 2 ^ w := Nat.pow_succ'
  rw [signedOf, BitVec.toInt_eq_toNat_cond, BitVec.toNat_ofNat, Nat.add_sub_cancel, hmod, Nat.cast_pow, Nat.cast_ofNat]
  split_ifs <;> omega

theorem intElem_eq_asInt (t : VTy) (c : Nat) : intElem t.signed t.width c = Spec.asInt t c := by
  unfold intElem Spec.asInt
  split
  · exact signedOf_eq_toInt (width_pos t) c
  · rw [BitVec.toNat_ofNat]

/-- Whether its type is signed or not, an element's integer has the element's bits. -/
theorem ofInt_asInt (t : VTy) (c : Nat) : BitVec.ofInt t.width (Spec.asInt t c) = BitVec.ofNat t.width c := by
  unfold Spec.asInt
  split
  · exact BitVec.ofInt_toInt
  · rw [BitVec.ofInt_natCast, BitVec.ofNat_toNat, BitVec.setWidth_eq]

theorem wrapTo_add (t : VTy) (a b : Nat) : Spec.wrapTo t.width (Spec.asInt t a + Spec.asInt t b) = (a + b) % 2 ^ t.width := by
  rw [Spec.wrapTo, BitVec.ofInt_add, ofInt_asInt, ofInt_asInt, ← BitVec.ofNat_add, BitVec.toNat_ofNat]

theorem wrapTo_mul (t : VTy) (a b : Nat) : Spec.wrapTo t.width (Spec.asInt t a * Spec.asInt t b) = a * b % 2 ^ t.width := by
  rw [Spec.wrapTo, BitVec.ofInt_mul, ofInt_asInt, ofInt_asInt, ← BitVec.ofNat_mul, BitVec.toNat_ofNat]

theorem wrapTo_sub (t : VTy) (a b : Nat) :
    Spec.wrapTo t.width (Spec.asInt t a - Spec.asInt t b) = (a + 2 ^ t.width - b % 2 ^ t.width) % 2 ^ t.width := by
  rw [Spec.wrapTo, Int.sub_eq_add_neg, BitVec.ofInt_add, BitVec.ofInt_neg, ofInt_asInt, ofInt_asInt, ← BitVec.sub_eq_add_neg,
    BitVec.toNat_sub, BitVec.toNat_ofNat, BitVec.toNat_ofNat]
  have hb : b % 2 ^ t.width < 2 ^ t.width := Nat.mod_lt _ (Nat.two_pow_pos _)
  rw [Nat.add_comm, Nat.mod_add_mod, Nat.add_sub_assoc hb.le]

/-! ### Element operations (R148 to R150) -/

/-- An operation by type is the rule's where its integer part wraps as the rule's does and its floating part is the rule's. -/
theorem byType_eq_arith {t : VTy} {a b : Nat} {onInt : Nat → Nat} {onFloat : Fmt → Nat × Conds} {opInt : Int → Int → Int}
    {opFloat : Fmt → Val → Val → Nat × Conds} (hint : onInt t.width = Spec.wrapTo t.width (opInt (Spec.asInt t a) (Spec.asInt t b)))
    (hfloat : ∀ f, onFloat f = opFloat f (decodeVal f a) (decodeVal f b)) : byType t onInt onFloat = Spec.arith t opInt opFloat a b := by
  unfold byType Spec.arith
  cases t.fmt with
  | none => exact congrArg (·, 0) hint
  | some f => exact hfloat f

theorem addE_eq_arith (mode : Nat) (t : VTy) (a b : Nat) :
    addE mode t a b = Spec.arith t (· + ·) (fun f x y => addVal f mode x y) a b :=
  byType_eq_arith (wrapTo_add t a b).symm fun _ => rfl

theorem subE_eq_arith (mode : Nat) (t : VTy) (a b : Nat) :
    subE mode t a b = Spec.arith t (· - ·) (fun f x y => addVal f mode x y.neg) a b :=
  byType_eq_arith (wrapTo_sub t a b).symm fun _ => rfl

theorem mulE_eq_arith (mode : Nat) (t : VTy) (a b : Nat) :
    mulE mode t a b = Spec.arith t (· * ·) (fun f x y => mulVal f mode x y) a b :=
  byType_eq_arith (wrapTo_mul t a b).symm fun _ => rfl

/-- The upper half of a product is its quotient by the modulus, rounded down. -/
theorem mulhE_eq (t : VTy) (a b : Nat) :
    mulhE t a b = (Spec.wrapTo t.width (Spec.asInt t a * Spec.asInt t b / 2 ^ t.width), 0) := by
  rw [mulhE, intElem_eq_asInt, intElem_eq_asInt, intCode_eq_wrapTo, Int.fdiv_eq_ediv_of_nonneg _ (Int.natCast_nonneg _)]
  push_cast
  rfl

/-- VMIN and VMAX differ in nothing from the choice by the order of R149. -/
theorem pickE_eq_choose (larger : Bool) (t : VTy) (a b : Nat) : pickE larger t a b = Spec.choose larger t a b := by
  unfold pickE elemNan elemLt Spec.choose
  cases t.fmt with
  | none => simp only [intElem_eq_asInt, Bool.or_self, Bool.false_eq_true, if_false, decide_eq_true_eq]
  | some f => simp only [Option.getD_some, Bool.or_eq_true, decide_eq_true_eq, apply_ite (Prod.mk · (0 : Conds))]

theorem shlE_eq (t : VTy) (a b : Nat) : shlE t a b = ((BitVec.ofNat t.width a <<< (b % t.width)).toNat, 0) := by
  rw [shlE, shiftBy, BitVec.toNat_shiftLeft, BitVec.toNat_ofNat, Nat.shiftLeft_eq, Nat.mod_mul_mod]

theorem shrE_eq {t : VTy} {a : Nat} (ha : a < 2 ^ t.width) (b : Nat) :
    shrE t a b = ((BitVec.ofNat t.width a >>> (b % t.width)).toNat, 0) := by
  rw [shrE, shiftBy, BitVec.toNat_ushiftRight, BitVec.toNat_ofNat, Nat.mod_eq_of_lt ha, Nat.shiftRight_eq_div_pow]

/-- An arithmetic shift is a quotient by a power of two, rounded down. -/
theorem shaE_eq (t : VTy) (a b : Nat) :
    shaE t a b = (((BitVec.ofNat t.width a).sshiftRight (b % t.width)).toNat, 0) := by
  rw [shaE, shiftBy, intCode_eq_wrapTo, intElem, if_pos rfl, signedOf_eq_toInt (width_pos t),
    Int.fdiv_eq_ediv_of_nonneg _ (Int.natCast_nonneg _), Spec.wrapTo, BitVec.sshiftRight, Int.shiftRight_eq_div_pow]

/-! ### Two-source slots (R142, R147) -/

section
variable {i : Instr} {d a b : VReg} {k : KReg} {w : Nat} {x y : VWord} {s s1 : State}

/-- An unmasked slot that can execute now writes its result. -/
theorem two_of_vNow {F : Core → VWord → VWord → VWord × Conds} (hnow : Spec.vNow i [a, b] [] s = some ([x, y], [], s1)) :
    two i d a b s F = .next (Spec.vDone d (F s1.core x y).1 (F s1.core x y).2 s1) := by
  rw [two, vslot_of_vNow hnow, result_eq_vDone]
  rfl

/-- A masked slot that can execute now writes its result; it reads its first source, D, after B. -/
theorem masked_of_vNow {F : Core → MaskWord → VWord → VWord → VWord × Conds}
    (hnow : Spec.vNow i [b, d] [] s = some ([y, x], [], s1)) :
    masked i d k b s F = .next (Spec.vDone d (F s1.core (s1.core.kVal k) x y).1 (F s1.core (s1.core.kVal k) x y).2 s1) := by
  rw [masked, vslot_of_vNow hnow, result_eq_vDone]
  rfl

/-- A result made of elements is those elements written. -/
theorem vDone_of_lanes {r : VWord × Conds} {e : Nat → Nat × Conds} (h : r = lanes w e) :
    Spec.vDone d r.1 r.2 s = Spec.vDoneElems d w e s := by
  rw [h]
  simp only [lanes, packElems_eq, Spec.vDoneElems]

/-- Element by element, operations that agree on elements of the width give the same register. -/
theorem zipElems_eq_lanes {f g : Nat → Nat → Nat × Conds} (h : ∀ p q, p < 2 ^ w → q < 2 ^ w → g p q = f p q) (m : MaskWord) :
    zipElems w m g x y x =
      lanes w fun j => if Spec.isActive m w j then f (Spec.el x w j) (Spec.el y w j) else (Spec.el x w j, 0) := by
  unfold zipElems
  congr
  funext j
  rw [h _ _ (elem_lt x w j) (elem_lt y w j)]
  rfl

variable {f : Nat → Nat → Nat → Nat × Conds}

/-- Every unmasked form is such a slot, of an operation that agrees with its rule on elements. -/
theorem exec_of_unmasked (hregs : Spec.twoRegs i = some (d, none, a, b)) (hop : Spec.twoOp i = some (w, f)) (s : State) :
    ∃ g : Core → Nat → Nat → Nat × Conds, (∀ c p q, p < 2 ^ w → q < 2 ^ w → g c p q = f c.mode p q) ∧
      exec i s = two i d a b s fun c a b => zipElems w (BitVec.allOnes 256) (g c) a b a := by
  cases i with
  | vadd d a b t => cases hregs; cases hop; exact ⟨fun c => addE c.mode t, fun c p q _ _ => addE_eq_arith _ t p q, rfl⟩
  | vsub d a b t => cases hregs; cases hop; exact ⟨fun c => subE c.mode t, fun c p q _ _ => subE_eq_arith _ t p q, rfl⟩
  | vmul d a b t => cases hregs; cases hop; exact ⟨fun c => mulE c.mode t, fun c p q _ _ => mulE_eq_arith _ t p q, rfl⟩
  | vmulh d a b t => cases hregs; cases hop; exact ⟨fun _ => mulhE t, fun _ p q _ _ => mulhE_eq t p q, rfl⟩
  | vmin d a b t => cases hregs; cases hop; exact ⟨fun _ => pickE false t, fun _ p q _ _ => pickE_eq_choose false t p q, rfl⟩
  | vmax d a b t => cases hregs; cases hop; exact ⟨fun _ => pickE true t, fun _ p q _ _ => pickE_eq_choose true t p q, rfl⟩
  | vshl d a b t => cases hregs; cases hop; exact ⟨fun _ => shlE t, fun _ p q _ _ => shlE_eq t p q, rfl⟩
  | vshr d a b t => cases hregs; cases hop; exact ⟨fun _ => shrE t, fun _ p q hp _ => shrE_eq hp q, rfl⟩
  | vsha d a b t => cases hregs; cases hop; exact ⟨fun _ => shaE t, fun _ p q _ _ => shaE_eq t p q, rfl⟩
  | _ => cases hregs

/-- Every masked form is such a slot, of an operation that agrees with its rule on elements; its first source is D. -/
theorem exec_of_masked {k : KReg} (hregs : Spec.twoRegs i = some (d, some k, a, b)) (hop : Spec.twoOp i = some (w, f)) (s : State) :
    a = d ∧ ∃ g : Core → Nat → Nat → Nat × Conds, (∀ c p q, p < 2 ^ w → q < 2 ^ w → g c p q = f c.mode p q) ∧
      exec i s = masked i d k b s fun c m a b => zipElems w m (g c) a b a := by
  cases i with
  | vaddMasked d k b t =>
    cases hregs; cases hop; exact ⟨rfl, fun c => addE c.mode t, fun c p q _ _ => addE_eq_arith _ t p q, rfl⟩
  | vsubMasked d k b t =>
    cases hregs; cases hop; exact ⟨rfl, fun c => subE c.mode t, fun c p q _ _ => subE_eq_arith _ t p q, rfl⟩
  | vmulMasked d k b t =>
    cases hregs; cases hop; exact ⟨rfl, fun c => mulE c.mode t, fun c p q _ _ => mulE_eq_arith _ t p q, rfl⟩
  | vmulhMasked d k b t =>
    cases hregs; cases hop; exact ⟨rfl, fun _ => mulhE t, fun _ p q _ _ => mulhE_eq t p q, rfl⟩
  | vminMasked d k b t =>
    cases hregs; cases hop; exact ⟨rfl, fun _ => pickE false t, fun _ p q _ _ => pickE_eq_choose false t p q, rfl⟩
  | vmaxMasked d k b t =>
    cases hregs; cases hop; exact ⟨rfl, fun _ => pickE true t, fun _ p q _ _ => pickE_eq_choose true t p q, rfl⟩
  | vshlMasked d k b t => cases hregs; cases hop; exact ⟨rfl, fun _ => shlE t, fun _ p q _ _ => shlE_eq t p q, rfl⟩
  | vshrMasked d k b t => cases hregs; cases hop; exact ⟨rfl, fun _ => shrE t, fun _ p q hp _ => shrE_eq hp q, rfl⟩
  | vshaMasked d k b t => cases hregs; cases hop; exact ⟨rfl, fun _ => shaE t, fun _ p q _ _ => shaE_eq t p q, rfl⟩
  | vandMasked d k b => cases hregs; cases hop; exact ⟨rfl, fun _ p q => (p &&& q, 0), fun _ _ _ _ _ => rfl, rfl⟩
  | vorMasked d k b => cases hregs; cases hop; exact ⟨rfl, fun _ p q => (p ||| q, 0), fun _ _ _ _ _ => rfl, rfl⟩
  | vxorMasked d k b => cases hregs; cases hop; exact ⟨rfl, fun _ p q => (p ^^^ q, 0), fun _ _ _ _ _ => rfl, rfl⟩
  | _ => cases hregs

end

/-- Every two-source form takes its operation element by element. -/
theorem vectorTwoSource_elements : Spec.VectorTwoSource := by
  intro i d a b k w f x y s s1 hregs hop hnow
  cases k with
  | none =>
    obtain ⟨g, hg, hexec⟩ := exec_of_unmasked hregs hop s
    rw [if_neg (by simp)] at hnow
    have hagree (p q) (hp : p < 2 ^ w) (hq : q < 2 ^ w) : g s1.core p q = f (Spec.rounding s1) p q := by
      rw [hg _ p q hp hq, mode_eq_rounding]
    rw [hexec, two_of_vNow hnow, vDone_of_lanes (zipElems_eq_lanes hagree _)]
    rfl
  | some k =>
    obtain ⟨rfl, g, hg, hexec⟩ := exec_of_masked hregs hop s
    rw [if_pos (by simp)] at hnow
    have hagree (p q) (hp : p < 2 ^ w) (hq : q < 2 ^ w) : g s1.core p q = f (Spec.rounding s1) p q := by
      rw [hg _ p q hp hq, mode_eq_rounding]
    rw [hexec, masked_of_vNow hnow, vDone_of_lanes (zipElems_eq_lanes hagree _)]
    rfl

/-! ### A poisoned source (R54, R346) -/

/-- VMOV is a one-source slot that hands its bytes on (R154). -/
theorem exec_vmov (d a : VReg) (k : KReg) (s : State) :
    exec (.vmov d a k) s = one (.vmov d a k) 8 d a k s fun _ v j => (elem v 8 j, 0) := rfl

/-- A VMOV whose source is a poisoned entry pops it and takes POISON_READ with the entry's address. -/
theorem exec_vmov_of_poison {d : VReg} {k : KReg} {v : VWord} {e : DataEntry 2048} {q : List (DataEntry 2048)} {s : State}
    (hq : s.core.vldq = e :: q) (hv : e.val = some v) (hp : e.poison = true) (hroom : roomFor (use (.vmov d 63 k)) s.core = true) :
    exec (.vmov d 63 k) s = backTrap (.vmov d 63 k) 0x047 e.addr 0 { s with core := { s.core with vldq := q } } := by
  simp only [exec_vmov, one, vslot, hroom, Bool.not_true, Bool.false_eq_true, if_false, readVs, if_true, hq, hv, hp, readGs]

/-- The empty pushes of a slot that writes no g register: one push where it writes v63, and nothing else. -/
theorem emptyPushes_of_vw {i : Use} {d : VReg} (hv : i.vw = [d]) (hg : i.gw = []) (c : Core) :
    c.emptyPushes i = if d = 63 then c.pushV none else c := by
  simp only [Core.emptyPushes, hv, hg, List.contains_cons, List.contains_nil, Bool.or_false, beq_iff_eq, Bool.false_eq_true, if_false,
    eq_comm (a := (63 : VReg))]

/-- A push without a store address that waits goes to the end of the queue. -/
theorem pushV_vsdq_of_no_store {c : Core} (h : c.unpairedStores true = 0) (x : Option VWord) : (c.pushV x).vsdq = c.vsdq ++ [x] := by
  rw [Core.pushV, if_pos h]

/-- The trap is held, and an empty push is all that is written. -/
theorem vectorPoison_held : Spec.VectorPoison := by
  intro d k v e q s hq hv hp hroom
  refine ⟨_, exec_vmov_of_poison hq hv hp hroom, ?_⟩
  simp only [emptyPushes_of_vw (i := use (.vmov d 63 k)) rfl rfl]
  by_cases hd : d = 63
  · simp only [if_pos hd, Core.pushV_v, Core.pushV_g, Core.pushV_vldq, Core.pushV_vstat, Core.pushV_held]
    exact ⟨rfl, rfl, rfl, rfl, fun h => absurd hd h, fun _ hfree => pushV_vsdq_of_no_store (by exact hfree) none, _, rfl, rfl, rfl, rfl, rfl,
      rfl, rfl⟩
  · simp only [if_neg hd]
    exact ⟨rfl, rfl, rfl, rfl, fun _ => rfl, fun h => absurd h hd, _, rfl, rfl, rfl, rfl, rfl, rfl, rfl⟩

/-- Settles O37: the element operations by their equations, and a poisoned source by what a held trap leaves. -/
theorem vectorTwoSource : Obligations.VectorTwoSource := ⟨vectorTwoSource_elements, vectorPoison_held⟩

/-! ### VPERM and VPACK (R163, R167) -/

theorem intRange_ordered (t : NTy) : (intRange t.signed t.width).1 ≤ (intRange t.signed t.width).2 := by cases t <;> decide

/-- A value clamped into a range is itself where it lies in the range. -/
theorem clamp_eq_self_iff {lo hi : Int} (h : lo ≤ hi) (x : Int) : max lo (min hi x) = x ↔ lo ≤ x ∧ x ≤ hi := by omega

theorem packE_eq (t : NTy) (x y : VWord) (j : Nat) :
    packE t x y j =
      let half := 1024 / t.width
      let e := BitVec.ofNat (2 * t.width) (if j < half then Spec.el x (2 * t.width) j else Spec.el y (2 * t.width) (j - half))
      let v := max (intRange t.signed t.width).1 (min (intRange t.signed t.width).2 e.toInt)
      (Spec.wrapTo t.width v, if v = e.toInt then 0 else condSAT) := by
  have hhalf : 2048 / t.width / 2 = 1024 / t.width := by cases t <;> rfl
  have hwide : 0 < 2 * t.width := by cases t <;> decide
  simp only [packE, hhalf, signedOf_eq_toInt hwide, intCode_eq_wrapTo, clamp_eq_self_iff (intRange_ordered t)]
  rfl

section
variable (d a b : VReg) (k : KReg) (t : VTy) (nt : NTy) (s : State)

theorem exec_vand : exec (.vand d a b) s = two (.vand d a b) d a b s fun _ x y => (x &&& y, 0) := rfl
theorem exec_vor : exec (.vor d a b) s = two (.vor d a b) d a b s fun _ x y => (x ||| y, 0) := rfl
theorem exec_vxor : exec (.vxor d a b) s = two (.vxor d a b) d a b s fun _ x y => (x ^^^ y, 0) := rfl
theorem exec_vperm : exec (.vperm d a b t) s =
    two (.vperm d a b t) d a b s fun _ x y => lanes t.width fun j => (permE t x y j, 0) := rfl
theorem exec_vpermMasked : exec (.vpermMasked d k b t) s = masked (.vpermMasked d k b t) d k b s fun _ m x y =>
    lanes t.width fun j => (if active m t.width j then permE t x y j else elem x t.width j, 0) := rfl
theorem exec_vpack : exec (.vpack d a b nt) s = two (.vpack d a b nt) d a b s fun _ x y => lanes nt.width (packE nt x y) := rfl
theorem exec_vpackMasked : exec (.vpackMasked d k b nt) s = masked (.vpackMasked d k b nt) d k b s fun _ m x y =>
    lanes nt.width fun j => if active m nt.width j then packE nt x y j else (elem x nt.width j, 0) := rfl

end

/-- Settles O31: each form reads its two registers and writes one result, VPACK's element by element as its rule clamps it. -/
theorem vectorPermPack : Obligations.VectorPermPack := by
  unfold Obligations.VectorPermPack
  intro d a b k t nt x y s s1 perm packed
  have hpack : packE nt x y = packed := funext (packE_eq nt x y)
  refine ⟨fun h => ?_, fun h => ?_, fun h => ?_, fun h => ?_, fun h => ?_, fun h => ?_, fun h => ?_⟩
  · rw [exec_vand, two_of_vNow h]
  · rw [exec_vor, two_of_vNow h]
  · rw [exec_vxor, two_of_vNow h]
  · rw [exec_vperm, two_of_vNow h, vDone_of_lanes rfl]
    rfl
  · rw [exec_vpermMasked, masked_of_vNow h, vDone_of_lanes rfl]
    rfl
  · rw [exec_vpack, two_of_vNow h, vDone_of_lanes rfl, hpack]
  · rw [exec_vpackMasked, masked_of_vNow h, vDone_of_lanes rfl, hpack]
    rfl

end Sys2Proof.Laws.Vector
end

section
/-!
SUPPORT. The reductions and the scan (R161, R162): the running sum and choice over the active elements, and the bound on the code
of a rounded sum, by which every partial sum of a scan fits its element (R134, R135, R146).
-/

namespace Sys2Proof.Laws.Vector

open Sys2Proof Sys2Proof.Machine

/-! ### The codes of rounded values (R128, R134, R135) -/

/-- A layout of a sign bit above a body that holds every code of a value rounded to it: the exponent field has room for the exponent of
the largest value. -/
structure CodesFit (l : Layout) : Prop where
  signed : l.signed = true
  precision_pos : 0 < l.p
  precision_le : l.p ≤ l.body + 1
  inf_lt : l.infCode < 2 ^ l.body
  nan_lt : l.nanCode < 2 ^ l.body
  top_lt : l.top < 2 ^ l.body
  top_magnitude : (l.body? l.top).1 < 2 ^ l.p
  top_exponent : (l.body? l.top).2 + l.p + 1 - l.emin ≤ (2 ^ (l.body + 1 - l.p) : Nat)

/-- The formats of the vector types have such layouts, as wide as their elements. -/
theorem codesFit_of_fmt {t : VTy} {f : Fmt} (h : t.fmt = some f) : CodesFit f.layout ∧ f.layout.body + 1 = t.width := by
  cases t with
  | i32 | w32 | i16 | w16 => cases h
  | f32 | f16 | b16 => cases h; exact ⟨by constructor <;> decide, by decide⟩

/-- A magnitude that is not above another one of n bits has its leading bit below bit n of that one. -/
theorem log2_add_lt_of_not_dyLt {a b n : Nat} {p q : Int} (ha : a < 2 ^ n) (hb : b ≠ 0) (h : dyLt a p b q = false) :
    (Nat.log2 b : Int) + q < n + p := by
  have hlow : 2 ^ Nat.log2 b ≤ b := Nat.log2_self_le hb
  unfold dyLt at h
  split at h
  · next hqp =>
    have hlt : 2 ^ Nat.log2 b < 2 ^ (n + (p - q).toNat) := by
      calc 2 ^ Nat.log2 b ≤ a * 2 ^ (p - q).toNat := hlow.trans (Nat.le_of_not_lt (of_decide_eq_false h))
        _ < 2 ^ n * 2 ^ (p - q).toNat := Nat.mul_lt_mul_of_pos_right ha (Nat.two_pow_pos _)
        _ = 2 ^ (n + (p - q).toNat) := (Nat.pow_add ..).symm
    have := (Nat.pow_lt_pow_iff_right (by decide)).1 hlt
    omega
  · next hqp =>
    have hlt : 2 ^ (Nat.log2 b + (q - p).toNat) < 2 ^ n := by
      calc 2 ^ (Nat.log2 b + (q - p).toNat) = 2 ^ Nat.log2 b * 2 ^ (q - p).toNat := Nat.pow_add ..
        _ ≤ b * 2 ^ (q - p).toNat := Nat.mul_le_mul_right _ hlow
        _ ≤ a := Nat.le_of_not_lt (of_decide_eq_false h)
        _ < 2 ^ n := ha
    have := (Nat.pow_lt_pow_iff_right (by decide)).1 hlt
    omega

/-- A magnitude counted in units, its leading bit below bit k of them. -/
theorem inUnits_lt {m k : Nat} {q unit : Int} (hm : m ≠ 0) (h : (Nat.log2 m : Int) + q < unit + k) :
    (if unit ≤ q then m * 2 ^ (q - unit).toNat else m / 2 ^ (unit - q).toNat) < 2 ^ k := by
  have hlog (n : Nat) (hn : Nat.log2 m < n) : m < 2 ^ n := (Nat.log2_lt hm).1 hn
  split
  · obtain ⟨n, hn⟩ : ∃ n, k = n + (q - unit).toNat := ⟨k - (q - unit).toNat, by omega⟩
    rw [hn, Nat.pow_add]
    exact Nat.mul_lt_mul_of_pos_right (hlog n (by omega)) (Nat.two_pow_pos _)
  · rw [Nat.div_lt_iff_lt_mul (Nat.two_pow_pos _), ← Nat.pow_add]
    exact hlog _ (by omega)

/-- A magnitude with a leading bit below the top of the exponent field encodes into the body and the sign. -/
theorem encode_lt {l : Layout} (hl : CodesFit l) (neg : Bool) {m : Nat} {q : Int}
    (h : m ≠ 0 → (Nat.log2 m : Int) + q + 2 - l.emin ≤ (2 ^ (l.body + 1 - l.p) : Nat)) : l.encode neg m q < 2 ^ (l.body + 1) := by
  have hbody : 2 ^ (l.body + 1) = 2 ^ l.body + 2 ^ l.body := by rw [Nat.pow_succ]; omega
  have hpos : 0 < 2 ^ l.body := Nat.two_pow_pos _
  have hsign : (if (neg && l.signed) = true then 2 ^ l.body else 0) ≤ 2 ^ l.body := by split <;> omega
  have hp := hl.precision_pos
  have hle := hl.precision_le
  by_cases hm : m = 0
  · simp only [Layout.encode, if_pos hm]
    split <;> omega
  · simp only [Layout.encode, if_neg hm]
    by_cases hsub : (Nat.log2 m : Int) + q < l.emin
    · simp only [if_pos hsub]
      have hn := inUnits_lt (k := l.p - 1) (q := q) (unit := l.emin - (l.p : Int) + 1) hm (by omega)
      have hfit : 2 ^ (l.p - 1) ≤ 2 ^ l.body := Nat.pow_le_pow_right (by decide) (by omega)
      omega
    · simp only [if_neg hsub]
      have hn := inUnits_lt (k := l.p) (q := q) (unit := (Nat.log2 m : Int) + q - (l.p : Int) + 1) hm (by omega)
      have hfield : ((Nat.log2 m : Int) + q - l.emin + 1).toNat + 1 ≤ 2 ^ (l.body + 1 - l.p) := by have := h hm; omega
      have hroom : (((Nat.log2 m : Int) + q - l.emin + 1).toNat + 1) * 2 ^ (l.p - 1) ≤ 2 ^ l.body := by
        calc _ ≤ 2 ^ (l.body + 1 - l.p) * 2 ^ (l.p - 1) := Nat.mul_le_mul_right _ hfield
          _ = 2 ^ l.body := by rw [← Nat.pow_add]; congr 1; omega
      have hdouble : 2 ^ l.p = 2 * 2 ^ (l.p - 1) := by rw [← Nat.pow_succ', Nat.succ_eq_add_one]; congr 1; omega
      rw [Nat.succ_mul] at hroom
      omega

/-- An infinity, or the NaN in its place, is a code of its format. -/
theorem infinity_lt {l : Layout} (hl : CodesFit l) (neg : Bool) : l.infinity neg < 2 ^ (l.body + 1) := by
  have hinf := hl.inf_lt
  have hnan := hl.nan_lt
  rw [Layout.infinity, Nat.pow_succ]
  split_ifs <;> omega

/-- The largest finite value is a code of its format. -/
theorem largest_lt {l : Layout} (hl : CodesFit l) (neg : Bool) : l.largest neg < 2 ^ (l.body + 1) := by
  have htop := hl.top_lt
  rw [Layout.largest, Nat.pow_succ]
  split <;> omega

/-- A magnitude on the grid, or what stands for one above the largest value, is a code of its format. -/
theorem clampTop_lt {l : Layout} (hl : CodesFit l) (neg big : Bool) (n : Nat) (unit : Int) (high fits : Conds) :
    (if dyLt (l.body? l.top).1 (l.body? l.top).2 n unit = true then (if big = true then l.largest neg else l.infinity neg, high)
      else (l.encode neg n unit, fits)).1 < 2 ^ (l.body + 1) := by
  split
  · cases big
    · exact infinity_lt hl neg
    · exact largest_lt hl neg
  · next hover =>
    refine encode_lt hl neg fun hn => ?_
    have hlead := log2_add_lt_of_not_dyLt hl.top_magnitude hn (Bool.eq_false_of_not_eq_true hover)
    have htop := hl.top_exponent
    omega

/-- A rounded value is a code of its format. -/
theorem roundTo_lt {f : Fmt} (hl : CodesFit f.layout) (mode : Nat) (sat neg : Bool) (m : Nat) (q : Int) (tail : Bool) :
    (roundTo f mode sat neg m q tail).1 < 2 ^ (f.layout.body + 1) := by
  unfold roundTo
  split
  · exact encode_lt (q := 0) hl neg fun h => absurd rfl h
  · simp only [hl.signed, Bool.not_true, Bool.and_false, Bool.false_eq_true, if_false]
    exact clampTop_lt hl ..

/-- A sum is a code of its format. -/
theorem addVal_lt {f : Fmt} (hl : CodesFit f.layout) (mode : Nat) (x y : Val) : (addVal f mode x y).1 < 2 ^ (f.layout.body + 1) := by
  have hnan : f.layout.nanCode < 2 ^ (f.layout.body + 1) := hl.nan_lt.trans (Nat.pow_lt_pow_right (by decide) (Nat.lt_succ_self _))
  cases x with
  | nan => exact hnan
  | inf a =>
    cases y with
    | nan => exact hnan
    | inf b =>
      simp only [addVal]
      split
      · exact infinity_lt hl a
      · exact hnan
    | fin => exact infinity_lt hl a
  | fin =>
    cases y with
    | nan => exact hnan
    | inf b => exact infinity_lt hl b
    | fin => exact roundTo_lt hl ..

/-- Every partial sum fits its element. -/
theorem arith_add_lt (mode : Nat) (t : VTy) (a b : Nat) :
    (Spec.arith t (· + ·) (fun f x y => addVal f mode x y) a b).1 < 2 ^ t.width := by
  unfold Spec.arith
  split
  · exact wrapTo_lt ..
  · next f hf =>
    obtain ⟨hl, hw⟩ := codesFit_of_fmt hf
    exact hw ▸ addVal_lt hl ..

/-- The first input of a reduction fits its element. -/
theorem firstInput_lt (t : VTy) {x : Nat} (hx : x < 2 ^ t.width) : Spec.firstInput t x < 2 ^ t.width := by
  unfold Spec.firstInput
  split
  · exact hx
  · next f hf =>
    obtain ⟨hl, hw⟩ := codesFit_of_fmt hf
    split
    · exact hw ▸ hl.nan_lt.trans (Nat.pow_lt_pow_right (by decide) (Nat.lt_succ_self _))
    · exact hx

/-! ### Sums (R161) -/

theorem firstIn_eq_firstInput (t : VTy) (x : Nat) : firstIn t x = Spec.firstInput t x := by
  unfold firstIn elemNan Spec.firstInput
  cases t.fmt with
  | none => rfl
  | some f => simp only [decide_eq_true_eq, Option.getD_some]

/-- The sum and its conditions after one more input. -/
def plus (mode : Nat) (t : VTy) (acc : Nat × Conds) (z : Nat) : Nat × Conds :=
  ((Spec.arith t (· + ·) (fun f u v => addVal f mode u v) acc.1 z).1,
    acc.2 ||| (Spec.arith t (· + ·) (fun f u v => addVal f mode u v) acc.1 z).2)

theorem sumOf_cons (mode : Nat) (t : VTy) (x : Nat) (xs : List Nat) :
    Spec.sumOf mode t (x :: xs) = xs.foldl (plus mode t) (Spec.firstInput t x, 0) := rfl

/-- Once it has an input, the running sum goes on as the rule's. -/
theorem foldl_sumStep_some (mode : Nat) (t : VTy) (xs : List Nat) (acc : Nat × Conds) :
    xs.foldl (sumStep mode t) (some acc.1, acc.2) = (some (xs.foldl (plus mode t) acc).1, (xs.foldl (plus mode t) acc).2) := by
  induction xs generalizing acc with
  | nil => rfl
  | cons x xs ih =>
    rw [List.foldl_cons, List.foldl_cons, ← ih]
    simp only [sumStep, addE_eq_arith, plus]

/-- The running sum of a list of inputs is the rule's sum of it. -/
theorem foldl_sumStep (mode : Nat) (t : VTy) (xs : List Nat) :
    ((xs.foldl (sumStep mode t) (none, 0)).1.getD 0, (xs.foldl (sumStep mode t) (none, 0)).2) = Spec.sumOf mode t xs := by
  cases xs with
  | nil => rfl
  | cons x xs =>
    rw [List.foldl_cons, sumStep, firstIn_eq_firstInput, foldl_sumStep_some mode t xs (Spec.firstInput t x, 0), sumOf_cons]
    rfl

/-- A sum fits its element. -/
theorem sumOf_lt (mode : Nat) (t : VTy) {xs : List Nat} (h : ∀ x ∈ xs, x < 2 ^ t.width) : (Spec.sumOf mode t xs).1 < 2 ^ t.width := by
  cases xs with
  | nil => exact Nat.two_pow_pos _
  | cons x xs =>
    rw [sumOf_cons]
    refine List.foldlRecOn (motive := fun acc : Nat × Conds => acc.1 < 2 ^ t.width) xs (plus mode t)
      (firstInput_lt t (h x List.mem_cons_self)) fun acc _ z _ => ?_
    exact arith_add_lt mode t acc.1 z

/-- A sum of integers is the sum of the inputs modulo 2^w. -/
theorem sumOf_of_int {mode : Nat} {t : VTy} (ht : t.fmt = none) {xs : List Nat} (h : ∀ x ∈ xs, x < 2 ^ t.width) :
    (Spec.sumOf mode t xs).1 = xs.sum % 2 ^ t.width := by
  have hplus (acc : Nat × Conds) (z : Nat) : (plus mode t acc z).1 = (acc.1 + z) % 2 ^ t.width := by
    simp only [plus, Spec.arith, ht, wrapTo_add]
  have hfold (xs : List Nat) (acc : Nat × Conds) (hacc : acc.1 < 2 ^ t.width) :
      (xs.foldl (plus mode t) acc).1 = (acc.1 + xs.sum) % 2 ^ t.width := by
    induction xs generalizing acc with
    | nil => exact (Nat.mod_eq_of_lt hacc).symm
    | cons z xs ih =>
      rw [List.foldl_cons, ih _ (by rw [hplus]; exact Nat.mod_lt _ (Nat.two_pow_pos _)), hplus, Nat.mod_add_mod, List.sum_cons,
        Nat.add_assoc]
  cases xs with
  | nil => rfl
  | cons x xs =>
    have hfirst : Spec.firstInput t x = x := by simp only [Spec.firstInput, ht]
    rw [sumOf_cons, hfirst, hfold xs (x, 0) (h x List.mem_cons_self), List.sum_cons]

/-! ### Greatest and least (R161) -/

/-- Without inputs, the extreme of the type on the other side. -/
theorem extremeE_eq_bestOf_nil (larger : Bool) (t : VTy) : extremeE (!larger) t = Spec.bestOf larger t [] := by
  cases larger <;> cases t <;> decide

theorem pickAll_eq_bestOf (larger : Bool) (t : VTy) (xs : List Nat) : pickAll larger t xs = Spec.bestOf larger t xs := by
  cases xs with
  | nil => exact extremeE_eq_bestOf_nil larger t
  | cons x xs => simp only [pickAll, Spec.bestOf, firstIn_eq_firstInput, pickE_eq_choose]

/-- Not past another integer on the way to the greatest or to the least. -/
def notPast (larger : Bool) (x y : Int) : Prop := if larger then x ≤ y else y ≤ x

theorem notPast_refl (larger : Bool) (x : Int) : notPast larger x x := by cases larger <;> exact le_refl x

theorem notPast_trans {larger : Bool} {x y z : Int} (hxy : notPast larger x y) (hyz : notPast larger y z) : notPast larger x z := by
  cases larger
  · exact le_trans (α := Int) hyz hxy
  · exact le_trans (α := Int) hxy hyz

/-- Neither of two integers is past the one chosen. -/
theorem notPast_choose {t : VTy} (ht : t.fmt = none) (larger : Bool) (a b : Nat) :
    notPast larger (Spec.asInt t a) (Spec.asInt t (Spec.choose larger t a b).1) ∧
    notPast larger (Spec.asInt t b) (Spec.asInt t (Spec.choose larger t a b).1) := by
  cases larger with
  | true =>
    simp only [notPast, Spec.choose, ht, if_true]
    split <;> omega
  | false =>
    simp only [notPast, Spec.choose, ht, Bool.false_eq_true, if_false]
    split <;> omega

/-- No input of integers is past the one that is kept. -/
theorem notPast_bestOf {t : VTy} (ht : t.fmt = none) (larger : Bool) {xs : List Nat} {e : Nat} (he : e ∈ xs) :
    notPast larger (Spec.asInt t e) (Spec.asInt t (Spec.bestOf larger t xs)) := by
  have hfold (xs : List Nat) (acc : Nat) (e : Nat) (he : e ∈ acc :: xs) :
      notPast larger (Spec.asInt t e) (Spec.asInt t (xs.foldl (fun acc z => (Spec.choose larger t acc z).1) acc)) := by
    induction xs generalizing acc e with
    | nil => rw [List.mem_singleton.1 he]; exact notPast_refl ..
    | cons z xs ih =>
      obtain ⟨hacc, hz⟩ := notPast_choose ht larger acc z
      have hkept := ih (Spec.choose larger t acc z).1 _ List.mem_cons_self
      rcases List.mem_cons.1 he with rfl | he
      · exact notPast_trans hacc hkept
      · rcases List.mem_cons.1 he with rfl | he
        · exact notPast_trans hz hkept
        · exact ih _ e (List.mem_cons_of_mem _ he)
  cases xs with
  | nil => cases he
  | cons x xs =>
    have hfirst : Spec.firstInput t x = x := by simp only [Spec.firstInput, ht]
    simp only [Spec.bestOf, hfirst]
    exact hfold xs x e he

/-! ### The scan (R162) -/

/-- The active elements below element n, in increasing order. -/
def activeBelow (x : VWord) (m : MaskWord) (w n : Nat) : List Nat := ((List.range n).filter (Spec.isActive m w)).map (Spec.el x w)

theorem activeBelow_succ (x : VWord) (m : MaskWord) (w n : Nat) :
    activeBelow x m w (n + 1) = activeBelow x m w n ++ if Spec.isActive m w n then [Spec.el x w n] else [] := by
  rw [activeBelow, List.range_succ, List.filter_append, List.map_append, List.filter_singleton]
  cases Spec.isActive m w n <;> rfl

theorem lt_of_mem_activeBelow {x : VWord} {m : MaskWord} {w n e : Nat} (h : e ∈ activeBelow x m w n) : e < 2 ^ w := by
  obtain ⟨j, -, rfl⟩ := List.mem_map.1 h
  exact elem_lt x w j

/-- Inactive elements add nothing to the active ones before them. -/
theorem activeBelow_of_inactive {x : VWord} {m : MaskWord} {w j n : Nat} (hjn : j ≤ n)
    (h : ∀ i, j ≤ i → i < n → Spec.isActive m w i = false) : activeBelow x m w n = activeBelow x m w j := by
  induction n, hjn using Nat.le_induction with
  | base => rfl
  | succ n hjn ih =>
    rw [activeBelow_succ, h n hjn (Nat.lt_succ_self n), if_neg Bool.false_ne_true, List.append_nil,
      ih fun i hi hin => h i hi (hin.trans (Nat.lt_succ_self n))]

/-- The running sum after an element: one step further where it is active. -/
theorem foldl_activeBelow_succ (mode : Nat) (t : VTy) (x : VWord) (m : MaskWord) (n : Nat) (acc : Option Nat × Conds) :
    (activeBelow x m t.width (n + 1)).foldl (sumStep mode t) acc =
      if Spec.isActive m t.width n then sumStep mode t ((activeBelow x m t.width n).foldl (sumStep mode t) acc) (Spec.el x t.width n)
      else (activeBelow x m t.width n).foldl (sumStep mode t) acc := by
  rw [activeBelow_succ, List.foldl_append]
  split <;> rfl

/-- Elements side by side, with one more above them. -/
theorem pack_succ (w n : Nat) (f : Nat → Nat) : Spec.pack w (n + 1) f = Spec.pack w n f + f n % 2 ^ w * 2 ^ (w * n) := by
  simp only [Spec.pack, List.range_succ, List.map_append, List.sum_append, List.map_singleton, List.sum_singleton]

/-- One more element of a scan. -/
theorem scanElems_succ (mode : Nat) (t : VTy) (x : VWord) (m : MaskWord) (n : Nat) :
    scanElems mode t x m (n + 1) =
      if Spec.isActive m t.width n then
        ((scanElems mode t x m n).1 + (sumStep mode t (scanElems mode t x m n).2 (Spec.el x t.width n)).1.getD 0 * 2 ^ (t.width * n),
          sumStep mode t (scanElems mode t x m n).2 (Spec.el x t.width n))
      else scanElems mode t x m n := rfl

/-- The elements of a scan: each active one holds the sum so far, which fits it, and the sum runs on over the active elements. -/
theorem scanElems_eq (mode : Nat) (t : VTy) (x : VWord) (m : MaskWord) (n : Nat) :
    scanElems mode t x m n =
      (Spec.pack t.width n fun j => if Spec.isActive m t.width j then (Spec.sumOf mode t (activeBelow x m t.width (j + 1))).1 else 0,
        (activeBelow x m t.width n).foldl (sumStep mode t) (none, 0)) := by
  induction n with
  | zero => rfl
  | succ n ih =>
    have hsum : ((activeBelow x m t.width (n + 1)).foldl (sumStep mode t) (none, 0)).1.getD 0 = _ :=
      congrArg Prod.fst (foldl_sumStep mode t (activeBelow x m t.width (n + 1)))
    have hlt := sumOf_lt mode t fun e (he : e ∈ activeBelow x m t.width (n + 1)) => lt_of_mem_activeBelow he
    rw [scanElems_succ, ih, pack_succ]
    by_cases hn : Spec.isActive m t.width n = true
    · rw [← hsum, foldl_activeBelow_succ, if_pos hn] at hlt
      simp only [if_pos hn, ← hsum, foldl_activeBelow_succ, Nat.mod_eq_of_lt hlt]
    · simp only [if_neg hn, Nat.zero_mod, Nat.zero_mul, Nat.add_zero, foldl_activeBelow_succ]

/-! ### The slots -/

section
variable {d a : VReg} {k : KReg} {t : VTy} {x : VWord} {s s1 : State}

/-- A reduction that can execute now writes its result over the active elements into element 0. -/
theorem reduce_of_vNow {i : Instr} {f : Core → List Nat → Nat × Conds} (hnow : Spec.vNow i [a] [] s = some ([x], [], s1)) :
    reduce i d a k t s f =
      let r := f s1.core (activeBelow x (s1.core.kVal k) t.width (2048 / t.width))
      .next (Spec.vDone d (BitVec.ofNat 2048 r.1) r.2 s1) := by
  rw [reduce, vslot_of_vNow hnow, result_eq_vDone]
  rfl

theorem exec_vredSum : exec (.vredSum d a k t) s = reduce (.vredSum d a k t) d a k t s fun c xs =>
    ((xs.foldl (sumStep c.mode t) (none, 0)).1.getD 0, (xs.foldl (sumStep c.mode t) (none, 0)).2) := rfl
theorem exec_vredMax : exec (.vredMax d a k t) s = reduce (.vredMax d a k t) d a k t s fun _ xs => (pickAll true t xs, 0) := rfl
theorem exec_vredMin : exec (.vredMin d a k t) s = reduce (.vredMin d a k t) d a k t s fun _ xs => (pickAll false t xs, 0) := rfl
theorem exec_vscan : exec (.vscan d a k t) s = vslot (.vscan d a k t) [a] [] s fun vs _ c =>
    c.result d (BitVec.ofNat 2048 (scanElems c.mode t (src vs 0) (c.kVal k) (2048 / t.width)).1,
      (scanElems c.mode t (src vs 0) (c.kVal k) (2048 / t.width)).2.2) := rfl

/-- A scan that can execute now writes the sums up to each active element. -/
theorem exec_vscan_of_vNow (hnow : Spec.vNow (.vscan d a k t) [a] [] s = some ([x], [], s1)) :
    exec (.vscan d a k t) s =
      let sum (j : Nat) := Spec.sumOf (Spec.rounding s1) t (activeBelow x (s1.core.kVal k) t.width j)
      .next (Spec.vDone d (BitVec.ofNat 2048 (Spec.pack t.width (2048 / t.width) fun j =>
        if Spec.isActive (s1.core.kVal k) t.width j then (sum (j + 1)).1 else 0)) (sum (2048 / t.width)).2 s1) := by
  have hsrc : src [x] 0 = x := rfl
  rw [exec_vscan, vslot_of_vNow hnow, result_eq_vDone, hsrc, scanElems_eq, mode_eq_rounding]
  simp only [← foldl_sumStep]

end

/-- Settles O35: the sums and choices run over the active elements in order, and every partial sum of a scan fits its element. -/
theorem vectorReductions : Obligations.VectorReductions := by
  unfold Obligations.VectorReductions
  intro d a k t x s s1 n on upTo sum
  have hlt : ∀ e ∈ upTo n, e < 2 ^ t.width := fun e he => lt_of_mem_activeBelow he
  refine ⟨fun h => ?_, fun ht => sumOf_of_int ht hlt, fun h => ?_, fun h => ?_, fun ht e he => ?_, fun h => ?_,
    fun j hj _ hafter => ?_⟩
  · rw [exec_vredSum, reduce_of_vNow h, foldl_sumStep, mode_eq_rounding]
    rfl
  · rw [exec_vredMax, reduce_of_vNow h, pickAll_eq_bestOf]
    rfl
  · rw [exec_vredMin, reduce_of_vNow h, pickAll_eq_bestOf]
    rfl
  · exact ⟨notPast_bestOf ht true he, notPast_bestOf ht false he⟩
  · exact exec_vscan_of_vNow h
  · have hsame : upTo n = upTo (j + 1) := activeBelow_of_inactive hj hafter
    simp only [sum, hsame]

end Sys2Proof.Laws.Vector
end

section
/-!
SUPPORT. Entering a trap: the bank that takes it, the climb past banks that do not, the record and the loop shadow
(R308, R310, R312, R313, R315).
-/

namespace Sys2Proof.Laws.Traps

open Sys2Proof Sys2Proof.Machine

/-! ### Banks -/

/-- A bank put where there is one is the one found there. -/
theorem bank_putBank_self {c : Core} {l : Nat} (hl : l < 3) (b : TrapBank) : (c.putBank l b).bank l = b := by
  simp [Core.bank, Core.putBank, List.getD_eq_getElem?_getD, hl]

/-- A bank that is put leaves the other banks. -/
theorem bank_putBank_of_ne {c : Core} {l m : Nat} (h : m ≠ l) (b : TrapBank) : (c.putBank l b).bank m = c.bank m := by
  simp [Core.bank, Core.putBank, List.getD_eq_getElem?_getD, h.symm]

/-- Level 3 has no bank, and is read as a bank at reset. -/
theorem bank_of_le {c : Core} {l : Nat} (hl : 3 ≤ l) : c.bank l = {} := by
  simp [Core.bank, List.getD_eq_getElem?_getD, hl]

/-- The climb's test of a bank is the one of R313. -/
theorem bank_takes_iff (c : Core) (l : Nat) : (c.bank l).takes = true ↔ Spec.takes c l := by
  simp [TrapBank.takes, Spec.takes, fld]

/-- Only a level that has a bank takes a trap. -/
theorem lt_of_takes {c : Core} {l : Nat} (h : Spec.takes c l) : l < 3 := by
  by_contra hl
  obtain ⟨-, hvec⟩ := h
  rw [bank_of_le (Nat.le_of_not_lt hl)] at hvec
  exact hvec rfl

/-! ### The climb (R313, R315) -/

theorem findBank_of_takes {c : Core} {l : Nat} (h : Spec.takes c l) (t : Trap) : findBank c l t = some (l, t) := by
  have hb := (bank_takes_iff c l).2 h
  cases l <;> exact if_pos hb

theorem findBank_zero_of_not_takes {c : Core} (h : ¬ Spec.takes c 0) (t : Trap) : findBank c 0 t = none :=
  if_neg (mt (bank_takes_iff c 0).1 h)

theorem findBank_succ_of_not_takes {c : Core} {l : Nat} (h : ¬ Spec.takes c (l + 1)) (t : Trap) :
    findBank c (l + 1) t = findBank c l (doubleTrap t c.level) :=
  if_neg (mt (bank_takes_iff c (l + 1)).1 h)

/-- The level that a routing entry names goes along with the trap and decides nothing on the climb. -/
theorem findBank_withLevel (c : Core) (l : Nat) (t : Trap) (x : Option (BitVec 2)) :
    findBank c l { t with level := x } = (findBank c l t).map fun p => (p.1, { p.2 with level := x }) := by
  induction l generalizing t with
  | zero => simp only [findBank]; split <;> rfl
  | succ l ih =>
    simp only [findBank]
    split
    · rfl
    · exact ih (doubleTrap t c.level)

/-! ### Entry -/

/-- What a bank that takes a trap makes of the core, once the climb has found it. -/
def enterAt (l : Nat) (t : Trap) (s : State) : State :=
  let c := s.core.putBank l ((s.core.bank l).record t s.core.level s.core.loops)
  { s with core := { c with loops := { c.loops with lc := Vector.replicate 4 0, order := [] },
                            level := BitVec.ofNat 2 l, pc := (s.core.bank l).tvec, next := (s.core.bank l).tvec,
                            run := .running, after := s.core.keepWait, later := s.core.later.map fun x => (x.1 + 1, x.2) } }

/-- The model tries first the level of R313. -/
theorem entryLevel_eq (c : Core) (t : Trap) : entryLevel c t = Spec.firstLevel c t := rfl

/-- A trap enters at the bank that its climb finds, and halts the core and its partition where it finds none. -/
theorem enterTrap_eq (t : Trap) (s : State) : enterTrap t s =
    ((findBank s.core (Spec.firstLevel s.core t) t).map fun p => enterAt p.1 p.2 s).getD
      ({ s with core := { s.core with run := .stopped } } : State).haltDouble := by
  unfold enterTrap
  rw [entryLevel_eq]
  cases findBank s.core (Spec.firstLevel s.core t) t <;> rfl

theorem enterTrap_of_takes {t : Trap} {s : State} (h : Spec.takes s.core (Spec.firstLevel s.core t)) :
    enterTrap t s = enterAt (Spec.firstLevel s.core t) t s := by
  rw [enterTrap_eq, findBank_of_takes h]; rfl

/-- The routed level leaves no mark on the entry. -/
theorem enterAt_withLevel (l : Nat) (t : Trap) (x : Option (BitVec 2)) (s : State) :
    enterAt l { t with level := x } s = enterAt l t s := rfl

/-- No trap tries first a level less privileged than the core's. -/
theorem firstLevel_le (c : Core) (t : Trap) : Spec.firstLevel c t ≤ c.level.toNat := Nat.min_le_right ..

/-- A routed level at least as privileged as the core's is the one tried first. -/
theorem firstLevel_of_level {c : Core} {t : Trap} {x : BitVec 2} (ht : t.level = some x) (hx : x.toNat ≤ c.level.toNat) :
    Spec.firstLevel c t = x.toNat := by
  rw [Spec.firstLevel, ht]
  exact Nat.min_eq_left hx

/-! ### The record (R308, R310) -/

/-- The TCAUSE image that entry writes is the one of R308. -/
theorem tcauseImage_eq (t : Trap) (plev : BitVec 2) : tcauseImage t plev = Spec.causeWord t plev := by
  have bit (b : Bool) (n : Nat) : (if b then n else 0) = n * b.toNat := by cases b <;> simp
  simp only [tcauseImage, Spec.causeWord, bit, Nat.reducePow, Nat.mul_comm plev.toNat]

/-- The double trap of the climb is the one of R315, but for the level that it is routed to. -/
theorem displaced_eq (t : Trap) (plev : BitVec 2) (l : Nat) :
    Spec.displaced t plev l = { doubleTrap t plev with level := some (BitVec.ofNat 2 l) } := by
  rw [Spec.displaced, doubleTrap, tcauseImage_eq]

/-! ### The shadowed order (R312) -/

/-- The digits of an order, base 4, the latest level lowest. -/
def orderDigits (o : List LoopLevel) : Nat := o.foldr (fun l n => l.toNat + 4 * n) 0

theorem orderDigits_cons (l : LoopLevel) (o : List LoopLevel) : orderDigits (l :: o) = l.toNat + 4 * orderDigits o := rfl

theorem orderDigits_lt (o : List LoopLevel) : orderDigits o < 4 ^ o.length := by
  induction o with
  | nil => decide
  | cons l o ih =>
    have hl := l.isLt
    rw [orderDigits_cons, List.length_cons, Nat.pow_succ]
    omega

theorem orderDigits_digit {o : List LoopLevel} {i : Nat} {n : LoopLevel} (h : o[i]? = some n) :
    orderDigits o / 4 ^ i % 4 = n.toNat := by
  induction o generalizing i with
  | nil => cases h
  | cons l o ih =>
    have hl := l.isLt
    rw [orderDigits_cons]
    cases i with
    | zero => cases h; omega
    | succ i =>
      have hdrop : (l.toNat + 4 * orderDigits o) / 4 = orderDigits o := by omega
      rw [Nat.pow_succ', ← Nat.div_div_eq_div_mul, hdrop, ih h]

/-- LSHORD as a number: NACT above the digits, which fit below it for up to four levels. -/
theorem orderWord_toNat {o : List LoopLevel} (ho : o.length ≤ 4) :
    orderDigits o < 256 ∧ (orderWord o).toNat = o.length * 256 + orderDigits o := by
  have hd : orderDigits o < 256 := (orderDigits_lt o).trans_le (Nat.pow_le_pow_right (by decide) ho)
  refine ⟨hd, ?_⟩
  change (o.length * 256 + orderDigits o % 256) % 2 ^ 64 = _
  omega

/-- LSHORD holds the order of up to four levels. -/
theorem holdsOrder_orderWord {o : List LoopLevel} (ho : o.length ≤ 4) : Spec.holdsOrder (orderWord o) o := by
  obtain ⟨hd, hw⟩ := orderWord_toNat ho
  refine ⟨by omega, fun i n hi => ?_⟩
  have hlt : i < 4 := (List.getElem?_eq_some_iff.1 hi).1.trans_le ho
  have hdigit := orderDigits_digit hi
  rw [hw]
  interval_cases i <;> omega

/-- The record of a bank is what R307 to R313 say stands there after entry. -/
theorem entered_record (b : TrapBank) (t : Trap) (plev : BitVec 2) (lo : Loops) :
    Spec.entered b t plev lo (b.record t plev lo) := by
  have hstate (p : Bool) : let w := BitVec.ofNat 64 (1 + (if p then 4 else 0))
      w.getLsbD 2 = p ∧ w.getLsbD 1 = false ∧ w.getLsbD 0 = true := by cases p <;> decide
  exact ⟨tcauseImage_eq t plev, rfl, rfl, rfl, rfl, rfl, rfl, rfl, rfl, rfl, rfl, rfl, holdsOrder_orderWord, hstate _⟩

/-! ### The three ways in -/

/-- A bank passed over: the trap enters one level up, displaced by the double trap (R315). -/
theorem enterTrap_displaced {t : Trap} {s : State} {l : Nat} (hl : Spec.firstLevel s.core t = l + 1)
    (h : ¬ Spec.takes s.core (l + 1)) : enterTrap t s = enterTrap (Spec.displaced t s.core.level l) s := by
  have hle : l + 1 ≤ s.core.level.toNat := hl ▸ firstLevel_le s.core t
  have hto : (BitVec.ofNat 2 l).toNat = l := Nat.mod_eq_of_lt (by have := s.core.level.isLt; omega)
  have hfirst : Spec.firstLevel s.core (Spec.displaced t s.core.level l) = l := by
    rw [firstLevel_of_level rfl (hto.le.trans (by omega)), hto]
  rw [enterTrap_eq, enterTrap_eq, hl, hfirst, findBank_succ_of_not_takes h, displaced_eq,
    findBank_withLevel s.core l _ (some _), Option.map_map]
  rfl

/-- FW's bank passed over: the core stops, and the halt of its partition is asked (R313, R315). -/
theorem enterTrap_halts {t : Trap} {s : State} (hl : Spec.firstLevel s.core t = 0) (h : ¬ Spec.takes s.core 0) :
    enterTrap t s = ({ s with core := { s.core with run := .stopped } } : State).haltDouble := by
  rw [enterTrap_eq, hl, findBank_zero_of_not_takes h]; rfl

/-- Settles O6: the first bank of the climb takes the trap, or hands it one level up, or, being FW's, lets it halt. -/
theorem trapEntry : Obligations.TrapEntry := by
  unfold Obligations.TrapEntry
  intro t s l
  refine ⟨?_, fun hnot hpos => ?_, fun hnot hzero => ?_⟩
  · intro htakes s'
    have hl : l < 3 := lt_of_takes htakes
    have hs' : s' = enterAt l t s := enterTrap_of_takes htakes
    obtain ⟨hmem, hg, hv, hk, hacc, hspad, -⟩ := enterTrap_frame t s
    have hself : s'.core.bank l = (s.core.bank l).record t s.core.level s.core.loops := hs' ▸ bank_putBank_self hl _
    have hother (m : Nat) (hm : m ≠ l) : s'.core.bank m = s.core.bank m := hs' ▸ bank_putBank_of_ne hm _
    have hlevel : s'.core.level.toNat = l := hs' ▸ Nat.mod_eq_of_lt (by omega)
    have hcore : s'.core.pc = (s.core.bank l).tvec ∧ s'.core.next = (s.core.bank l).tvec ∧
        s'.core.loops.lc = Vector.replicate 4 0 ∧ s'.core.loops.order = [] ∧ s'.core.run = .running := hs' ▸ ⟨rfl, rfl, rfl, rfl, rfl⟩
    obtain ⟨hpc, hnext, hlc, horder, hrun⟩ := hcore
    exact ⟨hself ▸ entered_record .., hother, hlevel, hpc, hnext, hlc, horder, hg, hv, hk, hacc, hspad, hmem, hrun⟩
  · have hl : l = (l - 1) + 1 := by omega
    exact enterTrap_displaced hl (hl ▸ hnot)
  · have hhalt := enterTrap_halts hzero (hzero ▸ hnot)
    exact ⟨hhalt ▸ rfl, (enterTrap_frame t s).1, hhalt ▸ rfl⟩

end Sys2Proof.Laws.Traps
end
